-- ==== Sys2Proof/Word.lean ====
section
/-! DEFINITION. The word types of the Shephor S9 (R2, R3, R23, R33): bytes, 32-bit containers and
instruction words, 64-bit scalar registers. Only the names; what is done to them stands in Machine/. -/

namespace Sys2Proof

/-- One byte of a memory or scratchpad. -/
abbrev Byte := BitVec 8

/-- A 32-bit container of a vector register, a tile element or an instruction word (R23, R33). -/
abbrev Word := BitVec 32

/-- A 64-bit scalar or control register (R11, R123). -/
abbrev Dword := BitVec 64

end Sys2Proof
end

