-- ==== Sys2Proof/Syntax.lean ====
section
/-! DEFINITION. The operations and events of the Shephor S9 as data: element types (R38), rounding
modes (R39), the message a core sends to a home (R275, R297), and `Instr`, ONE constructor for each row of
opcode_table.json: the 184 instruction words, with their raw field values (R34), and the 98 events. -/

namespace Sys2Proof

/-- Element types (R38), one constructor for each assigned code 0x00 to 0x12. -/
inductive ETy where
  | b32 | i32 | uint32 | i16x2 | uint16x2 | i8x4 | uint8x4 | i4x8 | i64 | uint64
  | f32 | f64 | bf16x2 | f16x2 | f8ax4 | f8bx4 | w2px4 | sc12x2 | bin
  deriving DecidableEq, Repr

/-- Rounding modes (R39), codes 0 to 6. -/
inductive RMode where
  | rne | rtz | rdn | rup | rna | srnd | rodd
  deriving DecidableEq, Repr

/-- One event that a sync instruction, a host write or the device itself sends to a home: the object's
handle (R28), the party, generation and deadline or payload of the operand word (R297), a second operand
(`aux`: the lease of an acq, the CLOSE bit of a push, a region descriptor's second word, COUNT of a launch),
the issuing core (chip × 192 + physical number) and role, the launch that owns the core's domain (0: none), the
ticket of the landing that waits for the answer (0: none), and the tick of its registration. Of what the host sends also whether it came
on the function's IDE stream (R370, R401), and the bytes that it carries: a session's key record (R371), an SPDM request (R407). -/
structure HomeMsg where
  obj    : Nat
  party  : Nat
  gen    : Nat
  dl     : Nat
  aux    : Nat
  core   : Nat
  role   : Nat
  launch : Nat
  ticket : Nat
  ide    : Bool := true
  data   : List (BitVec 8) := []
  deriving DecidableEq, Repr

/-- Every row of the opcode table. The fields of a word are its raw unsigned field values, in the order in
which the table lists them; the fields of an event name what it happens to. The events that a home or a
virtual-device block serves have no fields: what they serve is the message the State holds (`Sys.msg`). The
constructors without fields stand last. -/
inductive Instr where
  /-- BACKEND_PUSH (R13). The front end reaches a back-end word, makes the push-point checks, stamps it and pushes it with its scalar operands into the role's issue queue. -/
  | backendPush (w : Nat)
  /-- ENTRY_ISSUE (R14). The back end issues a queued entry at exactly the TTC of its stamp and occupies its unit. -/
  | entryIssue (core role : Nat)
  /-- ROW_SAMPLE (R74). Row k of an issued instruction samples its sources and performs its per-row checks in its sample cycle. -/
  | rowSample (core role seq k stage : Nat)
  /-- ROW_LANDING (R24). Row k of an instruction's result, or a scalar or control-register result, lands at its fixed cycle. -/
  | rowLanding (core lid : Nat)
  /-- FRAME_BOUNDARY (R84). At each 4,096-cycle frame boundary the energy charge is cleared and each bank's idle count is compared with the floor. -/
  | frameBoundary (dom : Nat)
  /-- PREEMPTION_ARRIVAL (R89). A pre-emption request reaching a domain at tick g freezes it at F = g − TTBASE + 1 and enters role L's PREEMPT handler. -/
  | preemptionArrival (dom : Nat)
  /-- DOMAIN_RESUME (R89). At the resume tick G the launch unit sets TTBASE := G − F on every core and the domain runs again. -/
  | domainResume (dom : Nat)
  /-- HANDLER_BACKEND_COMPLETE (R91). A handler-mode back-end instruction completes all its landings and writes, letting the next one issue. -/
  | handlerBackendComplete (core role : Nat)
  /-- SCALAR_ACCESS_SERVICE (R115). A scalar scratchpad access is served in the first bank-cycle at which its banks are free of timetabled and transfer use. -/
  | scalarAccessService (core role : Nat)
  /-- TRANSFER_DELIVERY (R171). An admitted transfer completes its reads and writes in idle bank-cycles and becomes visible by XDUE with one status. -/
  | transferDelivery (core xid phase : Nat)
  /-- XINV_COMPLETE (R147). A stage-1 invalidation completes once no cache holds the old value and every access that used it has finished. -/
  | xinvComplete (core xid : Nat)
  /-- BARRIER_RESOLUTION (R282). At its deadline tick a barrier generation resolves: the absentee mask is fixed, shifted into ABS1 and GEN advances. -/
  | barrierResolution (h : Nat)
  /-- LOCK_RELEASE_EFFECT (R287). When the tick RELTICK is reached a releasing lock becomes FREE. -/
  | lockReleaseEffect (h : Nat)
  /-- QUEUE_ABANDONMENT (R290). The abandonment of a launch registers at a queue's home and frees every open entry that launch pushed. -/
  | queueAbandonment (h launch : Nat)
  /-- PROXY_BATCH_SEND (R334). A shadow sends a batch when it holds 8 entries or its oldest entry is 256 ticks old. -/
  | proxyBatchSend (chip h : Nat)
  /-- PROXY_BATCH_ARRIVAL (R334). A forwarded batch registers at the queue's home in one tick, each entry served as a push and refused entries counted. -/
  | proxyBatchArrival (chip h n : Nat)
  /-- LAUNCH_UNIT_SERVE (R310). The launch unit reaches a FIFO entry, reads descriptor and object list, checks them and writes records or refuses the launch. -/
  | launchUnitServe (vd : Nat)
  /-- LAUNCH_START (R65). At start tick S every role of the domain begins at TTC 0 with the launch state, after the power manager's admission. -/
  | launchStart (vd : Nat)
  /-- COUNTER_COMPLETION (R291). A contributor's completion registers at a counter, which may reach DONE, raise its MSI-X vector and report to its parent. -/
  | counterCompletion (h c : Nat)
  /-- COLL_RESOLUTION (R324). At its deadline a collective generation resolves and its walk starts at W0 with PDONE1 = W0 + SPAN. -/
  | collResolution (h : Nat)
  /-- COLL_WALK_DONE (R324). When every delivery of a collective walk is visible, STATE1 becomes DONE. -/
  | collWalkDone (h gen : Nat)
  /-- VD_SAVED (R365). When every frozen core's L has halted or withdrawn and all transfers and records are visible, the device becomes SAVED and its cores are cleared. -/
  | vdSaved (vd : Nat)
  /-- SAVE_DEADLINE_EXPIRY (R365). When tick g + SAVEDL passes without SAVED, SAVELATE becomes 1. -/
  | saveDeadlineExpiry (vd : Nat)
  /-- STOP_PUBLISH (R369). Once all issued writes are visible, STOPPED is set, then the dirty-page report is written and DPREADY set. -/
  | stopPublish (vd : Nat)
  /-- FLR (R352). A Function Level Reset of VF n resets virtual device n; of the PF, resets every virtual device in ascending VDID. -/
  | flr (fn : Nat)
  /-- VD_RESET_COMPLETE (R367). The reset sequence completes and the virtual device reads ABSENT with its RESULT. -/
  | vdResetComplete (vd : Nat)
  /-- S2FAULT_CLEAR (R349). Writing 1 to any bit of S2FAULT COUNT clears the whole count. -/
  | s2faultClear (vd v : Nat)
  /-- LOCK_INTERFACE_REQUEST (R370). The TDISP lock request moves a RUNNING function's TDI to CONFIG_LOCKED and fixes its configuration. -/
  | lockInterfaceRequest (fn : Nat)
  /-- STOP_INTERFACE_REQUEST (R370). The TDISP stop request on a TDI leads to RESET of its virtual device. -/
  | stopInterfaceRequest (fn : Nat)
  /-- EVSIZE_WRITE (R402). Writing EVSIZE sets the ring size or disables it and resets HEAD and TAIL to 0. -/
  | evsizeWrite (v : Nat)
  /-- EVTAIL_WRITE (R403). Writing EVTAIL records consumed records, ignored if outside HEAD − 2^LOG2 to HEAD. -/
  | evtailWrite (v : Nat)
  /-- EVLOST_CLEAR (R402). Writing 1 to any bit of EVLOST clears the whole lost count. -/
  | evlostClear (v : Nat)
  /-- EVVEC_WRITE (R402). Writing EVVEC sets the ring's MSI-X vector, ignoring values below 32. -/
  | evvecWrite (v : Nat)
  /-- THERM_WRITE (R402). Writing THERM sets TEMERG and TCRIT, ignored as a whole if TCRIT would be below TEMERG + 32. -/
  | thermWrite (v : Nat)
  /-- PALLOC_WRITE (R408). Writing PALLOC(n) sets a device's power allocation, ignored if the sum of allocations would exceed 1,500 W. -/
  | pallocWrite (n v : Nat)
  /-- REGISTER_WRITE (R6). A write to a register without behaviour of its own stores each field as its Access code gives. -/
  | registerWrite (fn off v : Nat)
  /-- S1ROOT_WRITE (R404). Writing S1ROOT sets the stage-1 root and invalidates every stage-1 translation of the virtual device. -/
  | s1rootWrite (fn v : Nat)
  /-- JOBPUSH (R405). Writing JOBPUSH makes a closing qpush by party 63 to the device's job queue after all earlier host writes are visible. -/
  | jobpush (fn v : Nat) (ep : Bool)
  /-- JOBSTAT_READ (R405). A read of JOBSTAT completes only after every earlier push of the function has registered. -/
  | jobstatRead (fn : Nat)
  /-- HOST_WRITE (R401). A host write through BAR4 is translated at stage 2 and stored encrypted, or discarded and counted in S2FAULT. -/
  | hostWrite (fn off : Nat) (data : List (BitVec 8)) (ep ide : Bool)
  /-- HOST_READ (R401). A host read through BAR4 is translated at stage 2 and returns data, Unsupported Request or EP-marked poison. -/
  | hostRead (fn off len : Nat) (ide : Bool)
  /-- SPDM_REQUEST (R407). An SPDM request on a DOE mailbox or over MCTP is answered with dual-signed responses and measurement blocks. -/
  | spdmRequest (fn : Nat)
  /-- MCTP_VENDOR_READ (R406). A vendor message of type 0x7E from the chassis controller reads management state, VDSTATUS or recent event records. -/
  | mctpVendorRead (kind off : Nat)
  /-- LANE_SPARE (R381). A failing data lane is replaced by the spare and the port retrains, stalling up to 32,000 ticks. -/
  | laneSpare (port lane stall : Nat)
  /-- PORT_DOWN (R382). A port that loses a lane with its spare in use goes down and its traffic moves to the reserved alternate path. -/
  | portDown (port stall : Nat)
  /-- LINK_RETRAINED (R383). A stalled link resumes and every promised tick of the affected traffic is extended by the stall. -/
  | linkRetrained (port : Nat)
  /-- HOST_LINK_RECOVERY (R384). The host link passes through LTSSM Recovery, stalling transfers to region 1 for at most 32,000 ticks. -/
  | hostLinkRecovery (stall : Nat)
  /-- PRESENCE_NOTICE (R385). A chassis presence signal reporting a blade absent declares its chip removed. -/
  | presenceNotice (chip : Nat)
  /-- PATH_DOWN_EXPIRY (R385). When every path to a chip has been down for 32,000 ticks, the chip is declared removed. -/
  | pathDownExpiry (chip : Nat)
  /-- HOST_REMOVAL (R389). A Surprise Down or over-long recovery removes the host: region-1 loads fill, writes discard, TDIs move to ERROR. -/
  | hostRemoval (cause : Nat)
  /-- THERMAL_EMERGENCY (R390). A sensor reading at or above TEMERG starts the thermal freeze of every running domain. -/
  | thermalEmergency (sensor temp : Nat)
  /-- THERMAL_CLEAR (R390). When every sensor reads 2 °C below TEMERG the thermal hold is removed. -/
  | thermalClear (sensor temp : Nat)
  /-- THERMAL_CRITICAL (R390). A reading at or above TCRIT resets every virtual device, clears READY and removes module power. -/
  | thermalCritical (sensor temp : Nat)
  /-- FUNCTION_READY (R392). A function finishes its self-test and sets its READY bit, usable from that tick. -/
  | functionReady (bit : Nat)
  /-- READY_LOST (R392). A READY bit that clears writes a READYLOST record and its function is treated as failed. -/
  | readyLost (bit : Nat)
  /-- MODE (R37). Sets the role's group mode and, for a nonzero DELTA, its pending delta. -/
  | mode (g p e r t : Nat)
  /-- ADD (R112). Scalar add. -/
  | add (d a b : Nat)
  /-- SUB (R112). Scalar subtract. -/
  | sub (d a b : Nat)
  /-- AND (R112). Scalar bitwise AND. -/
  | and (d a b : Nat)
  /-- OR (R112). Scalar bitwise OR. -/
  | or (d a b : Nat)
  /-- XOR (R112). Scalar bitwise XOR. -/
  | xor (d a b : Nat)
  /-- SLL (R112). Scalar shift left by s[sb] & 63. -/
  | sll (d a b : Nat)
  /-- SRL (R112). Scalar logical shift right. -/
  | srl (d a b : Nat)
  /-- SRA (R112). Scalar arithmetic shift right. -/
  | sra (d a b : Nat)
  /-- MUL (R112). Low 64 bits of the scalar product. -/
  | mul (d a b : Nat)
  /-- MULH (R112). High 64 bits of the signed 128-bit product. -/
  | mulh (d a b : Nat)
  /-- DIV (R112). Signed scalar quotient with defined results for zero and overflow. -/
  | div (d a b : Nat)
  /-- REM (R112). Signed scalar remainder. -/
  | rem (d a b : Nat)
  /-- SLT (R112). Signed set-less-than. -/
  | slt (d a b : Nat)
  /-- SLTU (R112). Unsigned set-less-than. -/
  | sltu (d a b : Nat)
  /-- MIN (R112). Signed scalar minimum. -/
  | min (d a b : Nat)
  /-- MAX (R112). Signed scalar maximum. -/
  | max (d a b : Nat)
  /-- CLZ (R112). Count leading zero bits. -/
  | clz (d a : Nat)
  /-- POPC (R112). Count one bits. -/
  | popc (d a : Nat)
  /-- ADDI (R113). Add a sign-extended immediate. -/
  | addi (d a i : Nat)
  /-- ANDI (R113). AND with a zero-extended immediate. -/
  | andi (d a i : Nat)
  /-- ORI (R113). OR with a zero-extended immediate. -/
  | ori (d a i : Nat)
  /-- XORI (R113). XOR with a zero-extended immediate. -/
  | xori (d a i : Nat)
  /-- SLLI (R113). Shift left by an immediate amount. -/
  | slli (d a i : Nat)
  /-- SRLI (R113). Logical shift right by an immediate amount. -/
  | srli (d a i : Nat)
  /-- SRAI (R113). Arithmetic shift right by an immediate amount. -/
  | srai (d a i : Nat)
  /-- SLTI (R113). Signed set-less-than immediate. -/
  | slti (d a i : Nat)
  /-- LUI (R113). Load sign-extended immediate shifted left by 15. -/
  | lui (d i : Nat)
  /-- PCREL (R113). Write the word's address plus four times the immediate. -/
  | pcrel (d i : Nat)
  /-- SLB (R114). Scalar sign-extending byte load from the scratchpad. -/
  | slb (d a o : Nat)
  /-- SLH (R114). Scalar halfword load from the scratchpad. -/
  | slh (d a o : Nat)
  /-- SLW (R114). Scalar word load from the scratchpad. -/
  | slw (d a o : Nat)
  /-- SLD (R114). Scalar doubleword load from the scratchpad. -/
  | sld (d a o : Nat)
  /-- SSB (R114). Scalar byte store to the scratchpad. -/
  | ssb (d a o : Nat)
  /-- SSH (R114). Scalar halfword store to the scratchpad. -/
  | ssh (d a o : Nat)
  /-- SSW (R114). Scalar word store to the scratchpad. -/
  | ssw (d a o : Nat)
  /-- SSD (R114). Scalar doubleword store to the scratchpad. -/
  | ssd (d a o : Nat)
  /-- BEQ (R117). Branch if s[sa] is zero. -/
  | beq (a o : Nat)
  /-- BNE (R117). Branch if s[sa] is nonzero. -/
  | bne (a o : Nat)
  /-- BLT (R117). Branch if s[sa] is negative. -/
  | blt (a o : Nat)
  /-- BGE (R117). Branch if s[sa] is non-negative. -/
  | bge (a o : Nat)
  /-- BLTU (R117). Branch if s[sa] < s[sa+1] unsigned. -/
  | bltu (a o : Nat)
  /-- BGEU (R117). Branch if s[sa] >= s[sa+1] unsigned. -/
  | bgeu (a o : Nat)
  /-- JAL (R118). Jump to a PC-relative target, linking to s31. -/
  | jal (o : Nat)
  /-- JALR (R118). Jump to a register-relative target, linking to sd. -/
  | jalr (d a i : Nat)
  /-- CSRR (R120). Read a control register. -/
  | csrr (d c : Nat)
  /-- CSRW (R120). Read and write a control register. -/
  | csrw (d a c : Nat)
  /-- CSRS (R120). Read a control register and set bits. -/
  | csrs (d a c : Nat)
  /-- CSRC (R120). Read a control register and clear bits. -/
  | csrc (d a c : Nat)
  /-- TRAP (R132). Raise a SOFT program trap with code s[sa]. -/
  | trap (a : Nat)
  /-- SVC (R132). Raise an SVC program trap with code s[sa]. -/
  | svc (a : Nat)
  /-- TTSYNC (R68). Align the role's next back-end issue to absolute TTC s[sa] + imm15. -/
  | ttsync (a i : Nat)
  /-- TTMARK (R69). Write the role's next stamp NS into s[sd]. -/
  | ttmark (d : Nat)
  /-- VSAVE (R134). Write the frozen core's save record at s[sa]. -/
  | vsave (a : Nat)
  /-- VRESTORE (R136). Check a save record and restore the core's state except queues and held landings. -/
  | vrestore (a : Nat)
  /-- REPLAY (R137). Reload the saved queues and held landings after vrestore. -/
  | replay (a : Nat)
  /-- VADD (R224). Element-wise integer add. -/
  | vadd (d a b : Nat)
  /-- VSUB (R224). Element-wise integer subtract. -/
  | vsub (d a b : Nat)
  /-- VMUL (R224). Element-wise low product. -/
  | vmul (d a b : Nat)
  /-- VMULH (R224). Element-wise high product. -/
  | vmulh (d a b : Nat)
  /-- VMACC (R224). Element-wise multiply-accumulate into vd. -/
  | vmacc (d a b : Nat)
  /-- VMIN (R224). Element-wise integer minimum. -/
  | vmin (d a b : Nat)
  /-- VMAX (R224). Element-wise integer maximum. -/
  | vmax (d a b : Nat)
  /-- VAND (R224). Element-wise AND. -/
  | vand (d a b : Nat)
  /-- VOR (R224). Element-wise OR. -/
  | vor (d a b : Nat)
  /-- VXOR (R224). Element-wise XOR. -/
  | vxor (d a b : Nat)
  /-- VSLL (R224). Element-wise shift left. -/
  | vsll (d a b : Nat)
  /-- VSRL (R224). Element-wise logical shift right. -/
  | vsrl (d a b : Nat)
  /-- VSRA (R224). Element-wise arithmetic shift right. -/
  | vsra (d a b : Nat)
  /-- VABS (R224). Element-wise absolute value. -/
  | vabs (d a : Nat)
  /-- VADDSAT (R224). Element-wise saturating add. -/
  | vaddsat (d a b : Nat)
  /-- VSUBSAT (R224). Element-wise saturating subtract. -/
  | vsubsat (d a b : Nat)
  /-- VCLZ (R224). Element-wise count leading zeros. -/
  | vclz (d a : Nat)
  /-- VPOPC (R224). Element-wise count of one bits. -/
  | vpopc (d a : Nat)
  /-- VCMPEQ (R225). Integer equality compare to mask. -/
  | vcmpeq (d a b : Nat)
  /-- VCMPNE (R225). Integer inequality compare to mask. -/
  | vcmpne (d a b : Nat)
  /-- VCMPLT (R225). Integer less-than compare to mask. -/
  | vcmplt (d a b : Nat)
  /-- VCMPLE (R225). Integer less-or-equal compare to mask. -/
  | vcmple (d a b : Nat)
  /-- MAND (R226). Mask AND. -/
  | mand (d a b : Nat)
  /-- MOR (R226). Mask OR. -/
  | mor (d a b : Nat)
  /-- MXOR (R226). Mask XOR. -/
  | mxor (d a b : Nat)
  /-- MNOT (R226). Mask complement. -/
  | mnot (d a : Nat)
  /-- MCOUNT (R227). Count active set mask bits into a scalar. -/
  | mcount (d a : Nat)
  /-- MFIRST (R227). Index of the first active set mask bit into a scalar. -/
  | mfirst (d a : Nat)
  /-- VBCAST (R228). Broadcast a scalar into active elements. -/
  | vbcast (d a : Nat)
  /-- VEXTRACT (R228). Extract one element into a scalar. -/
  | vextract (d a b : Nat)
  /-- VID (R228). Write each active element's index. -/
  | vid (d : Nat)
  /-- VSEL (R228). Select va where active and vb elsewhere. -/
  | vsel (d a b : Nat)
  /-- VPERM (R230). Permute va by the indices in vb. -/
  | vperm (d a b : Nat)
  /-- VCOMPRESS (R230). Pack active elements of va to the front of vd. -/
  | vcompress (d a : Nat)
  /-- VEXPAND (R230). Spread leading elements of va to active positions of vd. -/
  | vexpand (d a : Nat)
  /-- VSLIDEUP (R229). Slide elements up by an immediate amount. -/
  | vslideup (d a i : Nat)
  /-- VSLIDEDN (R229). Slide elements down by an immediate amount. -/
  | vslidedn (d a i : Nat)
  /-- VREDSUM_O (R232). Ordered sum reduction of active elements. -/
  | vredsumO (d a : Nat)
  /-- VREDSUM_U (R232). Unordered per-lane-then-tree sum reduction. -/
  | vredsumU (d a : Nat)
  /-- VREDMIN (R233). Minimum reduction. -/
  | vredmin (d a : Nat)
  /-- VREDMAX (R233). Maximum reduction. -/
  | vredmax (d a : Nat)
  /-- VREDMINIDX (R233). Minimum reduction with lowest index. -/
  | vredminidx (d a : Nat)
  /-- VREDMAXIDX (R233). Maximum reduction with lowest index. -/
  | vredmaxidx (d a : Nat)
  /-- VSCAN_O (R232). Ordered inclusive prefix sum. -/
  | vscanO (d a : Nat)
  /-- VSCAN_F (R232). Free per-row prefix sum with row carries. -/
  | vscanF (d a : Nat)
  /-- VGRANT (R235). Take the next strip-task grant, landing VL, STRIPBASE and the updated task pair. -/
  | vgrant (d a : Nat)
  /-- VFADD (R237). FP add. -/
  | vfadd (d a b : Nat)
  /-- VFSUB (R237). FP subtract. -/
  | vfsub (d a b : Nat)
  /-- VFMUL (R237). FP multiply. -/
  | vfmul (d a b : Nat)
  /-- VFMA (R237). Fused multiply-add into vd. -/
  | vfma (d a b : Nat)
  /-- VFNMA (R237). Fused negated multiply-add into vd. -/
  | vfnma (d a b : Nat)
  /-- VFMIN (R237). FP minimum. -/
  | vfmin (d a b : Nat)
  /-- VFMAX (R237). FP maximum. -/
  | vfmax (d a b : Nat)
  /-- VFDIV (R237). FP divide. -/
  | vfdiv (d a b : Nat)
  /-- VFSQRT (R237). FP square root. -/
  | vfsqrt (d a : Nat)
  /-- VFEXP2 (R237). FP base-2 exponential. -/
  | vfexp2 (d a : Nat)
  /-- VFLOG2 (R237). FP base-2 logarithm. -/
  | vflog2 (d a : Nat)
  /-- VFABS (R237). Clear the sign bit. -/
  | vfabs (d a : Nat)
  /-- VFNEG (R237). Invert the sign bit. -/
  | vfneg (d a : Nat)
  /-- VFCMPEQ (R239). FP equality compare to mask. -/
  | vfcmpeq (d a b : Nat)
  /-- VFCMPLT (R239). FP less-than compare to mask. -/
  | vfcmplt (d a b : Nat)
  /-- VFCMPLE (R239). FP less-or-equal compare to mask. -/
  | vfcmple (d a b : Nat)
  /-- VFCMPUN (R239). FP unordered compare to mask. -/
  | vfcmpun (d a b : Nat)
  /-- VCVT (R241). Convert from the source type to the group-mode type under RM. -/
  | vcvt (d a s : Nat)
  /-- VCVTSR (R241). Convert with stochastic rounding. -/
  | vcvtsr (d a s : Nat)
  /-- VPACK (R242). Convert and pack m registers into one denser register. -/
  | vpack (d a b s : Nat)
  /-- VUNPACK (R242). Convert and unpack one register into m registers. -/
  | vunpack (d a s : Nat)
  /-- VSCACC (R243). Apply two block scales to a partial and accumulate in f32. -/
  | vscacc (d a b : Nat)
  /-- VSCEXT (R244). Derive dequantisation and quantisation scales from a block maximum. -/
  | vscext (d a b : Nat)
  /-- VSCSET (R245). Multiply by a quantisation multiplier. -/
  | vscset (d a b : Nat)
  /-- VBINADD (R246). Add FP values exactly into binned accumulator records. -/
  | vbinadd (d a b : Nat)
  /-- VBINFOLD (R246). Fold binned accumulator records to f64. -/
  | vbinfold (d a b : Nat)
  /-- VBINMERGE (R246). Merge two groups of binned accumulator records. -/
  | vbinmerge (d a b : Nat)
  /-- VW2PMUL (R247). Exact dot product of 8-bit activations with W2P weights. -/
  | vw2pmul (d a b : Nat)
  /-- MMAB_O (R262). Ordered block or BF16/FP16 matrix product into a tile pair or f32 tile. -/
  | mmabO (d a b : Nat)
  /-- MMAB_F (R263). Free-order block or BF16/FP16 matrix product. -/
  | mmabF (d a b : Nat)
  /-- MMAD (R265). Split-precision FP64 matrix product into an f64 pair. -/
  | mmad (d a b : Nat)
  /-- MTBL (R266). Build a lookup table of signed activation sums in a slot. -/
  | mtbl (a b : Nat)
  /-- MMAL (R267). Table-lookup product with 1- or 2-bit weight planes into an i32 tile. -/
  | mmal (d a b : Nat)
  /-- XSCACC (R264). Apply row and column scales to block partials and accumulate in f32. -/
  | xscacc (d a b x : Nat)
  /-- OCLAIM (R255). Mark an operand slot claimed. -/
  | oclaim (a : Nat)
  /-- ORELEASE (R255). Mark an operand slot free. -/
  | orelease (a : Nat)
  /-- OLOAD (R256). Copy vectors from the scratchpad into a claimed operand slot. -/
  | oload (a s : Nat)
  /-- ACLEAR (R268). Land zero in every row of a tile. -/
  | aclear (d : Nat)
  /-- ALOAD (R268). Load M tile rows from the scratchpad. -/
  | aload (d s : Nat)
  /-- ASTORE (R268). Store M tile rows to the scratchpad. -/
  | astore (d s : Nat)
  /-- TSHAPE (R251). Grant a matrix tile shape into TSM, TSN, TSK and s[sd]. -/
  | tshape (d a : Nat)
  /-- VLD (R157). Contiguous vector load from the scratchpad. -/
  | vld (d a i : Nat)
  /-- VST (R157). Contiguous vector store to the scratchpad. -/
  | vst (d a i : Nat)
  /-- VLDS (R157). Strided vector load. -/
  | vlds (d a b : Nat)
  /-- VSTS (R157). Strided vector store. -/
  | vsts (d a b : Nat)
  /-- VLDT (R158). Tag-checked vector load. -/
  | vldt (d a b : Nat)
  /-- VLDF (R160). Flagging vector load that moves residency flags into a mask. -/
  | vldf (d a b : Nat)
  /-- VGATH (R161). Indexed gather from the scratchpad. -/
  | vgath (d a b : Nat)
  /-- VSCAT (R161). Indexed scatter to the scratchpad. -/
  | vscat (d a b : Nat)
  /-- VSCADD (R162). Indexed scatter-add with in-row merging. -/
  | vscadd (d a b : Nat)
  /-- VSCADD_BIN (R161). Indexed exact add into binned accumulator records. -/
  | vscaddBin (d a b : Nat)
  /-- VAMO (R163). Indexed atomic read-modify-write returning old values. -/
  | vamo (d a b o : Nat)
  /-- MLD (R164). Load a mask register from the scratchpad. -/
  | mld (d a : Nat)
  /-- MST (R164). Store a mask register to the scratchpad. -/
  | mst (d a : Nat)
  /-- VBIND (R166). Bind a vector register to a stream pattern. -/
  | vbind (d a : Nat)
  /-- VUNBIND (R166). End a stream binding and write back the cursor. -/
  | vunbind (d : Nat)
  /-- XGO (R170). Admit or decline a transfer described by the carried shadow set, landing its ID and XDUE. -/
  | xgo (d a : Nat)
  /-- XDRAIN (R175). Report missing transfers per channel or take the oldest error record. -/
  | xdrain (d a b : Nat)
  /-- XTAG (R174). Set a slot tag or a ring register's expected tag and return the previous value. -/
  | xtag (d a : Nat)
  /-- PGREQ (R176). Post page-request records for the non-resident granules of a strided range. -/
  | pgreq (d a b : Nat)
  /-- XINV (R176). Invalidate stage-1 translations of a range as an entry on a channel. -/
  | xinv (a b : Nat)
  /-- XFENCE (R177). Order this core's accesses between the named timed and asynchronous classes. -/
  | xfence (f t : Nat)
  /-- ARRIVE (R302). Send a party's arrival for a barrier generation and deadline. -/
  | arrive (d o l : Nat)
  /-- BWAIT (R302). Ask a barrier for a generation's outcome at or after its deadline. -/
  | bwait (d o l : Nat)
  /-- BARSHED (R302). Shed a resolved generation's absentees from the barrier. -/
  | barshed (d o l : Nat)
  /-- BARJOIN (R302). Join a party to the barrier's expected set. -/
  | barjoin (d o l : Nat)
  /-- ACQ (R303). Try to acquire or renew a lock by its deadline. -/
  | acq (d o l : Nat)
  /-- ACQ_M (R303). Acquire a lock, mending it if the holder's lease expired. -/
  | acqM (d o l : Nat)
  /-- REL (R303). Release a held lock. -/
  | rel (o : Nat)
  /-- BIND (R304). Bind a memory region to a lock or barrier's region table. -/
  | bind (o l : Nat)
  /-- QPUSH (R305). Push an open or closing 8-byte entry to a queue. -/
  | qpush (d o l : Nat)
  /-- QRECV (R306). Receive one committed entry from a queue. -/
  | qrecv (d o l : Nat)
  /-- QPROXY (R307). Push an entry through the local proxy shadow of a queue. -/
  | qproxy (d o l : Nat)
  /-- LAUNCH (R308). Ask the launch unit to queue a launch over a range of cores. -/
  | launch (d o l : Nat)
  /-- CWAIT (R312). Read a completion counter at or after a deadline. -/
  | cwait (d o l : Nat)
  /-- CANCEL (R313). Cancel the level whose counter is named. -/
  | cancel (d o : Nat)
  /-- SFENCE (R314). Order every class of this core's accesses at a scope, faulting if not yet satisfiable. -/
  | sfence (s : Nat)
  /-- COLL (R331). Contribute a party to a collective generation with its deadline. -/
  | coll (d o l : Nat)
  /-- COLLWAIT (R331). Ask for a collective generation's outcome at or after a deadline. -/
  | collwait (d o l : Nat)
  /-- COLLABORT (R331). Abort the running walk of a collective handle. -/
  | collabort (d o : Nat)
  /-- DECODE_ILLEGAL_ENCODING (R57). The front end reaches a front-end word that is an illegal encoding, such as OP 0x00, and raises the illegal-instruction trap at decode. -/
  | decodeIllegalEncoding (w : Nat)
  /-- STAGE2_INVALIDATION_COMPLETE (R147). A stage-2 invalidation requested by INVAL2 completes, clearing BUSY with its RESULT and raising the PF MSI-X vector. -/
  | stage2InvalidationComplete (vd : Nat)
  /-- START_INTERFACE_REQUEST (R370). The TDISP start request moves a CONFIG_LOCKED TDI to RUN, after which host traffic must travel on its IDE stream. -/
  | startInterfaceRequest (fn : Nat)
  /-- CHIP_TABLE_WRITE (R351). The fabric manager writes the job's chip table into a chip's Tulle, fixing which Tulle objects of other chips are allocated to virtual device n. -/
  | chipTableWrite (vd : Nat) (table : List (Nat × Nat × Nat))
  /-- GTC_TICK (R65). One tick of the global tick counter advances GTC and, for every running domain, its TTC. -/
  | gtcTick
  /-- HOME_ARRIVE (R283). The home serves a registered arrive, counting the party present, setting the deadline or answering LATE, AHEAD, STALE or MISMATCH. -/
  | homeArrive
  /-- HOME_BWAIT (R283). The home serves a bwait for a generation, answering with the agreed absentee mask and status. -/
  | homeBwait
  /-- HOME_BARSHED (R285). The home removes from EXPECT the absentees of a resolved generation that have not yet arrived in the open one. -/
  | homeBarshed
  /-- HOME_BARJOIN (R283). The home adds the party to the barrier's EXPECT set. -/
  | homeBarjoin
  /-- HOME_ACQ (R287). The home serves an acquisition, granting, renewing, refusing BUSY or mending an expired lock. -/
  | homeAcq
  /-- HOME_REL (R287). The home takes a release from the holder into RELEASING with the effect tick of its covered writes, or ignores a foreign rel. -/
  | homeRel
  /-- HOME_BIND (R304). The home replaces an entry of the object's region table and updates NREG. -/
  | homeBind
  /-- HOME_QPUSH (R290). The home stores a pushed entry open, or commits it with the producer's open entries, or answers FULL or NOTMEMBER. -/
  | homeQpush
  /-- HOME_QRECV (R290). The home returns and frees the oldest committed entry, or answers EMPTY with the silent producers. -/
  | homeQrecv
  /-- SHADOW_QPROXY (R307). The forwarding engine accepts a proxy push into its shadow with a promised tick, or answers FULL. -/
  | shadowQproxy
  /-- HOME_LAUNCH (R308). The launch unit queues a launch with the next sequence number and initialises its counter, or answers FULL. -/
  | homeLaunch
  /-- HOME_CWAIT (R312). The home answers a counter read with PENDMAP, COUNT and its state. -/
  | homeCwait
  /-- HOME_CANCEL (R313). The home cancels a running level, ending its launches at the next element-group boundary and cancelling queued launches and counters. -/
  | homeCancel
  /-- HOME_COLL (R332). The collective home serves a coll as an arrival, counting the party or answering LATE, MISMATCH, AHEAD or STALE. -/
  | homeColl
  /-- HOME_COLLWAIT (R332). The collective home answers a collwait with OK, PENDING, ABSENT, CANCELLED or another status and the absentee mask. -/
  | homeCollwait
  /-- HOME_COLLABORT (R333). The collective home aborts a running walk, stopping each walker before its next innermost iteration. -/
  | homeCollabort
  /-- PROVISION (R353). VDCTL request 1 reads and checks the provisioning descriptor and, if valid, creates the virtual device with a fresh key. -/
  | provision
  /-- PREEMPT (R364). VDCTL request 2 sends a pre-emption to every running domain and the control core of the virtual device within 64 ticks. -/
  | preempt
  /-- RESTORE (R366). VDCTL request 3 takes the named cores and rebuilds every saved domain frozen at F with role L in its PREEMPT handler. -/
  | restore
  /-- STOP (R368). VDCTL request 4 holds every domain and the control core frozen and publishes the stop and the dirty-page report. -/
  | stop
  /-- CONTINUE (R368). VDCTL request 5 removes the stop hold and returns the device to its previous state. -/
  | continueReq
  /-- RESET (R367). VDCTL request 6 ends every domain at the next element-group boundary, retires keys, frees objects, clears cores and makes the device ABSENT. -/
  | resetReq
  /-- INVAL2 (R147). VDCTL request 7 invalidates stage-2 translations for a range of intermediate granules. -/
  | inval2
  /-- KEYLOAD_RETIRE (R360). A KEYLOAD record of kind RETIRE makes a pool slot EMPTY, poisons its lines and frees a window's object. -/
  | keyloadRetire
  /-- KEYLOAD_WINDOW (R360). A KEYLOAD record of kind WINDOW generates a window key and writes the window object for all participants. -/
  | keyloadWindow
  /-- KEYLOAD_IMPORT (R360). A KEYLOAD record of kind IMPORT loads an AES key, stream ID and next counter into a pool slot. -/
  | keyloadImport
  /-- APERTURE (R357). VDCTL request 9 programs or invalidates a fabric aperture to a remote chip's physical range. -/
  | aperture
  /-- STAGE (R396). FWCTL request 1 copies a firmware image into the inactive slot and checks header, signatures, digest, SVN and handover version. -/
  | stage
  /-- ACTIVATE (R397). FWCTL request 2 moves a staged update into QUIESCING. -/
  | activate
  /-- ABORT (R397). FWCTL request 3 abandons a staged image and marks the inactive slot empty. -/
  | abort
  /-- QUIESCE_COMPLETE (R397). When the current request and FIFO entry are complete, the active image writes the handover structure and stops. -/
  | quiesceComplete
  /-- QUIESCE_TIMEOUT (R397). If 1,600,000 ticks pass in QUIESCING, the update returns to IDLE with RESULT 8. -/
  | quiesceTimeout
  /-- NEW_IMAGE_START (R397). The new firmware image starts, reads the handover structure and enters PROBATION. -/
  | newImageStart
  /-- FIRST_HEARTBEAT (R395). An image's first heartbeat sets READY.FIRMWARE at power-on or ends PROBATION, flipping ACTIVE. -/
  | firstHeartbeat
  /-- PROBATION_TIMEOUT (R397). No heartbeat within 160,000,000 ticks of HANDOVER moves the update to ROLLBACK with RESULT 7. -/
  | probationTimeout
  /-- ROLLBACK_RESTART (R397). The old image restarts from the unchanged handover structure and the update returns to IDLE. -/
  | rollbackRestart
  /-- POWER_ON (R391). When the rails come up each function runs its self-test and clears its state, READY reading zero. -/
  | powerOn
  /-- TRET (R129). Leave handler mode, restoring set-aside state and removing the role's cause. -/
  | tret
  /-- HALT (R130). Stop the role's front end, or end the launch FAULTED or report a save in a handler. -/
  | halt
  /-- POWER_LOSS (R397). The module loses input power, and on the next power-on the firmware boots the old or new slot according to whether ACTIVE had flipped. -/
  | powerLoss
  deriving DecidableEq, Repr

end Sys2Proof
end

