-- ==== Sys2Proof/WellFormed.lean ====
section
/-! DEFINITION. Which instructions are encodings of the manual (R34, R35, R43 to R56): every field fits its
bits, every register field lies in its register file, a mask destination is not m0, an operand that must be
even whatever the mode is even, and no operation field holds an unassigned value. For an event: its operands
name something that can exist. -/

namespace Sys2Proof

/-- The control-register numbers that R123 assigns. -/
def csrAssigned (c : Nat) : Bool :=
  decide (c < 10) || (decide (16 ≤ c) && decide (c < 24)) || (decide (32 ≤ c) && decide (c < 35)) ||
  (decide (64 ≤ c) && decide (c < 74)) || (decide (96 ≤ c) && decide (c < 99))

/-- An instruction is an encoding of the manual; an event names roles and stages that exist. -/
def wf : Instr → Bool
  | .backendPush w => decide (w < 4294967296)
  | .entryIssue _ role => decide (role < 3)
  | .rowSample _ role _ _ stage => decide (role < 3) && decide (stage < 2)
  | .rowLanding _ _ => true
  | .frameBoundary _ => true
  | .preemptionArrival _ => true
  | .domainResume _ => true
  | .handlerBackendComplete _ role => decide (role < 3)
  | .scalarAccessService _ role => decide (role < 3)
  | .transferDelivery _ _ phase => decide (phase < 5)
  | .xinvComplete _ _ => true
  | .barrierResolution _ => true
  | .lockReleaseEffect _ => true
  | .queueAbandonment _ _ => true
  | .proxyBatchSend _ _ => true
  | .proxyBatchArrival _ _ _ => true
  | .launchUnitServe _ => true
  | .launchStart _ => true
  | .counterCompletion _ _ => true
  | .collResolution _ => true
  | .collWalkDone _ _ => true
  | .vdSaved _ => true
  | .saveDeadlineExpiry _ => true
  | .stopPublish _ => true
  | .flr _ => true
  | .vdResetComplete _ => true
  | .s2faultClear _ _ => true
  | .lockInterfaceRequest _ => true
  | .stopInterfaceRequest _ => true
  | .evsizeWrite _ => true
  | .evtailWrite _ => true
  | .evlostClear _ => true
  | .evvecWrite _ => true
  | .thermWrite _ => true
  | .pallocWrite _ _ => true
  | .registerWrite _ _ _ => true
  | .s1rootWrite _ _ => true
  | .jobpush _ _ _ => true
  | .jobstatRead _ => true
  | .hostWrite _ _ _ _ _ => true
  | .hostRead _ _ _ _ => true
  | .spdmRequest _ => true
  | .mctpVendorRead _ _ => true
  | .laneSpare _ _ _ => true
  | .portDown _ _ => true
  | .linkRetrained _ => true
  | .hostLinkRecovery _ => true
  | .presenceNotice _ => true
  | .pathDownExpiry _ => true
  | .hostRemoval _ => true
  | .thermalEmergency _ _ => true
  | .thermalClear _ _ => true
  | .thermalCritical _ _ => true
  | .functionReady _ => true
  | .readyLost _ => true
  | .mode g p e r t => decide (g < 8) && decide (p < 2) && decide (e < 32) && decide (r < 8) && decide (t < 8192) && decide (e < 19) && decide (r < 7)
  | .add d a b => decide (d < 32) && decide (a < 32) && decide (b < 32)
  | .sub d a b => decide (d < 32) && decide (a < 32) && decide (b < 32)
  | .and d a b => decide (d < 32) && decide (a < 32) && decide (b < 32)
  | .or d a b => decide (d < 32) && decide (a < 32) && decide (b < 32)
  | .xor d a b => decide (d < 32) && decide (a < 32) && decide (b < 32)
  | .sll d a b => decide (d < 32) && decide (a < 32) && decide (b < 32)
  | .srl d a b => decide (d < 32) && decide (a < 32) && decide (b < 32)
  | .sra d a b => decide (d < 32) && decide (a < 32) && decide (b < 32)
  | .mul d a b => decide (d < 32) && decide (a < 32) && decide (b < 32)
  | .mulh d a b => decide (d < 32) && decide (a < 32) && decide (b < 32)
  | .div d a b => decide (d < 32) && decide (a < 32) && decide (b < 32)
  | .rem d a b => decide (d < 32) && decide (a < 32) && decide (b < 32)
  | .slt d a b => decide (d < 32) && decide (a < 32) && decide (b < 32)
  | .sltu d a b => decide (d < 32) && decide (a < 32) && decide (b < 32)
  | .min d a b => decide (d < 32) && decide (a < 32) && decide (b < 32)
  | .max d a b => decide (d < 32) && decide (a < 32) && decide (b < 32)
  | .clz d a => decide (d < 32) && decide (a < 32)
  | .popc d a => decide (d < 32) && decide (a < 32)
  | .addi d a i => decide (d < 32) && decide (a < 32) && decide (i < 32768)
  | .andi d a i => decide (d < 32) && decide (a < 32) && decide (i < 32768)
  | .ori d a i => decide (d < 32) && decide (a < 32) && decide (i < 32768)
  | .xori d a i => decide (d < 32) && decide (a < 32) && decide (i < 32768)
  | .slli d a i => decide (d < 32) && decide (a < 32) && decide (i < 64)
  | .srli d a i => decide (d < 32) && decide (a < 32) && decide (i < 64)
  | .srai d a i => decide (d < 32) && decide (a < 32) && decide (i < 64)
  | .slti d a i => decide (d < 32) && decide (a < 32) && decide (i < 32768)
  | .lui d i => decide (d < 32) && decide (i < 32768)
  | .pcrel d i => decide (d < 32) && decide (i < 32768)
  | .slb d a o => decide (d < 32) && decide (a < 32) && decide (o < 8192)
  | .slh d a o => decide (d < 32) && decide (a < 32) && decide (o < 8192)
  | .slw d a o => decide (d < 32) && decide (a < 32) && decide (o < 8192)
  | .sld d a o => decide (d < 32) && decide (a < 32) && decide (o < 8192)
  | .ssb d a o => decide (d < 32) && decide (a < 32) && decide (o < 8192)
  | .ssh d a o => decide (d < 32) && decide (a < 32) && decide (o < 8192)
  | .ssw d a o => decide (d < 32) && decide (a < 32) && decide (o < 8192)
  | .ssd d a o => decide (d < 32) && decide (a < 32) && decide (o < 8192)
  | .beq a o => decide (a < 32) && decide (o < 131072)
  | .bne a o => decide (a < 32) && decide (o < 131072)
  | .blt a o => decide (a < 32) && decide (o < 131072)
  | .bge a o => decide (a < 32) && decide (o < 131072)
  | .bltu a o => decide (a < 32) && decide (a % 2 = 0) && decide (o < 131072)
  | .bgeu a o => decide (a < 32) && decide (a % 2 = 0) && decide (o < 131072)
  | .jal o => decide (o < 131072)
  | .jalr d a i => decide (d < 32) && decide (a < 32) && decide (i < 32768)
  | .csrr d c => decide (d < 32) && decide (c < 32768) && csrAssigned c
  | .csrw d a c => decide (d < 32) && decide (a < 32) && decide (c < 32768) && csrAssigned c
  | .csrs d a c => decide (d < 32) && decide (a < 32) && decide (c < 32768) && csrAssigned c
  | .csrc d a c => decide (d < 32) && decide (a < 32) && decide (c < 32768) && csrAssigned c
  | .trap a => decide (a < 32)
  | .svc a => decide (a < 32)
  | .ttsync a i => decide (a < 32) && decide (i < 32768)
  | .ttmark d => decide (d < 32)
  | .vsave a => decide (a < 32)
  | .vrestore a => decide (a < 32)
  | .replay a => decide (a < 32)
  | .vadd d a b => decide (d < 64) && decide (a < 64) && decide (b < 64)
  | .vsub d a b => decide (d < 64) && decide (a < 64) && decide (b < 64)
  | .vmul d a b => decide (d < 64) && decide (a < 64) && decide (b < 64)
  | .vmulh d a b => decide (d < 64) && decide (a < 64) && decide (b < 64)
  | .vmacc d a b => decide (d < 64) && decide (a < 64) && decide (b < 64)
  | .vmin d a b => decide (d < 64) && decide (a < 64) && decide (b < 64)
  | .vmax d a b => decide (d < 64) && decide (a < 64) && decide (b < 64)
  | .vand d a b => decide (d < 64) && decide (a < 64) && decide (b < 64)
  | .vor d a b => decide (d < 64) && decide (a < 64) && decide (b < 64)
  | .vxor d a b => decide (d < 64) && decide (a < 64) && decide (b < 64)
  | .vsll d a b => decide (d < 64) && decide (a < 64) && decide (b < 64)
  | .vsrl d a b => decide (d < 64) && decide (a < 64) && decide (b < 64)
  | .vsra d a b => decide (d < 64) && decide (a < 64) && decide (b < 64)
  | .vabs d a => decide (d < 64) && decide (a < 64)
  | .vaddsat d a b => decide (d < 64) && decide (a < 64) && decide (b < 64)
  | .vsubsat d a b => decide (d < 64) && decide (a < 64) && decide (b < 64)
  | .vclz d a => decide (d < 64) && decide (a < 64)
  | .vpopc d a => decide (d < 64) && decide (a < 64)
  | .vcmpeq d a b => decide (d < 16) && decide (d ≠ 0) && decide (a < 64) && decide (b < 64)
  | .vcmpne d a b => decide (d < 16) && decide (d ≠ 0) && decide (a < 64) && decide (b < 64)
  | .vcmplt d a b => decide (d < 16) && decide (d ≠ 0) && decide (a < 64) && decide (b < 64)
  | .vcmple d a b => decide (d < 16) && decide (d ≠ 0) && decide (a < 64) && decide (b < 64)
  | .mand d a b => decide (d < 16) && decide (d ≠ 0) && decide (a < 16) && decide (b < 16)
  | .mor d a b => decide (d < 16) && decide (d ≠ 0) && decide (a < 16) && decide (b < 16)
  | .mxor d a b => decide (d < 16) && decide (d ≠ 0) && decide (a < 16) && decide (b < 16)
  | .mnot d a => decide (d < 16) && decide (d ≠ 0) && decide (a < 16)
  | .mcount d a => decide (d < 32) && decide (a < 16)
  | .mfirst d a => decide (d < 32) && decide (a < 16)
  | .vbcast d a => decide (d < 64) && decide (a < 32)
  | .vextract d a b => decide (d < 32) && decide (a < 64) && decide (b < 32)
  | .vid d => decide (d < 64)
  | .vsel d a b => decide (d < 64) && decide (a < 64) && decide (b < 64)
  | .vperm d a b => decide (d < 64) && decide (a < 64) && decide (b < 64)
  | .vcompress d a => decide (d < 64) && decide (a < 64)
  | .vexpand d a => decide (d < 64) && decide (a < 64)
  | .vslideup d a i => decide (d < 64) && decide (a < 64) && decide (i < 8192)
  | .vslidedn d a i => decide (d < 64) && decide (a < 64) && decide (i < 8192)
  | .vredsumO d a => decide (d < 64) && decide (a < 64)
  | .vredsumU d a => decide (d < 64) && decide (a < 64)
  | .vredmin d a => decide (d < 64) && decide (a < 64)
  | .vredmax d a => decide (d < 64) && decide (a < 64)
  | .vredminidx d a => decide (d < 64) && decide (d % 2 = 0) && decide (a < 64)
  | .vredmaxidx d a => decide (d < 64) && decide (d % 2 = 0) && decide (a < 64)
  | .vscanO d a => decide (d < 64) && decide (a < 64)
  | .vscanF d a => decide (d < 64) && decide (a < 64)
  | .vgrant d a => decide (d < 32) && decide (d % 2 = 0) && decide (a < 32) && decide (a % 2 = 0)
  | .vfadd d a b => decide (d < 64) && decide (a < 64) && decide (b < 64)
  | .vfsub d a b => decide (d < 64) && decide (a < 64) && decide (b < 64)
  | .vfmul d a b => decide (d < 64) && decide (a < 64) && decide (b < 64)
  | .vfma d a b => decide (d < 64) && decide (a < 64) && decide (b < 64)
  | .vfnma d a b => decide (d < 64) && decide (a < 64) && decide (b < 64)
  | .vfmin d a b => decide (d < 64) && decide (a < 64) && decide (b < 64)
  | .vfmax d a b => decide (d < 64) && decide (a < 64) && decide (b < 64)
  | .vfdiv d a b => decide (d < 64) && decide (a < 64) && decide (b < 64)
  | .vfsqrt d a => decide (d < 64) && decide (a < 64)
  | .vfexp2 d a => decide (d < 64) && decide (a < 64)
  | .vflog2 d a => decide (d < 64) && decide (a < 64)
  | .vfabs d a => decide (d < 64) && decide (a < 64)
  | .vfneg d a => decide (d < 64) && decide (a < 64)
  | .vfcmpeq d a b => decide (d < 16) && decide (d ≠ 0) && decide (a < 64) && decide (b < 64)
  | .vfcmplt d a b => decide (d < 16) && decide (d ≠ 0) && decide (a < 64) && decide (b < 64)
  | .vfcmple d a b => decide (d < 16) && decide (d ≠ 0) && decide (a < 64) && decide (b < 64)
  | .vfcmpun d a b => decide (d < 16) && decide (d ≠ 0) && decide (a < 64) && decide (b < 64)
  | .vcvt d a s => decide (d < 64) && decide (a < 64) && decide (s < 32) && decide (s < 19)
  | .vcvtsr d a s => decide (d < 64) && decide (a < 64) && decide (s < 32) && decide (s < 19)
  | .vpack d a b s => decide (d < 64) && decide (a < 64) && decide (b < 64) && decide (s < 32) && decide (s < 19)
  | .vunpack d a s => decide (d < 64) && decide (a < 64) && decide (s < 32) && decide (s < 19)
  | .vscacc d a b => decide (d < 64) && decide (a < 64) && decide (b < 64)
  | .vscext d a b => decide (d < 64) && decide (a < 64) && decide (b < 64)
  | .vscset d a b => decide (d < 64) && decide (a < 64) && decide (b < 64)
  | .vbinadd d a b => decide (d < 64) && decide (a < 64) && decide (b < 64)
  | .vbinfold d a b => decide (d < 64) && decide (a < 64) && decide (b < 64)
  | .vbinmerge d a b => decide (d < 64) && decide (a < 64) && decide (b < 64)
  | .vw2pmul d a b => decide (d < 64) && decide (a < 64) && decide (b < 64)
  | .mmabO d a b => decide (d < 8) && decide (a < 16) && decide (b < 16)
  | .mmabF d a b => decide (d < 8) && decide (a < 16) && decide (b < 16)
  | .mmad d a b => decide (d < 8) && decide (a < 16) && decide (b < 16)
  | .mtbl a b => decide (a < 16) && decide (b < 16)
  | .mmal d a b => decide (d < 8) && decide (a < 16) && decide (b < 16)
  | .xscacc d a b x => decide (d < 8) && decide (a < 16) && decide (b < 16) && decide (x < 8)
  | .oclaim a => decide (a < 16)
  | .orelease a => decide (a < 16)
  | .oload a s => decide (a < 16) && decide (s < 32)
  | .aclear d => decide (d < 8)
  | .aload d s => decide (d < 8) && decide (s < 32)
  | .astore d s => decide (d < 8) && decide (s < 32)
  | .tshape d a => decide (d < 32) && decide (a < 32)
  | .vld d a i => decide (d < 64) && decide (a < 32) && decide (i < 8192)
  | .vst d a i => decide (d < 64) && decide (a < 32) && decide (i < 8192)
  | .vlds d a b => decide (d < 64) && decide (a < 32) && decide (b < 32)
  | .vsts d a b => decide (d < 64) && decide (a < 32) && decide (b < 32)
  | .vldt d a b => decide (d < 64) && decide (a < 32) && decide (b < 32)
  | .vldf d a b => decide (d < 64) && decide (a < 32) && decide (b < 16) && decide (b ≠ 0)
  | .vgath d a b => decide (d < 64) && decide (a < 32) && decide (b < 64)
  | .vscat d a b => decide (d < 64) && decide (a < 32) && decide (b < 64)
  | .vscadd d a b => decide (d < 64) && decide (a < 32) && decide (b < 64)
  | .vscaddBin d a b => decide (d < 64) && decide (a < 32) && decide (b < 64)
  | .vamo d a b o => decide (d < 64) && decide (a < 32) && decide (b < 64) && decide (o < 8) && decide (o < 7)
  | .mld d a => decide (d < 16) && decide (d ≠ 0) && decide (a < 32)
  | .mst d a => decide (d < 16) && decide (a < 32)
  | .vbind d a => decide (d < 64) && decide (a < 32)
  | .vunbind d => decide (d < 64)
  | .xgo d a => decide (d < 32) && decide (a < 32)
  | .xdrain d a b => decide (d < 32) && decide (a < 32) && decide (b < 32)
  | .xtag d a => decide (d < 32) && decide (a < 32)
  | .pgreq d a b => decide (d < 32) && decide (a < 32) && decide (b < 32)
  | .xinv a b => decide (a < 32) && decide (b < 32)
  | .xfence f t => decide (f < 32) && decide (t < 32) && decide (f ≠ 0) && decide (t ≠ 0)
  | .arrive d o l => decide (d < 32) && decide (d % 2 = 0) && decide (o < 32) && decide (l < 32)
  | .bwait d o l => decide (d < 32) && decide (d % 2 = 0) && decide (o < 32) && decide (l < 32)
  | .barshed d o l => decide (d < 32) && decide (d % 2 = 0) && decide (o < 32) && decide (l < 32)
  | .barjoin d o l => decide (d < 32) && decide (d % 2 = 0) && decide (o < 32) && decide (l < 32)
  | .acq d o l => decide (d < 32) && decide (d % 2 = 0) && decide (o < 32) && decide (l < 32)
  | .acqM d o l => decide (d < 32) && decide (d % 2 = 0) && decide (o < 32) && decide (l < 32)
  | .rel o => decide (o < 32)
  | .bind o l => decide (o < 32) && decide (l < 32) && decide (l % 2 = 0)
  | .qpush d o l => decide (d < 32) && decide (d % 2 = 0) && decide (o < 32) && decide (l < 32)
  | .qrecv d o l => decide (d < 32) && decide (d % 2 = 0) && decide (o < 32) && decide (l < 32)
  | .qproxy d o l => decide (d < 32) && decide (d % 2 = 0) && decide (o < 32) && decide (l < 32)
  | .launch d o l => decide (d < 32) && decide (d % 2 = 0) && decide (o < 32) && decide (l < 32)
  | .cwait d o l => decide (d < 32) && decide (d % 2 = 0) && decide (o < 32) && decide (l < 32)
  | .cancel d o => decide (d < 32) && decide (d % 2 = 0) && decide (o < 32)
  | .sfence s => decide (s < 16) && decide (s < 4)
  | .coll d o l => decide (d < 32) && decide (d % 2 = 0) && decide (o < 32) && decide (l < 32)
  | .collwait d o l => decide (d < 32) && decide (d % 2 = 0) && decide (o < 32) && decide (l < 32)
  | .collabort d o => decide (d < 32) && decide (d % 2 = 0) && decide (o < 32)
  | .decodeIllegalEncoding w => decide (w < 4294967296)
  | .stage2InvalidationComplete _ => true
  | .startInterfaceRequest _ => true
  | .chipTableWrite _ _ => true
  | .gtcTick => true
  | .homeArrive => true
  | .homeBwait => true
  | .homeBarshed => true
  | .homeBarjoin => true
  | .homeAcq => true
  | .homeRel => true
  | .homeBind => true
  | .homeQpush => true
  | .homeQrecv => true
  | .shadowQproxy => true
  | .homeLaunch => true
  | .homeCwait => true
  | .homeCancel => true
  | .homeColl => true
  | .homeCollwait => true
  | .homeCollabort => true
  | .provision => true
  | .preempt => true
  | .restore => true
  | .stop => true
  | .continueReq => true
  | .resetReq => true
  | .inval2 => true
  | .keyloadRetire => true
  | .keyloadWindow => true
  | .keyloadImport => true
  | .aperture => true
  | .stage => true
  | .activate => true
  | .abort => true
  | .quiesceComplete => true
  | .quiesceTimeout => true
  | .newImageStart => true
  | .firstHeartbeat => true
  | .probationTimeout => true
  | .rollbackRestart => true
  | .powerOn => true
  | .tret => true
  | .halt => true
  | .powerLoss => true

end Sys2Proof
end

