-- ==== Sys2Proof/Decode.lean ====
section
/-! DEFINITION. Decoding of instruction words (R33 to R57) and the encoder. `decodeNat` reads a 32-bit word and
answers the instruction, or the reason code of R57 (1 to 6) that its bits alone decide; reasons 6 to 9 that the group
mode decides are found at the push point (Machine/Timing.lean). Every form is written from the field tables of
02_words.md; multi-byte values are little-endian (R3). The ordering bit F of a matrix word other than mmab is
taken as a reserved bit, reason 3 (DEDUCED, log entry 12). -/

namespace Sys2Proof

/-- Decoding of OP 0x01 (mode). -/
def decodeOp01 (w : Nat) : Except Nat Instr :=
  if 19 ≤ w / 65536 % 32 ∨ w / 8192 % 8 = 7 then .error 4 else
  .ok (.mode (w / 4194304 % 8) (w / 2097152 % 2) (w / 65536 % 32) (w / 8192 % 8) (w % 8192))

/-- Decoding of OP 0x02 (add, sub, and, or, xor, sll, srl, sra, mul, mulh, div, rem, slt, sltu, min, max, clz, popc). -/
def decodeOp02 (w : Nat) : Except Nat Instr :=
  match w % 1024 with
  | 0 => .ok (.add (w / 1048576 % 32) (w / 32768 % 32) (w / 1024 % 32))
  | 1 => .ok (.sub (w / 1048576 % 32) (w / 32768 % 32) (w / 1024 % 32))
  | 2 => .ok (.and (w / 1048576 % 32) (w / 32768 % 32) (w / 1024 % 32))
  | 3 => .ok (.or (w / 1048576 % 32) (w / 32768 % 32) (w / 1024 % 32))
  | 4 => .ok (.xor (w / 1048576 % 32) (w / 32768 % 32) (w / 1024 % 32))
  | 5 => .ok (.sll (w / 1048576 % 32) (w / 32768 % 32) (w / 1024 % 32))
  | 6 => .ok (.srl (w / 1048576 % 32) (w / 32768 % 32) (w / 1024 % 32))
  | 7 => .ok (.sra (w / 1048576 % 32) (w / 32768 % 32) (w / 1024 % 32))
  | 8 => .ok (.mul (w / 1048576 % 32) (w / 32768 % 32) (w / 1024 % 32))
  | 9 => .ok (.mulh (w / 1048576 % 32) (w / 32768 % 32) (w / 1024 % 32))
  | 10 => .ok (.div (w / 1048576 % 32) (w / 32768 % 32) (w / 1024 % 32))
  | 11 => .ok (.rem (w / 1048576 % 32) (w / 32768 % 32) (w / 1024 % 32))
  | 12 => .ok (.slt (w / 1048576 % 32) (w / 32768 % 32) (w / 1024 % 32))
  | 13 => .ok (.sltu (w / 1048576 % 32) (w / 32768 % 32) (w / 1024 % 32))
  | 14 => .ok (.min (w / 1048576 % 32) (w / 32768 % 32) (w / 1024 % 32))
  | 15 => .ok (.max (w / 1048576 % 32) (w / 32768 % 32) (w / 1024 % 32))
  | 16 => if w / 1024 % 32 ≠ 0 then .error 3 else .ok (.clz (w / 1048576 % 32) (w / 32768 % 32))
  | 17 => if w / 1024 % 32 ≠ 0 then .error 3 else .ok (.popc (w / 1048576 % 32) (w / 32768 % 32))
  | _ => .error 2

/-- Decoding of OP 0x03 (addi). -/
def decodeOp03 (w : Nat) : Except Nat Instr :=
  .ok (.addi (w / 1048576 % 32) (w / 32768 % 32) (w % 32768))

/-- Decoding of OP 0x04 (andi). -/
def decodeOp04 (w : Nat) : Except Nat Instr :=
  .ok (.andi (w / 1048576 % 32) (w / 32768 % 32) (w % 32768))

/-- Decoding of OP 0x05 (ori). -/
def decodeOp05 (w : Nat) : Except Nat Instr :=
  .ok (.ori (w / 1048576 % 32) (w / 32768 % 32) (w % 32768))

/-- Decoding of OP 0x06 (xori). -/
def decodeOp06 (w : Nat) : Except Nat Instr :=
  .ok (.xori (w / 1048576 % 32) (w / 32768 % 32) (w % 32768))

/-- Decoding of OP 0x07 (slli). -/
def decodeOp07 (w : Nat) : Except Nat Instr :=
  if w / 64 % 512 ≠ 0 then .error 3 else .ok (.slli (w / 1048576 % 32) (w / 32768 % 32) (w % 64))

/-- Decoding of OP 0x08 (srli). -/
def decodeOp08 (w : Nat) : Except Nat Instr :=
  if w / 64 % 512 ≠ 0 then .error 3 else .ok (.srli (w / 1048576 % 32) (w / 32768 % 32) (w % 64))

/-- Decoding of OP 0x09 (srai). -/
def decodeOp09 (w : Nat) : Except Nat Instr :=
  if w / 64 % 512 ≠ 0 then .error 3 else .ok (.srai (w / 1048576 % 32) (w / 32768 % 32) (w % 64))

/-- Decoding of OP 0x0A (slti). -/
def decodeOp0A (w : Nat) : Except Nat Instr :=
  .ok (.slti (w / 1048576 % 32) (w / 32768 % 32) (w % 32768))

/-- Decoding of OP 0x0B (lui). -/
def decodeOp0B (w : Nat) : Except Nat Instr :=
  if w / 32768 % 32 ≠ 0 then .error 3 else .ok (.lui (w / 1048576 % 32) (w % 32768))

/-- Decoding of OP 0x0C (pcrel). -/
def decodeOp0C (w : Nat) : Except Nat Instr :=
  if w / 32768 % 32 ≠ 0 then .error 3 else .ok (.pcrel (w / 1048576 % 32) (w % 32768))

/-- Decoding of OP 0x0D (slb, slh, slw, sld). -/
def decodeOp0D (w : Nat) : Except Nat Instr :=
  match w / 8192 % 4 with
  | 0 => .ok (.slb (w / 1048576 % 32) (w / 32768 % 32) (w % 8192))
  | 1 => .ok (.slh (w / 1048576 % 32) (w / 32768 % 32) (w % 8192))
  | 2 => .ok (.slw (w / 1048576 % 32) (w / 32768 % 32) (w % 8192))
  | _ => .ok (.sld (w / 1048576 % 32) (w / 32768 % 32) (w % 8192))

/-- Decoding of OP 0x0E (ssb, ssh, ssw, ssd). -/
def decodeOp0E (w : Nat) : Except Nat Instr :=
  match w / 8192 % 4 with
  | 0 => .ok (.ssb (w / 1048576 % 32) (w / 32768 % 32) (w % 8192))
  | 1 => .ok (.ssh (w / 1048576 % 32) (w / 32768 % 32) (w % 8192))
  | 2 => .ok (.ssw (w / 1048576 % 32) (w / 32768 % 32) (w % 8192))
  | _ => .ok (.ssd (w / 1048576 % 32) (w / 32768 % 32) (w % 8192))

/-- Decoding of OP 0x10 (beq, bne, blt, bge, bltu, bgeu). -/
def decodeOp10 (w : Nat) : Except Nat Instr :=
  match w / 131072 % 8 with
  | 0 => .ok (.beq (w / 1048576 % 32) (w % 131072))
  | 1 => .ok (.bne (w / 1048576 % 32) (w % 131072))
  | 2 => .ok (.blt (w / 1048576 % 32) (w % 131072))
  | 3 => .ok (.bge (w / 1048576 % 32) (w % 131072))
  | 4 => if w / 1048576 % 32 % 2 = 1 then .error 6 else .ok (.bltu (w / 1048576 % 32) (w % 131072))
  | 5 => if w / 1048576 % 32 % 2 = 1 then .error 6 else .ok (.bgeu (w / 1048576 % 32) (w % 131072))
  | _ => .error 2

/-- Decoding of OP 0x11 (jal). -/
def decodeOp11 (w : Nat) : Except Nat Instr :=
  if (w / 1048576 % 32) + (w / 131072 % 8) ≠ 0 then .error 3 else .ok (.jal (w % 131072))

/-- Decoding of OP 0x12 (jalr). -/
def decodeOp12 (w : Nat) : Except Nat Instr :=
  .ok (.jalr (w / 1048576 % 32) (w / 32768 % 32) (w % 32768))

/-- Decoding of OP 0x18 (csrr). -/
def decodeOp18 (w : Nat) : Except Nat Instr :=
  if csrAssigned (w % 32768) = false then .error 2 else
  if w / 32768 % 32 ≠ 0 then .error 3 else .ok (.csrr (w / 1048576 % 32) (w % 32768))

/-- Decoding of OP 0x19 (csrw). -/
def decodeOp19 (w : Nat) : Except Nat Instr :=
  if csrAssigned (w % 32768) = false then .error 2 else
  .ok (.csrw (w / 1048576 % 32) (w / 32768 % 32) (w % 32768))

/-- Decoding of OP 0x1A (csrs). -/
def decodeOp1A (w : Nat) : Except Nat Instr :=
  if csrAssigned (w % 32768) = false then .error 2 else
  .ok (.csrs (w / 1048576 % 32) (w / 32768 % 32) (w % 32768))

/-- Decoding of OP 0x1B (csrc). -/
def decodeOp1B (w : Nat) : Except Nat Instr :=
  if csrAssigned (w % 32768) = false then .error 2 else
  .ok (.csrc (w / 1048576 % 32) (w / 32768 % 32) (w % 32768))

/-- Decoding of OP 0x1C (trap, svc, tret, halt). -/
def decodeOp1C (w : Nat) : Except Nat Instr :=
  match w % 1024 with
  | 0 => if (w / 1048576 % 32) + (w / 1024 % 32) ≠ 0 then .error 3 else .ok (.trap (w / 32768 % 32))
  | 1 => if (w / 1048576 % 32) + (w / 1024 % 32) ≠ 0 then .error 3 else .ok (.svc (w / 32768 % 32))
  | 2 => if (w / 1048576 % 32) + (w / 32768 % 32) + (w / 1024 % 32) ≠ 0 then .error 3 else .ok (.tret)
  | 3 => if (w / 1048576 % 32) + (w / 32768 % 32) + (w / 1024 % 32) ≠ 0 then .error 3 else .ok (.halt)
  | _ => .error 2

/-- Decoding of OP 0x1D (ttsync). -/
def decodeOp1D (w : Nat) : Except Nat Instr :=
  if w / 1048576 % 32 ≠ 0 then .error 3 else .ok (.ttsync (w / 32768 % 32) (w % 32768))

/-- Decoding of OP 0x1E (ttmark). -/
def decodeOp1E (w : Nat) : Except Nat Instr :=
  match w % 1024 with
  | 0 => if (w / 32768 % 32) + (w / 1024 % 32) ≠ 0 then .error 3 else .ok (.ttmark (w / 1048576 % 32))
  | _ => .error 2

/-- Decoding of OP 0x1F (vsave, vrestore, replay). -/
def decodeOp1F (w : Nat) : Except Nat Instr :=
  match w % 1024 with
  | 0 => if (w / 1048576 % 32) + (w / 1024 % 32) ≠ 0 then .error 3 else .ok (.vsave (w / 32768 % 32))
  | 1 => if (w / 1048576 % 32) + (w / 1024 % 32) ≠ 0 then .error 3 else .ok (.vrestore (w / 32768 % 32))
  | 2 => if (w / 1048576 % 32) + (w / 1024 % 32) ≠ 0 then .error 3 else .ok (.replay (w / 32768 % 32))
  | _ => .error 2

/-- Decoding of OP 0x20 (vadd, vsub, vmul, vmulh, vmacc, vmin, vmax, vand, vor, vxor, vsll, vsrl, vsra, vabs, vaddsat, vsubsat, vclz, vpopc). -/
def decodeOp20 (w : Nat) : Except Nat Instr :=
  match w % 128 with
  | 0 => .ok (.vadd (w / 524288 % 64) (w / 8192 % 64) (w / 128 % 64))
  | 1 => .ok (.vsub (w / 524288 % 64) (w / 8192 % 64) (w / 128 % 64))
  | 2 => .ok (.vmul (w / 524288 % 64) (w / 8192 % 64) (w / 128 % 64))
  | 3 => .ok (.vmulh (w / 524288 % 64) (w / 8192 % 64) (w / 128 % 64))
  | 4 => .ok (.vmacc (w / 524288 % 64) (w / 8192 % 64) (w / 128 % 64))
  | 5 => .ok (.vmin (w / 524288 % 64) (w / 8192 % 64) (w / 128 % 64))
  | 6 => .ok (.vmax (w / 524288 % 64) (w / 8192 % 64) (w / 128 % 64))
  | 7 => .ok (.vand (w / 524288 % 64) (w / 8192 % 64) (w / 128 % 64))
  | 8 => .ok (.vor (w / 524288 % 64) (w / 8192 % 64) (w / 128 % 64))
  | 9 => .ok (.vxor (w / 524288 % 64) (w / 8192 % 64) (w / 128 % 64))
  | 10 => .ok (.vsll (w / 524288 % 64) (w / 8192 % 64) (w / 128 % 64))
  | 11 => .ok (.vsrl (w / 524288 % 64) (w / 8192 % 64) (w / 128 % 64))
  | 12 => .ok (.vsra (w / 524288 % 64) (w / 8192 % 64) (w / 128 % 64))
  | 13 => if w / 128 % 64 ≠ 0 then .error 3 else .ok (.vabs (w / 524288 % 64) (w / 8192 % 64))
  | 14 => .ok (.vaddsat (w / 524288 % 64) (w / 8192 % 64) (w / 128 % 64))
  | 15 => .ok (.vsubsat (w / 524288 % 64) (w / 8192 % 64) (w / 128 % 64))
  | 16 => if w / 128 % 64 ≠ 0 then .error 3 else .ok (.vclz (w / 524288 % 64) (w / 8192 % 64))
  | 17 => if w / 128 % 64 ≠ 0 then .error 3 else .ok (.vpopc (w / 524288 % 64) (w / 8192 % 64))
  | _ => .error 2

/-- Decoding of OP 0x21 (vcmpeq, vcmpne, vcmplt, vcmple). -/
def decodeOp21 (w : Nat) : Except Nat Instr :=
  match w % 128 with
  | 0 => if 16 ≤ w / 524288 % 64 ∨ w / 524288 % 64 = 0 then .error 5 else .ok (.vcmpeq (w / 524288 % 64) (w / 8192 % 64) (w / 128 % 64))
  | 1 => if 16 ≤ w / 524288 % 64 ∨ w / 524288 % 64 = 0 then .error 5 else .ok (.vcmpne (w / 524288 % 64) (w / 8192 % 64) (w / 128 % 64))
  | 2 => if 16 ≤ w / 524288 % 64 ∨ w / 524288 % 64 = 0 then .error 5 else .ok (.vcmplt (w / 524288 % 64) (w / 8192 % 64) (w / 128 % 64))
  | 3 => if 16 ≤ w / 524288 % 64 ∨ w / 524288 % 64 = 0 then .error 5 else .ok (.vcmple (w / 524288 % 64) (w / 8192 % 64) (w / 128 % 64))
  | _ => .error 2

/-- Decoding of OP 0x22 (mand, mor, mxor, mnot, mcount, mfirst). -/
def decodeOp22 (w : Nat) : Except Nat Instr :=
  match w % 128 with
  | 0 => if 16 ≤ w / 524288 % 64 ∨ w / 524288 % 64 = 0 ∨ 16 ≤ w / 8192 % 64 ∨ 16 ≤ w / 128 % 64 then .error 5 else .ok (.mand (w / 524288 % 64) (w / 8192 % 64) (w / 128 % 64))
  | 1 => if 16 ≤ w / 524288 % 64 ∨ w / 524288 % 64 = 0 ∨ 16 ≤ w / 8192 % 64 ∨ 16 ≤ w / 128 % 64 then .error 5 else .ok (.mor (w / 524288 % 64) (w / 8192 % 64) (w / 128 % 64))
  | 2 => if 16 ≤ w / 524288 % 64 ∨ w / 524288 % 64 = 0 ∨ 16 ≤ w / 8192 % 64 ∨ 16 ≤ w / 128 % 64 then .error 5 else .ok (.mxor (w / 524288 % 64) (w / 8192 % 64) (w / 128 % 64))
  | 3 => if w / 128 % 64 ≠ 0 then .error 3 else if 16 ≤ w / 524288 % 64 ∨ w / 524288 % 64 = 0 ∨ 16 ≤ w / 8192 % 64 then .error 5 else .ok (.mnot (w / 524288 % 64) (w / 8192 % 64))
  | 4 => if w / 128 % 64 ≠ 0 then .error 3 else if 32 ≤ w / 524288 % 64 ∨ 16 ≤ w / 8192 % 64 then .error 5 else .ok (.mcount (w / 524288 % 64) (w / 8192 % 64))
  | 5 => if w / 128 % 64 ≠ 0 then .error 3 else if 32 ≤ w / 524288 % 64 ∨ 16 ≤ w / 8192 % 64 then .error 5 else .ok (.mfirst (w / 524288 % 64) (w / 8192 % 64))
  | _ => .error 2

/-- Decoding of OP 0x23 (vbcast, vextract, vid, vsel, vperm, vcompress, vexpand). -/
def decodeOp23 (w : Nat) : Except Nat Instr :=
  match w % 128 with
  | 0 => if w / 128 % 64 ≠ 0 then .error 3 else if 32 ≤ w / 8192 % 64 then .error 5 else .ok (.vbcast (w / 524288 % 64) (w / 8192 % 64))
  | 1 => if 32 ≤ w / 524288 % 64 ∨ 32 ≤ w / 128 % 64 then .error 5 else .ok (.vextract (w / 524288 % 64) (w / 8192 % 64) (w / 128 % 64))
  | 2 => if (w / 8192 % 64) + (w / 128 % 64) ≠ 0 then .error 3 else .ok (.vid (w / 524288 % 64))
  | 3 => .ok (.vsel (w / 524288 % 64) (w / 8192 % 64) (w / 128 % 64))
  | 4 => .ok (.vperm (w / 524288 % 64) (w / 8192 % 64) (w / 128 % 64))
  | 5 => if w / 128 % 64 ≠ 0 then .error 3 else .ok (.vcompress (w / 524288 % 64) (w / 8192 % 64))
  | 6 => if w / 128 % 64 ≠ 0 then .error 3 else .ok (.vexpand (w / 524288 % 64) (w / 8192 % 64))
  | _ => .error 2

/-- Decoding of OP 0x24 (vslideup). -/
def decodeOp24 (w : Nat) : Except Nat Instr :=
  .ok (.vslideup (w / 524288 % 64) (w / 8192 % 64) (w % 8192))

/-- Decoding of OP 0x25 (vslidedn). -/
def decodeOp25 (w : Nat) : Except Nat Instr :=
  .ok (.vslidedn (w / 524288 % 64) (w / 8192 % 64) (w % 8192))

/-- Decoding of OP 0x26 (vredsum.o, vredsum.u, vredmin, vredmax, vredminidx, vredmaxidx, vscan.o, vscan.f, vgrant). -/
def decodeOp26 (w : Nat) : Except Nat Instr :=
  match w % 128 with
  | 0 => if w / 128 % 64 ≠ 0 then .error 3 else .ok (.vredsumO (w / 524288 % 64) (w / 8192 % 64))
  | 1 => if w / 128 % 64 ≠ 0 then .error 3 else .ok (.vredsumU (w / 524288 % 64) (w / 8192 % 64))
  | 2 => if w / 128 % 64 ≠ 0 then .error 3 else .ok (.vredmin (w / 524288 % 64) (w / 8192 % 64))
  | 4 => if w / 128 % 64 ≠ 0 then .error 3 else .ok (.vredmax (w / 524288 % 64) (w / 8192 % 64))
  | 6 => if w / 128 % 64 ≠ 0 then .error 3 else if w / 524288 % 64 % 2 = 1 then .error 6 else .ok (.vredminidx (w / 524288 % 64) (w / 8192 % 64))
  | 8 => if w / 128 % 64 ≠ 0 then .error 3 else if w / 524288 % 64 % 2 = 1 then .error 6 else .ok (.vredmaxidx (w / 524288 % 64) (w / 8192 % 64))
  | 10 => if w / 128 % 64 ≠ 0 then .error 3 else .ok (.vscanO (w / 524288 % 64) (w / 8192 % 64))
  | 11 => if w / 128 % 64 ≠ 0 then .error 3 else .ok (.vscanF (w / 524288 % 64) (w / 8192 % 64))
  | 16 => if w / 128 % 64 ≠ 0 then .error 3 else if 32 ≤ w / 524288 % 64 ∨ 32 ≤ w / 8192 % 64 then .error 5 else if w / 524288 % 64 % 2 = 1 ∨ w / 8192 % 64 % 2 = 1 then .error 6 else .ok (.vgrant (w / 524288 % 64) (w / 8192 % 64))
  | _ => .error 2

/-- Decoding of OP 0x40 (vfadd, vfsub, vfmul, vfma, vfnma, vfmin, vfmax, vfdiv, vfsqrt, vfexp2, vflog2, vfabs, vfneg). -/
def decodeOp40 (w : Nat) : Except Nat Instr :=
  match w % 128 with
  | 0 => .ok (.vfadd (w / 524288 % 64) (w / 8192 % 64) (w / 128 % 64))
  | 1 => .ok (.vfsub (w / 524288 % 64) (w / 8192 % 64) (w / 128 % 64))
  | 2 => .ok (.vfmul (w / 524288 % 64) (w / 8192 % 64) (w / 128 % 64))
  | 3 => .ok (.vfma (w / 524288 % 64) (w / 8192 % 64) (w / 128 % 64))
  | 4 => .ok (.vfnma (w / 524288 % 64) (w / 8192 % 64) (w / 128 % 64))
  | 5 => .ok (.vfmin (w / 524288 % 64) (w / 8192 % 64) (w / 128 % 64))
  | 6 => .ok (.vfmax (w / 524288 % 64) (w / 8192 % 64) (w / 128 % 64))
  | 7 => .ok (.vfdiv (w / 524288 % 64) (w / 8192 % 64) (w / 128 % 64))
  | 8 => if w / 128 % 64 ≠ 0 then .error 3 else .ok (.vfsqrt (w / 524288 % 64) (w / 8192 % 64))
  | 9 => if w / 128 % 64 ≠ 0 then .error 3 else .ok (.vfexp2 (w / 524288 % 64) (w / 8192 % 64))
  | 10 => if w / 128 % 64 ≠ 0 then .error 3 else .ok (.vflog2 (w / 524288 % 64) (w / 8192 % 64))
  | 11 => if w / 128 % 64 ≠ 0 then .error 3 else .ok (.vfabs (w / 524288 % 64) (w / 8192 % 64))
  | 12 => if w / 128 % 64 ≠ 0 then .error 3 else .ok (.vfneg (w / 524288 % 64) (w / 8192 % 64))
  | _ => .error 2

/-- Decoding of OP 0x41 (vfcmpeq, vfcmplt, vfcmple, vfcmpun). -/
def decodeOp41 (w : Nat) : Except Nat Instr :=
  match w % 128 with
  | 0 => if 16 ≤ w / 524288 % 64 ∨ w / 524288 % 64 = 0 then .error 5 else .ok (.vfcmpeq (w / 524288 % 64) (w / 8192 % 64) (w / 128 % 64))
  | 1 => if 16 ≤ w / 524288 % 64 ∨ w / 524288 % 64 = 0 then .error 5 else .ok (.vfcmplt (w / 524288 % 64) (w / 8192 % 64) (w / 128 % 64))
  | 2 => if 16 ≤ w / 524288 % 64 ∨ w / 524288 % 64 = 0 then .error 5 else .ok (.vfcmple (w / 524288 % 64) (w / 8192 % 64) (w / 128 % 64))
  | 3 => if 16 ≤ w / 524288 % 64 ∨ w / 524288 % 64 = 0 then .error 5 else .ok (.vfcmpun (w / 524288 % 64) (w / 8192 % 64) (w / 128 % 64))
  | _ => .error 2

/-- Decoding of OP 0x42 (vcvt, vcvtsr, vpack, vunpack). -/
def decodeOp42 (w : Nat) : Except Nat Instr :=
  if 19 ≤ w % 32 then .error 2 else
  match w / 32 % 4 with
  | 0 => if w / 128 % 64 ≠ 0 then .error 3 else .ok (.vcvt (w / 524288 % 64) (w / 8192 % 64) (w % 32))
  | 1 => if w / 128 % 64 ≠ 0 then .error 3 else .ok (.vcvtsr (w / 524288 % 64) (w / 8192 % 64) (w % 32))
  | 2 => .ok (.vpack (w / 524288 % 64) (w / 8192 % 64) (w / 128 % 64) (w % 32))
  | _ => if w / 128 % 64 ≠ 0 then .error 3 else .ok (.vunpack (w / 524288 % 64) (w / 8192 % 64) (w % 32))

/-- Decoding of OP 0x43 (vscacc, vscext, vscset). -/
def decodeOp43 (w : Nat) : Except Nat Instr :=
  match w % 128 with
  | 0 => .ok (.vscacc (w / 524288 % 64) (w / 8192 % 64) (w / 128 % 64))
  | 1 => .ok (.vscext (w / 524288 % 64) (w / 8192 % 64) (w / 128 % 64))
  | 2 => .ok (.vscset (w / 524288 % 64) (w / 8192 % 64) (w / 128 % 64))
  | _ => .error 2

/-- Decoding of OP 0x44 (vbinadd, vbinfold, vbinmerge). -/
def decodeOp44 (w : Nat) : Except Nat Instr :=
  match w % 128 with
  | 0 => .ok (.vbinadd (w / 524288 % 64) (w / 8192 % 64) (w / 128 % 64))
  | 1 => .ok (.vbinfold (w / 524288 % 64) (w / 8192 % 64) (w / 128 % 64))
  | 2 => .ok (.vbinmerge (w / 524288 % 64) (w / 8192 % 64) (w / 128 % 64))
  | _ => .error 2

/-- Decoding of OP 0x45 (vw2pmul). -/
def decodeOp45 (w : Nat) : Except Nat Instr :=
  match w % 128 with
  | 0 => .ok (.vw2pmul (w / 524288 % 64) (w / 8192 % 64) (w / 128 % 64))
  | _ => .error 2

/-- Decoding of OP 0x50 (mmab.o, mmab.f, mmad, mtbl, mmal, xscacc). -/
def decodeOp50 (w : Nat) : Except Nat Instr :=
  match w / 1024 % 16 with
  | 0 => if w % 2 = 0 then (if (w / 32 % 32) + (w / 4 % 8) + (w / 2 % 2) ≠ 0 then .error 3 else .ok (.mmabO (w / 4194304 % 8) (w / 262144 % 16) (w / 16384 % 16))) else (if (w / 32 % 32) + (w / 4 % 8) + (w / 2 % 2) ≠ 0 then .error 3 else .ok (.mmabF (w / 4194304 % 8) (w / 262144 % 16) (w / 16384 % 16)))
  | 1 => if (w / 32 % 32) + (w / 4 % 8) + (w % 4) ≠ 0 then .error 3 else .ok (.mmad (w / 4194304 % 8) (w / 262144 % 16) (w / 16384 % 16))
  | 2 => if (w / 4194304 % 8) + (w / 32 % 32) + (w / 4 % 8) + (w % 4) ≠ 0 then .error 3 else .ok (.mtbl (w / 262144 % 16) (w / 16384 % 16))
  | 3 => if (w / 32 % 32) + (w / 4 % 8) + (w % 4) ≠ 0 then .error 3 else .ok (.mmal (w / 4194304 % 8) (w / 262144 % 16) (w / 16384 % 16))
  | 4 => if (w / 32 % 32) + (w % 4) ≠ 0 then .error 3 else .ok (.xscacc (w / 4194304 % 8) (w / 262144 % 16) (w / 16384 % 16) (w / 4 % 8))
  | _ => .error 2

/-- Decoding of OP 0x51 (oclaim, orelease, oload, aclear, aload, astore). -/
def decodeOp51 (w : Nat) : Except Nat Instr :=
  match w / 1024 % 16 with
  | 0 => if (w / 4194304 % 8) + (w / 16384 % 16) + (w / 32 % 32) + (w / 4 % 8) + (w % 4) ≠ 0 then .error 3 else .ok (.oclaim (w / 262144 % 16))
  | 1 => if (w / 4194304 % 8) + (w / 16384 % 16) + (w / 32 % 32) + (w / 4 % 8) + (w % 4) ≠ 0 then .error 3 else .ok (.orelease (w / 262144 % 16))
  | 2 => if (w / 4194304 % 8) + (w / 16384 % 16) + (w / 4 % 8) + (w % 4) ≠ 0 then .error 3 else .ok (.oload (w / 262144 % 16) (w / 32 % 32))
  | 3 => if (w / 262144 % 16) + (w / 16384 % 16) + (w / 32 % 32) + (w / 4 % 8) + (w % 4) ≠ 0 then .error 3 else .ok (.aclear (w / 4194304 % 8))
  | 4 => if (w / 262144 % 16) + (w / 16384 % 16) + (w / 4 % 8) + (w % 4) ≠ 0 then .error 3 else .ok (.aload (w / 4194304 % 8) (w / 32 % 32))
  | 5 => if (w / 262144 % 16) + (w / 16384 % 16) + (w / 4 % 8) + (w % 4) ≠ 0 then .error 3 else .ok (.astore (w / 4194304 % 8) (w / 32 % 32))
  | _ => .error 2

/-- Decoding of OP 0x52 (tshape). -/
def decodeOp52 (w : Nat) : Except Nat Instr :=
  match w % 1024 with
  | 0 => if w / 1024 % 32 ≠ 0 then .error 3 else .ok (.tshape (w / 1048576 % 32) (w / 32768 % 32))
  | _ => .error 2

/-- Decoding of OP 0x58 (vld). -/
def decodeOp58 (w : Nat) : Except Nat Instr :=
  if 32 ≤ w / 8192 % 64 then .error 5 else .ok (.vld (w / 524288 % 64) (w / 8192 % 64) (w % 8192))

/-- Decoding of OP 0x59 (vst). -/
def decodeOp59 (w : Nat) : Except Nat Instr :=
  if 32 ≤ w / 8192 % 64 then .error 5 else .ok (.vst (w / 524288 % 64) (w / 8192 % 64) (w % 8192))

/-- Decoding of OP 0x5A (vlds, vsts, vldt, vldf, vgath, vscat, vscadd, vscadd.bin, vamo). -/
def decodeOp5A (w : Nat) : Except Nat Instr :=
  match w % 128 with
  | 0 => if 32 ≤ w / 8192 % 64 ∨ 32 ≤ w / 128 % 64 then .error 5 else .ok (.vlds (w / 524288 % 64) (w / 8192 % 64) (w / 128 % 64))
  | 1 => if 32 ≤ w / 8192 % 64 ∨ 32 ≤ w / 128 % 64 then .error 5 else .ok (.vsts (w / 524288 % 64) (w / 8192 % 64) (w / 128 % 64))
  | 2 => if 32 ≤ w / 8192 % 64 ∨ 32 ≤ w / 128 % 64 then .error 5 else .ok (.vldt (w / 524288 % 64) (w / 8192 % 64) (w / 128 % 64))
  | 3 => if 32 ≤ w / 8192 % 64 ∨ 16 ≤ w / 128 % 64 ∨ w / 128 % 64 = 0 then .error 5 else .ok (.vldf (w / 524288 % 64) (w / 8192 % 64) (w / 128 % 64))
  | 4 => if 32 ≤ w / 8192 % 64 then .error 5 else .ok (.vgath (w / 524288 % 64) (w / 8192 % 64) (w / 128 % 64))
  | 5 => if 32 ≤ w / 8192 % 64 then .error 5 else .ok (.vscat (w / 524288 % 64) (w / 8192 % 64) (w / 128 % 64))
  | 6 => if 32 ≤ w / 8192 % 64 then .error 5 else .ok (.vscadd (w / 524288 % 64) (w / 8192 % 64) (w / 128 % 64))
  | 7 => if 32 ≤ w / 8192 % 64 then .error 5 else .ok (.vscaddBin (w / 524288 % 64) (w / 8192 % 64) (w / 128 % 64))
  | 16 => if 32 ≤ w / 8192 % 64 then .error 5 else .ok (.vamo (w / 524288 % 64) (w / 8192 % 64) (w / 128 % 64) (w % 8))
  | 17 => if 32 ≤ w / 8192 % 64 then .error 5 else .ok (.vamo (w / 524288 % 64) (w / 8192 % 64) (w / 128 % 64) (w % 8))
  | 18 => if 32 ≤ w / 8192 % 64 then .error 5 else .ok (.vamo (w / 524288 % 64) (w / 8192 % 64) (w / 128 % 64) (w % 8))
  | 19 => if 32 ≤ w / 8192 % 64 then .error 5 else .ok (.vamo (w / 524288 % 64) (w / 8192 % 64) (w / 128 % 64) (w % 8))
  | 20 => if 32 ≤ w / 8192 % 64 then .error 5 else .ok (.vamo (w / 524288 % 64) (w / 8192 % 64) (w / 128 % 64) (w % 8))
  | 21 => if 32 ≤ w / 8192 % 64 then .error 5 else .ok (.vamo (w / 524288 % 64) (w / 8192 % 64) (w / 128 % 64) (w % 8))
  | 22 => if 32 ≤ w / 8192 % 64 then .error 5 else .ok (.vamo (w / 524288 % 64) (w / 8192 % 64) (w / 128 % 64) (w % 8))
  | _ => .error 2

/-- Decoding of OP 0x5B (mld, mst, vbind, vunbind). -/
def decodeOp5B (w : Nat) : Except Nat Instr :=
  match w % 128 with
  | 0 => if w / 128 % 64 ≠ 0 then .error 3 else if 16 ≤ w / 524288 % 64 ∨ w / 524288 % 64 = 0 ∨ 32 ≤ w / 8192 % 64 then .error 5 else .ok (.mld (w / 524288 % 64) (w / 8192 % 64))
  | 1 => if w / 128 % 64 ≠ 0 then .error 3 else if 16 ≤ w / 524288 % 64 ∨ 32 ≤ w / 8192 % 64 then .error 5 else .ok (.mst (w / 524288 % 64) (w / 8192 % 64))
  | 2 => if w / 128 % 64 ≠ 0 then .error 3 else if 32 ≤ w / 8192 % 64 then .error 5 else .ok (.vbind (w / 524288 % 64) (w / 8192 % 64))
  | 3 => if (w / 8192 % 64) + (w / 128 % 64) ≠ 0 then .error 3 else .ok (.vunbind (w / 524288 % 64))
  | _ => .error 2

/-- Decoding of OP 0x60 (xgo, xdrain, xtag, pgreq, xinv). -/
def decodeOp60 (w : Nat) : Except Nat Instr :=
  match w % 1024 with
  | 0 => if w / 1024 % 32 ≠ 0 then .error 3 else .ok (.xgo (w / 1048576 % 32) (w / 32768 % 32))
  | 1 => .ok (.xdrain (w / 1048576 % 32) (w / 32768 % 32) (w / 1024 % 32))
  | 2 => if w / 1024 % 32 ≠ 0 then .error 3 else .ok (.xtag (w / 1048576 % 32) (w / 32768 % 32))
  | 3 => .ok (.pgreq (w / 1048576 % 32) (w / 32768 % 32) (w / 1024 % 32))
  | 4 => if w / 1048576 % 32 ≠ 0 then .error 3 else .ok (.xinv (w / 32768 % 32) (w / 1024 % 32))
  | _ => .error 2

/-- Decoding of OP 0x61 (xfence). -/
def decodeOp61 (w : Nat) : Except Nat Instr :=
  if w / 32 % 32 = 0 ∨ w % 32 = 0 then .error 2 else
  if (w / 1048576 % 32) + (w / 32768 % 32) + (w / 1024 % 32) ≠ 0 then .error 3 else
  .ok (.xfence (w / 32 % 32) (w % 32))

/-- Decoding of OP 0x68 (arrive, bwait, barshed, barjoin). -/
def decodeOp68 (w : Nat) : Except Nat Instr :=
  match w / 16 % 64 with
  | 0 => if w % 16 ≠ 0 then .error 3 else if w / 1048576 % 32 % 2 = 1 then .error 6 else .ok (.arrive (w / 1048576 % 32) (w / 32768 % 32) (w / 1024 % 32))
  | 1 => if w % 16 ≠ 0 then .error 3 else if w / 1048576 % 32 % 2 = 1 then .error 6 else .ok (.bwait (w / 1048576 % 32) (w / 32768 % 32) (w / 1024 % 32))
  | 2 => if w % 16 ≠ 0 then .error 3 else if w / 1048576 % 32 % 2 = 1 then .error 6 else .ok (.barshed (w / 1048576 % 32) (w / 32768 % 32) (w / 1024 % 32))
  | 3 => if w % 16 ≠ 0 then .error 3 else if w / 1048576 % 32 % 2 = 1 then .error 6 else .ok (.barjoin (w / 1048576 % 32) (w / 32768 % 32) (w / 1024 % 32))
  | _ => .error 2

/-- Decoding of OP 0x69 (acq, acq.m, rel, bind). -/
def decodeOp69 (w : Nat) : Except Nat Instr :=
  match w / 16 % 64 with
  | 0 => if w / 2 % 8 ≠ 0 then .error 3 else if w % 2 = 0 then (if w / 1048576 % 32 % 2 = 1 then .error 6 else .ok (.acq (w / 1048576 % 32) (w / 32768 % 32) (w / 1024 % 32))) else (if w / 1048576 % 32 % 2 = 1 then .error 6 else .ok (.acqM (w / 1048576 % 32) (w / 32768 % 32) (w / 1024 % 32)))
  | 1 => if (w / 1048576 % 32) + (w / 1024 % 32) + (w % 16) ≠ 0 then .error 3 else .ok (.rel (w / 32768 % 32))
  | 2 => if (w / 1048576 % 32) + (w % 16) ≠ 0 then .error 3 else if w / 1024 % 32 % 2 = 1 then .error 6 else .ok (.bind (w / 32768 % 32) (w / 1024 % 32))
  | _ => .error 2

/-- Decoding of OP 0x6A (qpush, qrecv, qproxy). -/
def decodeOp6A (w : Nat) : Except Nat Instr :=
  match w / 16 % 64 with
  | 0 => if w % 16 ≠ 0 then .error 3 else if w / 1048576 % 32 % 2 = 1 then .error 6 else .ok (.qpush (w / 1048576 % 32) (w / 32768 % 32) (w / 1024 % 32))
  | 1 => if w % 16 ≠ 0 then .error 3 else if w / 1048576 % 32 % 2 = 1 then .error 6 else .ok (.qrecv (w / 1048576 % 32) (w / 32768 % 32) (w / 1024 % 32))
  | 2 => if w % 16 ≠ 0 then .error 3 else if w / 1048576 % 32 % 2 = 1 then .error 6 else .ok (.qproxy (w / 1048576 % 32) (w / 32768 % 32) (w / 1024 % 32))
  | _ => .error 2

/-- Decoding of OP 0x6B (launch, cwait, cancel). -/
def decodeOp6B (w : Nat) : Except Nat Instr :=
  match w / 16 % 64 with
  | 0 => if w % 16 ≠ 0 then .error 3 else if w / 1048576 % 32 % 2 = 1 then .error 6 else .ok (.launch (w / 1048576 % 32) (w / 32768 % 32) (w / 1024 % 32))
  | 1 => if w % 16 ≠ 0 then .error 3 else if w / 1048576 % 32 % 2 = 1 then .error 6 else .ok (.cwait (w / 1048576 % 32) (w / 32768 % 32) (w / 1024 % 32))
  | 2 => if (w / 1024 % 32) + (w % 16) ≠ 0 then .error 3 else if w / 1048576 % 32 % 2 = 1 then .error 6 else .ok (.cancel (w / 1048576 % 32) (w / 32768 % 32))
  | _ => .error 2

/-- Decoding of OP 0x6C (sfence). -/
def decodeOp6C (w : Nat) : Except Nat Instr :=
  match w / 16 % 64 with
  | 0 => if 4 ≤ w % 16 then .error 2 else if (w / 1048576 % 32) + (w / 32768 % 32) + (w / 1024 % 32) ≠ 0 then .error 3 else .ok (.sfence (w % 16))
  | _ => .error 2

/-- Decoding of OP 0x70 (coll, collwait, collabort). -/
def decodeOp70 (w : Nat) : Except Nat Instr :=
  match w / 16 % 64 with
  | 0 => if w % 16 ≠ 0 then .error 3 else if w / 1048576 % 32 % 2 = 1 then .error 6 else .ok (.coll (w / 1048576 % 32) (w / 32768 % 32) (w / 1024 % 32))
  | 1 => if w % 16 ≠ 0 then .error 3 else if w / 1048576 % 32 % 2 = 1 then .error 6 else .ok (.collwait (w / 1048576 % 32) (w / 32768 % 32) (w / 1024 % 32))
  | 2 => if (w / 1024 % 32) + (w % 16) ≠ 0 then .error 3 else if w / 1048576 % 32 % 2 = 1 then .error 6 else .ok (.collabort (w / 1048576 % 32) (w / 32768 % 32))
  | _ => .error 2

/-- Decode a word under its major opcode (R34, R42). -/
def decodeMajor (op w : Nat) : Except Nat Instr :=
  match op with
  | 1 => decodeOp01 w
  | 2 => decodeOp02 w
  | 3 => decodeOp03 w
  | 4 => decodeOp04 w
  | 5 => decodeOp05 w
  | 6 => decodeOp06 w
  | 7 => decodeOp07 w
  | 8 => decodeOp08 w
  | 9 => decodeOp09 w
  | 10 => decodeOp0A w
  | 11 => decodeOp0B w
  | 12 => decodeOp0C w
  | 13 => decodeOp0D w
  | 14 => decodeOp0E w
  | 16 => decodeOp10 w
  | 17 => decodeOp11 w
  | 18 => decodeOp12 w
  | 24 => decodeOp18 w
  | 25 => decodeOp19 w
  | 26 => decodeOp1A w
  | 27 => decodeOp1B w
  | 28 => decodeOp1C w
  | 29 => decodeOp1D w
  | 30 => decodeOp1E w
  | 31 => decodeOp1F w
  | 32 => decodeOp20 w
  | 33 => decodeOp21 w
  | 34 => decodeOp22 w
  | 35 => decodeOp23 w
  | 36 => decodeOp24 w
  | 37 => decodeOp25 w
  | 38 => decodeOp26 w
  | 64 => decodeOp40 w
  | 65 => decodeOp41 w
  | 66 => decodeOp42 w
  | 67 => decodeOp43 w
  | 68 => decodeOp44 w
  | 69 => decodeOp45 w
  | 80 => decodeOp50 w
  | 81 => decodeOp51 w
  | 82 => decodeOp52 w
  | 88 => decodeOp58 w
  | 89 => decodeOp59 w
  | 90 => decodeOp5A w
  | 91 => decodeOp5B w
  | 96 => decodeOp60 w
  | 97 => decodeOp61 w
  | 104 => decodeOp68 w
  | 105 => decodeOp69 w
  | 106 => decodeOp6A w
  | 107 => decodeOp6B w
  | 108 => decodeOp6C w
  | 112 => decodeOp70 w
  | _ => .error 1

/-- Decode one 32-bit word: the instruction, or the reason code of R57 decided by its bits (R42). -/
def decodeNat (w : Nat) : Except Nat Instr := decodeMajor (w / 33554432) w

/-- Decode an instruction word. -/
def decodeWord (w : Word) : Except Nat Instr := decodeNat w.toNat

/-- The 32-bit word whose bytes, lowest address first, are given (R3). -/
def wordOfBytes (b0 b1 b2 b3 : Byte) : Nat :=
  b0.toNat + b1.toNat * 256 + b2.toNat * 65536 + b3.toNat * 16777216

/-- The four bytes of a word as memory holds them, lowest address first (R3). -/
def bytesOfWord (w : Nat) : List Byte :=
  [BitVec.ofNat 8 w, BitVec.ofNat 8 (w / 256), BitVec.ofNat 8 (w / 65536), BitVec.ofNat 8 (w / 16777216)]

/-- Decode the instruction at the front of a byte string, and what follows it. Total on any bytes: fewer than
four bytes are refused with reason 1, an illegal word with its reason. -/
def decodeBytes : List Byte → Except Nat (Instr × List Byte)
  | b0 :: b1 :: b2 :: b3 :: rest =>
    match decodeNat (wordOfBytes b0 b1 b2 b3) with
    | .ok i => .ok (i, rest)
    | .error r => .error r
  | _ => .error 1

/-- The instruction this decoder reads from a table word of `nbits` bits: the word laid out as memory holds it
(R3) and given to `decodeBytes`. Every instruction is one 32-bit word (R33). -/
def decodeTableWord (nbits w : Nat) : Option Instr :=
  if nbits = 0 then none else
  match decodeBytes (bytesOfWord (w % 2 ^ nbits)) with
  | .ok (i, _) => some i
  | .error _ => none

/-- Whether a major opcode is executed by the front end (R41). -/
def isFrontOp (w : Nat) : Bool := decide (w / 33554432 < 31)

/-- The word of a well-formed instruction (R34, R43 to R56). An event has no word; it is given the word 0, which no
instruction has (R42). -/
def encode : Instr → Nat
  | .backendPush _ => 0
  | .entryIssue _ _ => 0
  | .rowSample _ _ _ _ _ => 0
  | .rowLanding _ _ => 0
  | .frameBoundary _ => 0
  | .preemptionArrival _ => 0
  | .domainResume _ => 0
  | .handlerBackendComplete _ _ => 0
  | .scalarAccessService _ _ => 0
  | .transferDelivery _ _ _ => 0
  | .xinvComplete _ _ => 0
  | .barrierResolution _ => 0
  | .lockReleaseEffect _ => 0
  | .queueAbandonment _ _ => 0
  | .proxyBatchSend _ _ => 0
  | .proxyBatchArrival _ _ _ => 0
  | .launchUnitServe _ => 0
  | .launchStart _ => 0
  | .counterCompletion _ _ => 0
  | .collResolution _ => 0
  | .collWalkDone _ _ => 0
  | .vdSaved _ => 0
  | .saveDeadlineExpiry _ => 0
  | .stopPublish _ => 0
  | .flr _ => 0
  | .vdResetComplete _ => 0
  | .s2faultClear _ _ => 0
  | .lockInterfaceRequest _ => 0
  | .stopInterfaceRequest _ => 0
  | .evsizeWrite _ => 0
  | .evtailWrite _ => 0
  | .evlostClear _ => 0
  | .evvecWrite _ => 0
  | .thermWrite _ => 0
  | .pallocWrite _ _ => 0
  | .registerWrite _ _ _ => 0
  | .s1rootWrite _ _ => 0
  | .jobpush _ _ _ => 0
  | .jobstatRead _ => 0
  | .hostWrite _ _ _ _ _ => 0
  | .hostRead _ _ _ _ => 0
  | .spdmRequest _ => 0
  | .mctpVendorRead _ _ => 0
  | .laneSpare _ _ _ => 0
  | .portDown _ _ => 0
  | .linkRetrained _ => 0
  | .hostLinkRecovery _ => 0
  | .presenceNotice _ => 0
  | .pathDownExpiry _ => 0
  | .hostRemoval _ => 0
  | .thermalEmergency _ _ => 0
  | .thermalClear _ _ => 0
  | .thermalCritical _ _ => 0
  | .functionReady _ => 0
  | .readyLost _ => 0
  | .mode g p e r t => 33554432 + g * 4194304 + p * 2097152 + e * 65536 + r * 8192 + t
  | .add d a b => 67108864 + d * 1048576 + a * 32768 + b * 1024
  | .sub d a b => 67108865 + d * 1048576 + a * 32768 + b * 1024
  | .and d a b => 67108866 + d * 1048576 + a * 32768 + b * 1024
  | .or d a b => 67108867 + d * 1048576 + a * 32768 + b * 1024
  | .xor d a b => 67108868 + d * 1048576 + a * 32768 + b * 1024
  | .sll d a b => 67108869 + d * 1048576 + a * 32768 + b * 1024
  | .srl d a b => 67108870 + d * 1048576 + a * 32768 + b * 1024
  | .sra d a b => 67108871 + d * 1048576 + a * 32768 + b * 1024
  | .mul d a b => 67108872 + d * 1048576 + a * 32768 + b * 1024
  | .mulh d a b => 67108873 + d * 1048576 + a * 32768 + b * 1024
  | .div d a b => 67108874 + d * 1048576 + a * 32768 + b * 1024
  | .rem d a b => 67108875 + d * 1048576 + a * 32768 + b * 1024
  | .slt d a b => 67108876 + d * 1048576 + a * 32768 + b * 1024
  | .sltu d a b => 67108877 + d * 1048576 + a * 32768 + b * 1024
  | .min d a b => 67108878 + d * 1048576 + a * 32768 + b * 1024
  | .max d a b => 67108879 + d * 1048576 + a * 32768 + b * 1024
  | .clz d a => 67108880 + d * 1048576 + a * 32768
  | .popc d a => 67108881 + d * 1048576 + a * 32768
  | .addi d a i => 100663296 + d * 1048576 + a * 32768 + i
  | .andi d a i => 134217728 + d * 1048576 + a * 32768 + i
  | .ori d a i => 167772160 + d * 1048576 + a * 32768 + i
  | .xori d a i => 201326592 + d * 1048576 + a * 32768 + i
  | .slli d a i => 234881024 + d * 1048576 + a * 32768 + i
  | .srli d a i => 268435456 + d * 1048576 + a * 32768 + i
  | .srai d a i => 301989888 + d * 1048576 + a * 32768 + i
  | .slti d a i => 335544320 + d * 1048576 + a * 32768 + i
  | .lui d i => 369098752 + d * 1048576 + i
  | .pcrel d i => 402653184 + d * 1048576 + i
  | .slb d a o => 436207616 + d * 1048576 + a * 32768 + o
  | .slh d a o => 436215808 + d * 1048576 + a * 32768 + o
  | .slw d a o => 436224000 + d * 1048576 + a * 32768 + o
  | .sld d a o => 436232192 + d * 1048576 + a * 32768 + o
  | .ssb d a o => 469762048 + d * 1048576 + a * 32768 + o
  | .ssh d a o => 469770240 + d * 1048576 + a * 32768 + o
  | .ssw d a o => 469778432 + d * 1048576 + a * 32768 + o
  | .ssd d a o => 469786624 + d * 1048576 + a * 32768 + o
  | .beq a o => 536870912 + a * 1048576 + o
  | .bne a o => 537001984 + a * 1048576 + o
  | .blt a o => 537133056 + a * 1048576 + o
  | .bge a o => 537264128 + a * 1048576 + o
  | .bltu a o => 537395200 + a * 1048576 + o
  | .bgeu a o => 537526272 + a * 1048576 + o
  | .jal o => 570425344 + o
  | .jalr d a i => 603979776 + d * 1048576 + a * 32768 + i
  | .csrr d c => 805306368 + d * 1048576 + c
  | .csrw d a c => 838860800 + d * 1048576 + a * 32768 + c
  | .csrs d a c => 872415232 + d * 1048576 + a * 32768 + c
  | .csrc d a c => 905969664 + d * 1048576 + a * 32768 + c
  | .trap a => 939524096 + a * 32768
  | .svc a => 939524097 + a * 32768
  | .ttsync a i => 973078528 + a * 32768 + i
  | .ttmark d => 1006632960 + d * 1048576
  | .vsave a => 1040187392 + a * 32768
  | .vrestore a => 1040187393 + a * 32768
  | .replay a => 1040187394 + a * 32768
  | .vadd d a b => 1073741824 + d * 524288 + a * 8192 + b * 128
  | .vsub d a b => 1073741825 + d * 524288 + a * 8192 + b * 128
  | .vmul d a b => 1073741826 + d * 524288 + a * 8192 + b * 128
  | .vmulh d a b => 1073741827 + d * 524288 + a * 8192 + b * 128
  | .vmacc d a b => 1073741828 + d * 524288 + a * 8192 + b * 128
  | .vmin d a b => 1073741829 + d * 524288 + a * 8192 + b * 128
  | .vmax d a b => 1073741830 + d * 524288 + a * 8192 + b * 128
  | .vand d a b => 1073741831 + d * 524288 + a * 8192 + b * 128
  | .vor d a b => 1073741832 + d * 524288 + a * 8192 + b * 128
  | .vxor d a b => 1073741833 + d * 524288 + a * 8192 + b * 128
  | .vsll d a b => 1073741834 + d * 524288 + a * 8192 + b * 128
  | .vsrl d a b => 1073741835 + d * 524288 + a * 8192 + b * 128
  | .vsra d a b => 1073741836 + d * 524288 + a * 8192 + b * 128
  | .vabs d a => 1073741837 + d * 524288 + a * 8192
  | .vaddsat d a b => 1073741838 + d * 524288 + a * 8192 + b * 128
  | .vsubsat d a b => 1073741839 + d * 524288 + a * 8192 + b * 128
  | .vclz d a => 1073741840 + d * 524288 + a * 8192
  | .vpopc d a => 1073741841 + d * 524288 + a * 8192
  | .vcmpeq d a b => 1107296256 + d * 524288 + a * 8192 + b * 128
  | .vcmpne d a b => 1107296257 + d * 524288 + a * 8192 + b * 128
  | .vcmplt d a b => 1107296258 + d * 524288 + a * 8192 + b * 128
  | .vcmple d a b => 1107296259 + d * 524288 + a * 8192 + b * 128
  | .mand d a b => 1140850688 + d * 524288 + a * 8192 + b * 128
  | .mor d a b => 1140850689 + d * 524288 + a * 8192 + b * 128
  | .mxor d a b => 1140850690 + d * 524288 + a * 8192 + b * 128
  | .mnot d a => 1140850691 + d * 524288 + a * 8192
  | .mcount d a => 1140850692 + d * 524288 + a * 8192
  | .mfirst d a => 1140850693 + d * 524288 + a * 8192
  | .vbcast d a => 1174405120 + d * 524288 + a * 8192
  | .vextract d a b => 1174405121 + d * 524288 + a * 8192 + b * 128
  | .vid d => 1174405122 + d * 524288
  | .vsel d a b => 1174405123 + d * 524288 + a * 8192 + b * 128
  | .vperm d a b => 1174405124 + d * 524288 + a * 8192 + b * 128
  | .vcompress d a => 1174405125 + d * 524288 + a * 8192
  | .vexpand d a => 1174405126 + d * 524288 + a * 8192
  | .vslideup d a i => 1207959552 + d * 524288 + a * 8192 + i
  | .vslidedn d a i => 1241513984 + d * 524288 + a * 8192 + i
  | .vredsumO d a => 1275068416 + d * 524288 + a * 8192
  | .vredsumU d a => 1275068417 + d * 524288 + a * 8192
  | .vredmin d a => 1275068418 + d * 524288 + a * 8192
  | .vredmax d a => 1275068420 + d * 524288 + a * 8192
  | .vredminidx d a => 1275068422 + d * 524288 + a * 8192
  | .vredmaxidx d a => 1275068424 + d * 524288 + a * 8192
  | .vscanO d a => 1275068426 + d * 524288 + a * 8192
  | .vscanF d a => 1275068427 + d * 524288 + a * 8192
  | .vgrant d a => 1275068432 + d * 524288 + a * 8192
  | .vfadd d a b => 2147483648 + d * 524288 + a * 8192 + b * 128
  | .vfsub d a b => 2147483649 + d * 524288 + a * 8192 + b * 128
  | .vfmul d a b => 2147483650 + d * 524288 + a * 8192 + b * 128
  | .vfma d a b => 2147483651 + d * 524288 + a * 8192 + b * 128
  | .vfnma d a b => 2147483652 + d * 524288 + a * 8192 + b * 128
  | .vfmin d a b => 2147483653 + d * 524288 + a * 8192 + b * 128
  | .vfmax d a b => 2147483654 + d * 524288 + a * 8192 + b * 128
  | .vfdiv d a b => 2147483655 + d * 524288 + a * 8192 + b * 128
  | .vfsqrt d a => 2147483656 + d * 524288 + a * 8192
  | .vfexp2 d a => 2147483657 + d * 524288 + a * 8192
  | .vflog2 d a => 2147483658 + d * 524288 + a * 8192
  | .vfabs d a => 2147483659 + d * 524288 + a * 8192
  | .vfneg d a => 2147483660 + d * 524288 + a * 8192
  | .vfcmpeq d a b => 2181038080 + d * 524288 + a * 8192 + b * 128
  | .vfcmplt d a b => 2181038081 + d * 524288 + a * 8192 + b * 128
  | .vfcmple d a b => 2181038082 + d * 524288 + a * 8192 + b * 128
  | .vfcmpun d a b => 2181038083 + d * 524288 + a * 8192 + b * 128
  | .vcvt d a s => 2214592512 + d * 524288 + a * 8192 + s
  | .vcvtsr d a s => 2214592544 + d * 524288 + a * 8192 + s
  | .vpack d a b s => 2214592576 + d * 524288 + a * 8192 + b * 128 + s
  | .vunpack d a s => 2214592608 + d * 524288 + a * 8192 + s
  | .vscacc d a b => 2248146944 + d * 524288 + a * 8192 + b * 128
  | .vscext d a b => 2248146945 + d * 524288 + a * 8192 + b * 128
  | .vscset d a b => 2248146946 + d * 524288 + a * 8192 + b * 128
  | .vbinadd d a b => 2281701376 + d * 524288 + a * 8192 + b * 128
  | .vbinfold d a b => 2281701377 + d * 524288 + a * 8192 + b * 128
  | .vbinmerge d a b => 2281701378 + d * 524288 + a * 8192 + b * 128
  | .vw2pmul d a b => 2315255808 + d * 524288 + a * 8192 + b * 128
  | .mmabO d a b => 2684354560 + d * 4194304 + a * 262144 + b * 16384
  | .mmabF d a b => 2684354561 + d * 4194304 + a * 262144 + b * 16384
  | .mmad d a b => 2684355584 + d * 4194304 + a * 262144 + b * 16384
  | .mtbl a b => 2684356608 + a * 262144 + b * 16384
  | .mmal d a b => 2684357632 + d * 4194304 + a * 262144 + b * 16384
  | .xscacc d a b x => 2684358656 + d * 4194304 + a * 262144 + b * 16384 + x * 4
  | .oclaim a => 2717908992 + a * 262144
  | .orelease a => 2717910016 + a * 262144
  | .oload a s => 2717911040 + a * 262144 + s * 32
  | .aclear d => 2717912064 + d * 4194304
  | .aload d s => 2717913088 + d * 4194304 + s * 32
  | .astore d s => 2717914112 + d * 4194304 + s * 32
  | .tshape d a => 2751463424 + d * 1048576 + a * 32768
  | .vld d a i => 2952790016 + d * 524288 + a * 8192 + i
  | .vst d a i => 2986344448 + d * 524288 + a * 8192 + i
  | .vlds d a b => 3019898880 + d * 524288 + a * 8192 + b * 128
  | .vsts d a b => 3019898881 + d * 524288 + a * 8192 + b * 128
  | .vldt d a b => 3019898882 + d * 524288 + a * 8192 + b * 128
  | .vldf d a b => 3019898883 + d * 524288 + a * 8192 + b * 128
  | .vgath d a b => 3019898884 + d * 524288 + a * 8192 + b * 128
  | .vscat d a b => 3019898885 + d * 524288 + a * 8192 + b * 128
  | .vscadd d a b => 3019898886 + d * 524288 + a * 8192 + b * 128
  | .vscaddBin d a b => 3019898887 + d * 524288 + a * 8192 + b * 128
  | .vamo d a b o => 3019898896 + d * 524288 + a * 8192 + b * 128 + o
  | .mld d a => 3053453312 + d * 524288 + a * 8192
  | .mst d a => 3053453313 + d * 524288 + a * 8192
  | .vbind d a => 3053453314 + d * 524288 + a * 8192
  | .vunbind d => 3053453315 + d * 524288
  | .xgo d a => 3221225472 + d * 1048576 + a * 32768
  | .xdrain d a b => 3221225473 + d * 1048576 + a * 32768 + b * 1024
  | .xtag d a => 3221225474 + d * 1048576 + a * 32768
  | .pgreq d a b => 3221225475 + d * 1048576 + a * 32768 + b * 1024
  | .xinv a b => 3221225476 + a * 32768 + b * 1024
  | .xfence f t => 3254779904 + f * 32 + t
  | .arrive d o l => 3489660928 + d * 1048576 + o * 32768 + l * 1024
  | .bwait d o l => 3489660944 + d * 1048576 + o * 32768 + l * 1024
  | .barshed d o l => 3489660960 + d * 1048576 + o * 32768 + l * 1024
  | .barjoin d o l => 3489660976 + d * 1048576 + o * 32768 + l * 1024
  | .acq d o l => 3523215360 + d * 1048576 + o * 32768 + l * 1024
  | .acqM d o l => 3523215361 + d * 1048576 + o * 32768 + l * 1024
  | .rel o => 3523215376 + o * 32768
  | .bind o l => 3523215392 + o * 32768 + l * 1024
  | .qpush d o l => 3556769792 + d * 1048576 + o * 32768 + l * 1024
  | .qrecv d o l => 3556769808 + d * 1048576 + o * 32768 + l * 1024
  | .qproxy d o l => 3556769824 + d * 1048576 + o * 32768 + l * 1024
  | .launch d o l => 3590324224 + d * 1048576 + o * 32768 + l * 1024
  | .cwait d o l => 3590324240 + d * 1048576 + o * 32768 + l * 1024
  | .cancel d o => 3590324256 + d * 1048576 + o * 32768
  | .sfence s => 3623878656 + s
  | .coll d o l => 3758096384 + d * 1048576 + o * 32768 + l * 1024
  | .collwait d o l => 3758096400 + d * 1048576 + o * 32768 + l * 1024
  | .collabort d o => 3758096416 + d * 1048576 + o * 32768
  | .decodeIllegalEncoding _ => 0
  | .stage2InvalidationComplete _ => 0
  | .startInterfaceRequest _ => 0
  | .chipTableWrite _ _ => 0
  | .gtcTick => 0
  | .homeArrive => 0
  | .homeBwait => 0
  | .homeBarshed => 0
  | .homeBarjoin => 0
  | .homeAcq => 0
  | .homeRel => 0
  | .homeBind => 0
  | .homeQpush => 0
  | .homeQrecv => 0
  | .shadowQproxy => 0
  | .homeLaunch => 0
  | .homeCwait => 0
  | .homeCancel => 0
  | .homeColl => 0
  | .homeCollwait => 0
  | .homeCollabort => 0
  | .provision => 0
  | .preempt => 0
  | .restore => 0
  | .stop => 0
  | .continueReq => 0
  | .resetReq => 0
  | .inval2 => 0
  | .keyloadRetire => 0
  | .keyloadWindow => 0
  | .keyloadImport => 0
  | .aperture => 0
  | .stage => 0
  | .activate => 0
  | .abort => 0
  | .quiesceComplete => 0
  | .quiesceTimeout => 0
  | .newImageStart => 0
  | .firstHeartbeat => 0
  | .probationTimeout => 0
  | .rollbackRestart => 0
  | .powerOn => 0
  | .tret => 939524098
  | .halt => 939524099
  | .powerLoss => 0

end Sys2Proof
end

