-- ==== Sys2Proof/Config.lean ====
section
/-! DEFINITION. What one implementation fixes and what the manual leaves open. Every opaque constant here has no
body, so nothing can be proved about its value: a statement about the model holds whatever it is. The ones
that take a Nat are applied to the counter `Sys.free`, which a step that takes a free value advances. -/

namespace Sys2Proof.Config

/-- Ticks beyond the least possible that an admitted transfer's XDUE lies after its issue: of the virtual device, the number
of transfers that it has asked for, the bank floor of the launch, HBMSLOTS and HOSTSHARE, and nothing of another tenant
(R171, R362 name what XDUE is computed from and give no formula). Free value (log entry 20). -/
opaque xdueDelay : Nat → Nat → Nat → Nat → Nat → Nat

/-- Whether a unit of a transfer moves in this tick, if it may: of the counter, and of the unit (R171, R179). Free value (log
entry 20). -/
opaque unitNow : Nat → Nat → Bool

/-- Ticks that an xinv is given once nothing holds it up (R147): of the virtual device and the number of xgo and xinv that it has
asked for. Free value (log entry 20). -/
opaque invalDelay : Nat → Nat → Nat

/-- The tick of its span in which an invalidation begins, modulo that span (R147). Free value (log entry 20). -/
opaque unitDelay : Nat → Nat

/-- The HBM4E stack, modulo 12, in which a line of local HBM lies: by its physical address, which the manual does not divide
among the stacks (R379). Free value (log entry 61). -/
opaque stackOf : Nat → Nat

/-- Ticks after its issue, less one, at which a vsave, vrestore or replay completes, taken modulo 8, which no promise of
an xgo would undercut (R133). Free value (log entry 45). -/
opaque saveDelay : Nat → Nat

/-- Where the pattern of a stream that a vrestore has bound lies, by the counter and the register, in units of 64 bytes and taken
modulo the scratchpad's: a save record does not hold it (R135, R166). Free value (log entry 43). -/
opaque streamRecord : Nat → Nat → Nat

/-- Registration delay at another chip's Tulle, taken modulo the span that R275 allows. Free value (log entry 21). -/
opaque regDelay : Nat → Nat

/-- Ticks from the removal of a domain's last cause to the resume tick G, less one (R89). Free value (log entry 22). -/
opaque resumeDelay : Nat → Nat

/-- Ticks the launch unit needs for an entry, less one (R310). Free value (log entry 23). -/
opaque launchWork : Nat → Nat

/-- Ticks from a PREEMPT write to its arrival, taken modulo 65 (R364). Free value (log entry 24). -/
opaque preemptDelay : Nat → Nat

/-- Ticks a management request, self-test or publication takes, less one (R352, R369, R397). Free value (log entry 25). -/
opaque mgmtDelay : Nat → Nat

/-- Ticks a proxy batch takes from sending to its registration, taken modulo its bound (R334). Free value
(log entry 27). -/
opaque proxyDelay : Nat → Nat

/-- Ticks after a write of a window's unit at which a core finds that what another core of its device has acquired of it has come
along (R193): of the core and the unit. Free value (log entry 18). -/
opaque cameAlong : Nat → Nat → Nat

/-- Whether a write of a window's unit by another core of the device comes before a release (R193): of the counter and the unit.
Free value (log entry 18). -/
opaque cameBefore : Nat → Nat → Bool

/-- Which value a read by the new holder takes for a unit of a torn region (R187), taken modulo their number: the one
published by the last release or one the abandoned holder wrote. Free value of the counter and the unit (log entry 28). -/
opaque tornPick : Nat → Nat → Nat

/-- Which entry of a run a translation uses where they differ (R144), taken modulo the run's length. Free value of the counter,
the stage (true: stage 2) and the page (log entry 33). -/
opaque runEntry : Nat → Bool → Nat → Nat

/-- Which value a translation uses while old ones may still be cached (R147), taken modulo their number. Free value of the
counter, the stage (true: stage 2) and the page (log entry 20). -/
opaque oldEntry : Nat → Bool → Nat → Nat

/-- For an 8-byte unit of an outstanding remote load, whether its data crossed before the removal (R386). Free
value (log entry 29). -/
opaque crossed : Nat → Bool

/-- The port, taken modulo 24, over which traffic between this chip and another goes (R317, R326: routes are chosen at
admission and not given). Free value (log entry 21). -/
opaque routePort : Nat → Nat

/-- The port over which the alternate path to another chip goes (R382: one wherever the fabric offers one); 24 and more: none. Free
value (log entry 68). -/
opaque altPort : Nat → Nat

/-- What the power meter of the module shows at the end of 2^20 ticks (R402: physical, averaged over them), taken modulo 2^16: of
the tick. Free value (log entry 72). -/
opaque inputPower : Nat → Nat

/-- The highest sensor reading in a tick in which it lies below TEMERG, taken modulo that (R402). Free value (log entry 72). -/
opaque sensorMax : Nat → Nat

/-- The length of the stall when a port is lost that was ready, taken modulo 32,001 (R382, R392). Free value (log entry 25). -/
opaque stallLength : Nat → Nat

/-- A freshly generated key (R353, R360). Free value (log entry 30). -/
opaque freshKey : Nat → List Byte

/-- The TEXT words of a role of the control program of a virtual device (R315: the manual does not say from where its
image comes). Free value (log entry 41). -/
opaque controlText : Nat → Nat → List Word

/-- The partition word of the control program of a virtual device. Free value (log entry 41). -/
opaque controlPart : Nat → Nat

/-- The bank floor of the control program of a virtual device, taken modulo 4,097 (R76, R315). Free value (log entry 41). -/
opaque controlFloor : Nat → Nat

/-- The energy budget of the control program of a virtual device (R85, R315). Free value (log entry 41). -/
opaque controlEpf : Nat → Nat

/-- Whether an instruction word that a launch fetches from an image that was rewritten meanwhile is the new one (R109): of the
tick, the role and the address. Free value (log entry 3). -/
opaque fetchesNew : Nat → Nat → Nat → Bool

/-- Whether the digest of an image matches whose measured sections were patched for V after it was made (R110). Free value
(log entry 40). -/
opaque measureMatches : Nat → Bool

/-- Slots, less one and taken modulo 64, of the last spill region of an image: R107 leaves the count out of a linked image, and
check 9 of R109 asks for it. Free value (log entry 40). -/
opaque spillSlots : Nat → Nat

/-- Whether an Ed25519 signature verifies: public key, message, signature (R394; log entry 31). -/
opaque ed25519Verify : List Byte → List Byte → List Byte → Bool

/-- Whether an ML-DSA-65 signature verifies: public key, message, signature (R394; log entry 31). -/
opaque mldsaVerify : List Byte → List Byte → List Byte → Bool

/-- The two signatures over an SPDM transcript (R407; log entry 31). -/
opaque spdmSign : List Byte → List Byte

/-- What an SPDM, IDE_KM or TDISP message other than those that R407 gives is answered with: of the transcript. Free value (log
entry 31). -/
opaque spdmAnswer : List Byte → List Byte

/-- What a TDISP interface report carries beside measurement blocks 2 and 4 (R370): of the transcript. Free value (log entry 31). -/
opaque interfaceReport : List Byte → List Byte

/-- SHA-384 of the boot ROM, measurement block 1 (R407). Free value (log entry 31). -/
opaque bootRomDigest : List Byte

/-- The key hash fused in the module (R394). Free value (log entry 31). -/
opaque fusedKeyHash : List Byte

/-- The least security version number fused in the module (R396). Free value (log entry 31). -/
opaque fusedMinSvn : Nat

/-- The scalar byte of a host memory location nothing has written is 0 in this model (log entry 8). -/
def hostFill : Byte := 0

/-- Working lanes of a core, by its number (R22, R124): 64 unless one lane group was retired at test. A DESIGN
CHOICE of this model: every core of the module reports 64 working lanes after power-on; a State may hold
cores of 56 (log entry 9). -/
def resetLanes : Nat := 64

/-- The chip ID strapped by the chassis (R402): 0 in this model (log entry 10). -/
def chipStrap : Nat := 0

end Sys2Proof.Config
end

