-- ==== Sys2Proof/Machine/State.lean ====
section
/-! DEFINITION. The state of the module as plain data (R32 and the records of the chapters): the global tick
counter, the memory, and everything else (`Sys`): cores with their roles, domains, sync homes, virtual devices,
transfers, the key table, the management block and the pending events. No field has a function type. Cores are
numbered chip × 192 + p with p the physical number of R10; virtual devices chip × 32 + n (R346); sync objects by
their handle (R28); physical bytes chip × 2^52 + PA (R140). -/

namespace Sys2Proof.Machine

/-! ## Stops -/

/-- Why the machine stops. -/
inductive Fault where
  /-- Raised by `step` alone: the module has no power (R390, R397) and no event is scheduled that could restore
  it, so nothing can happen any more. Safe: the hardware does nothing there either. -/
  | noPower
  deriving DecidableEq, Repr

/-- Why an instruction has no meaning. -/
inductive Refusal where
  /-- Raised by an arm of `exec` whose instruction has no meaning yet; none is left in this model. Safe. -/
  | notModelled (mnemonic : String)
  deriving DecidableEq, Repr

/-! ## Sparse storage -/

/-- Bytes by address in canonical form: addresses strictly rising, no byte equal to what an unlisted address
reads as, which is zero in every storage of the module (R31, R348; of HBM and the host, log entries 7 and 8). -/
abbrev Mem := List Host.Cell

/-- What a 64-byte line of local HBM is bound to (R354, R355): the key slot and the generation of that slot's key
under which it was last written whole, the intermediate address, and whether it is stored poisoned. A line
without an entry was never written and reads as poison. For host lines only the poison counts. `ecc` tells what an error
of the memory itself has left of the line until it is written whole (R378): 0 nothing, 1 an uncorrectable ECC error, 2
that of a tree node over it; no instruction or event of the table brings one about. -/
structure LineTag where
  slot   : Nat
  gen    : Nat
  ia     : Nat
  poison : Bool
  ecc    : Nat := 0
  deriving DecidableEq, Repr

/-- The physical memory: its bytes and the tags of its 64-byte lines, by line address, strictly rising. -/
structure PMem where
  bytes : Mem
  lines : List (Nat × LineTag)
  deriving DecidableEq, Repr

/-! ## A role -/

/-- The group mode (R37). -/
structure Mode where
  guard : Nat
  gpol  : Bool
  ety   : ETy
  rm    : RMode
  deriving DecidableEq, Repr

/-- The transfer shadow set (R26, R168), in CSRNO order 0x010 to 0x017. -/
structure Shadow where
  xsrc     : Dword
  xdst     : Dword
  xstride0 : Dword
  xstride1 : Dword
  xcount0  : Dword
  xcount1  : Dword
  xchan    : Dword
  xopt     : Dword
  deriving DecidableEq, Repr

/-- An entry of an issue queue (R13, R121): the word (decoded), its address, stamp and sequence number, the scalar
operand values it carries in the order of R135, the carried group mode and control registers, and its
progress: the issue cycle, the rows started (R88), the start index (R293), and partial results; and whether the role's
preceding back-end entry was an `sfence system` (R192). -/
structure Entry where
  instr  : Instr
  addr   : Dword
  stamp  : Nat
  seq    : Nat
  ops    : List Dword
  mode   : Mode
  vl     : Nat
  vtype  : Nat
  seed   : Dword
  strip  : Dword
  bin    : Dword
  shadow : Shadow
  issued : Option Nat
  prog   : Nat
  start  : Nat
  acc    : List Nat
  afterSf : Bool
  deriving DecidableEq, Repr

/-- A scalar scratchpad access that waits for its bank-cycle (R115): load or store, the width code, the target
core and offset, the destination register or the data, and the earliest cycle. -/
structure ScalarAccess where
  isLoad : Bool
  wd     : Nat
  core   : Nat
  off    : Nat
  rd     : Nat
  data   : Nat
  after  : Nat
  deriving DecidableEq, Repr

/-- The role-scope control registers that a handler copies and tret restores (R128, R123). -/
structure Csrs where
  vl        : Nat
  vtype     : Nat
  seed      : Dword
  strip     : Dword
  binbase   : Dword
  flagcause : Dword
  wgen      : Dword
  xdue      : Dword
  shadow    : Shadow
  deriving DecidableEq, Repr

/-- The program state that entry to handler mode sets aside (R128, R131), with whether the cause was raised by the
front end or at the push point (R129), the tick of the entry and the rank of the cause (lower stands, R128), the PC at
which the front end stopped (R128), and whether the program's last back-end instruction was an `sfence system` (R192). -/
structure Aside where
  pc     : Dword
  stop   : Dword
  sregs  : Vector Dword 32
  p      : Int
  d      : Nat
  mode   : Mode
  csrs   : Csrs
  armed  : Bool
  halted : Bool
  front  : Bool
  tick   : Nat
  rank   : Nat
  lastSf : Bool
  deriving DecidableEq, Repr

/-- What a landing writes (R135); `slot` is a vector of an operand slot, which a freeze never holds (R260). -/
inductive Target where
  | vec | mask | scalar | tile | spad | csr | slot
  deriving DecidableEq, Repr

/-- A landing in flight, in the form of R135: its number, its due TTC, the issuing role and entry, what it writes,
the register, mask, tile, slot or CSRNO, the row, the scratchpad address of a 256-byte block (through a write
stream: the number of that stream), the enable mask
(one bit for each container; for a scratchpad block one bit for each byte; for a mask row one bit for each mask
bit), the value as 64 containers, the banks it occupies, the ticket of a home's answer that gives the value
(0: none) with the tick by which that answer must arrive, whether it goes through a write stream (R167), whether it is the
last landing of its entry, the displacement of the chunk that it stores to through a stream, and whether a freeze has
already made it, or found that it takes no effect, so that it only occupies its places until its cycle (R260). -/
structure Landing where
  lid    : Nat
  due    : Nat
  urole  : Nat
  useq   : Nat
  tgt    : Target
  reg    : Nat
  row    : Nat
  addr   : Nat
  enable : Nat
  data   : List Nat
  banks  : Nat
  ticket : Nat
  byTick : Nat
  strm   : Bool
  last   : Bool
  disp   : Int := 0
  done   : Bool := false
  deriving DecidableEq, Repr

/-- A handler-mode back-end instruction that has not completed (R91): the tick at which it completes, the
landings that wait for an answer until then, and whether it is a collwait, whose result fences (R330). -/
structure HandlerOp where
  ready : Nat
  lands : List Landing
  fence : Bool := false
  deriving DecidableEq, Repr

/-- One role of a core (R11, R13, R66, R123, R128). `sregs` holds s0 too, which reads as zero through its accessor.
`lastSf` tells whether its last back-end instruction was an `sfence system` (R192), `vrest` whether it has executed
a vrestore since it entered handler mode (R137). -/
structure RoleSt where
  pc        : Dword
  sregs     : Vector Dword 32
  p         : Int
  d         : Nat
  mode      : Mode
  csrs      : Csrs
  trapcause : Nat
  trappc    : Dword
  trapelem  : Dword
  queue     : List Entry
  nextSeq   : Nat
  armed     : Bool
  halted    : Bool
  counted   : Bool
  handler   : Bool
  aside     : Option Aside
  vrest     : Bool
  hop       : Option HandlerOp
  sacc      : Option ScalarAccess
  text      : List Word
  textBase  : Dword
  pWord     : Dword
  lastSf    : Bool
  deriving DecidableEq, Repr

/-! ## A core -/

/-- One element of a row that a scratchpad access touches: element index, target core, scratchpad offset, and the
data a store or atomic brings. -/
structure Elem where
  idx  : Nat
  core : Nat
  off  : Nat
  data : Nat
  deriving DecidableEq, Repr

/-- A sampled row that has still to read the scratchpad (R77, R78): the cycle of the access, the core whose banks it
occupies and which, and whether a freeze has already made the read, so that it only occupies its banks (R87). -/
structure Pend where
  due   : Nat
  role  : Nat
  seq   : Nat
  k     : Nat
  core  : Nat
  banks : Nat
  elems : List Elem
  done  : Bool := false
  deriving DecidableEq, Repr

/-- A bound stream (R165, R166): its number on the core, the record's address, its pattern and cursor, the cycle from which issuing
instructions use it, and, once it was unbound or replaced, the cycle from which they no longer do. -/
structure Stream where
  sid    : Nat
  reg    : Nat
  recOff : Nat
  base   : Nat
  write  : Bool
  count  : List Nat
  stride : List Int
  cur    : List Nat
  ended  : Bool
  since  : Nat
  till   : Option Nat
  deriving DecidableEq, Repr

/-- A transfer channel of a core (R170, R175): the next sequence number, the entries not yet visible and the
unreported error records (ID, status). -/
structure Chan where
  nextId : Nat
  errors : List (Nat × Nat)
  lastDue : Nat
  deriving DecidableEq, Repr

/-- What a fence makes later accesses of an asynchronous class wait for (R177): entries whose effects are still in
flight (role, sequence number; 2^64 stands for replayed landings, 2^64 + 1 for a scalar access), transfers, the
collective generations (handle, generation, party) of this core, and host accesses received before it. -/
structure Wait where
  ents  : List (Nat × Nat)
  xids  : List Nat
  colls : List (Nat × Nat × Nat)
  host  : Bool
  deriving DecidableEq, Repr

/-- A generation to which a core has contributed with a coll: handle, generation, party; and what its part of the walk waits for,
which fences before the coll have named (R177, R329). -/
structure CollRef where
  key   : Nat × Nat × Nat
  after : Wait
  deriving DecidableEq, Repr

/-- Waiting for nothing. -/
def Wait.none : Wait := { ents := [], xids := [], colls := [], host := false }

/-- One core (R11 to R27). `pool` is the 3 MiB SRAM pool in pool-offset order: vector registers, tiles and scratchpad
(R20); `omem` the operand memory (R25, R250). `busy` counts for each bank the cycles of this frame in which timetabled
accesses used it (R76), `tused` is the last tick whose cycle was checked and the banks that its timetabled
accesses use, `xused` the last tick in which transfer units used banks of this core, and which (R115). `flags0` lists the words whose residency flag is 0 with their
cause (R151), by scratchpad word number; `poison` the marked 64-byte granules (R153); `tags` the tile-slot
tags that are not zero (R149). `bad` lists what an uncorrectable SRAM error has struck (R378), `soft` what a single-bit one
has: the kind of place and its number (0 row k of vector register r: 8r + k, 1 mask, 2 row i of tile t: 128t + i,
3 line l of operand slot o: 2048o + l, 4 scalar n of a role: 32 × role + n, 5 queue entry: 65536 × role + sequence
number, 6 landing, 7 scratchpad line); no instruction or event of the table adds to them, since such an error comes from
outside the machine. -/
structure Core where
  id        : Nat
  roles     : Vector RoleSt 3
  pool      : Mem
  omem      : Mem
  claims    : BitVec 16
  masks     : Vector (BitVec 512) 16
  ringTags  : Vector (BitVec 16) 8
  ringExp   : Vector (BitVec 16) 8
  tsm       : Dword
  tsn       : Dword
  tsk       : Dword
  streams   : List Stream
  streamend : Dword
  tags      : List (Nat × Nat)
  flags0    : List (Nat × Nat)
  poison    : List Nat
  part      : Dword
  cfg       : Dword
  dirty     : Dword
  dirtya    : Dword
  vdid      : Dword
  lease     : Dword
  landings  : List Landing
  pends     : List Pend
  nextLid   : Nat
  chans     : Vector Chan 8
  energy    : Nat
  busy      : List Nat
  tused     : Nat × Nat
  xused     : Nat × Nat
  bad       : List (Nat × Nat)
  soft      : List (Nat × Nat)
  toXfr     : Wait
  toCol     : Wait
  toHst     : Wait
  colls     : List CollRef
  dom       : Nat
  grp       : Nat
  deriving DecidableEq, Repr

/-! ## Domains and launches -/

/-- The states of a domain (R89). -/
inductive DomState where
  | run | frozen | saved | resuming | ended
  deriving DecidableEq, Repr

/-- What a launch loads into one role (R31, R97): its TEXT section, the section's address, its entry point. -/
structure LoadedRole where
  text : List Word
  base : Nat
  pc   : Nat
  deriving DecidableEq, Repr

/-- What a launch loads into one core of its domain: its roles and its scratchpad. -/
structure LoadedCore where
  roles : List LoadedRole
  pool  : Mem
  deriving DecidableEq, Repr

/-- A queued or running launch (R308 to R311): its sequence number, descriptor address, counter handle, first core
index and count, what the unit read from the descriptor and from the image, what it loads, by domain index, and whether its
START is 0, the earliest tick. -/
structure Launch where
  seq     : Nat
  desc    : Nat
  counter : Nat
  first   : Nat
  count   : Nat
  start   : Nat
  args    : Nat
  image   : Nat
  msix    : Nat
  hasParent : Bool
  parent  : Nat
  ppos    : Nat
  det     : Bool
  part    : Dword
  epf     : Nat
  floor   : Nat
  served  : Bool
  digest  : List Byte
  loaded  : List LoadedCore
  asap    : Bool
  deriving DecidableEq, Repr

/-- A domain (R29, R65, R89): its number, virtual device, cores in domain-index order, state, boundary F, TTBASE, and
the causes that hold it: role handlers are found in the roles; `figure` is its frame figure in pJ (R408); `preempt` lists the domain indices whose role L
carries the pre-emption. `kept` holds PART, CFG and LEASE of each core of a saved domain (R365). `checked` is the cycle whose faults have been found, `fronted` the one in which the front
ends have had their turns (R111). -/
structure Domain where
  id      : Nat
  vd      : Nat
  cores   : List Nat
  st      : DomState
  f       : Nat
  ttbase  : Nat
  checked : Option Nat
  fronted : Option Nat
  thermal : Bool
  stopHold : Bool
  cancel  : Bool
  faulted : Bool
  preempt : List Nat
  saved   : List Nat
  control : Bool
  launch  : Launch
  figure  : Nat
  endStatus : Nat
  kept    : List (Dword × Dword × Dword)
  deriving DecidableEq, Repr

/-! ## Sync homes -/

/-- A bound region (R277, R304): base, length, party (255: every party). -/
structure Region where
  base  : Nat
  len   : Nat
  party : Nat
  deriving DecidableEq, Repr

/-- A barrier record (R280); and of the parties that have arrived from other chips, the chip (R388). -/
structure Barrier where
  expect   : BitVec 64
  arrived  : BitVec 64
  deadline : Nat
  abs1     : BitVec 64
  abs2     : BitVec 64
  chips    : List (Nat × Nat) := []
  deriving DecidableEq, Repr

/-- A lock record (R286) with the identity kept beside it (R303), the tick from which the holder has held it without a
break, the core and that tick of the holder it was last taken over from with the regions bound then (R187), and the covered
transfers that a pending release waits for, with the tick at which it issued (R186). -/
structure Lock where
  holder  : Nat
  prev    : Nat
  acqtick : Nat
  expiry  : Nat
  reltick : Nat
  parties : BitVec 64
  hcore   : Nat
  hrole   : Nat
  since   : Nat
  pcore   : Nat
  psince  : Nat
  mended  : List Region
  covers  : List Nat
  relat   : Nat
  deriving DecidableEq, Repr

/-- A queue slot (R289): payload, producer, state (0 free, 1 open, 2 committed), commit order, launch. -/
structure QSlot where
  core    : Nat := 0
  payload : Nat
  prod    : Nat
  st      : Nat
  order   : Nat
  launch  : Nat
  deriving DecidableEq, Repr

/-- A queue record (R289); the occupied slots in push order. -/
structure Queue where
  producers : BitVec 64
  cap       : Nat
  consumers : Nat
  since     : List (BitVec 64)
  slots     : List QSlot
  nextOrder : Nat
  deriving DecidableEq, Repr

/-- A counter record (R291) with its bitmap and, from the descriptor or list entry that wrote it, its parent, its
position there and its MSI-X vector (R309). `state` is 0 RUNNING, 1 DONE, 2 CANCELLED. -/
structure Counter where
  count    : Nat
  target   : Nat
  bitmap   : Nat
  state    : Nat
  donetick : Nat
  hasParent : Bool
  parent   : Nat
  ppos     : Nat
  msix     : Nat
  vd       : Nat
  deriving DecidableEq, Repr

/-- A level of a collective plan (R319). -/
structure PlanLevel where
  count   : Nat
  peermul : Int
  sstride : Int
  dstride : Int
  deriving DecidableEq, Repr

/-- An admitted collective plan (R319, R322). `parties` holds the chip and the core index of each party. -/
structure Plan where
  opk     : Nat
  ety     : ETy
  srcsp   : Bool
  dstsp   : Bool
  switch  : Bool
  tagset  : Bool
  srcbase : Nat
  dstbase : Nat
  chunk   : Nat
  tag     : Nat
  parties : List (Nat × Nat)
  srank   : Int
  drank   : Int
  rankmul : Int
  peeroff : Int
  levels  : List PlanLevel
  deriving DecidableEq, Repr

/-- A word that a walk reads: the rank of its party, its displacement from that party's base, and what was read. -/
structure WalkWord where
  rank : Nat
  disp : Int
  got  : Option (Nat × Bool × Nat)
  deriving DecidableEq, Repr

/-- A unit that a walk delivers (R325): the rank of its walker and the number of the iteration; its displacement from the walker's
base, if the iteration has a place; the words of each of its leaves; and whether a reduction has still to combine them. -/
structure WalkUnit where
  rank   : Nat
  it     : Nat
  dst    : Option Int
  leaves : List (List WalkWord)
  fold   : Bool
  deriving DecidableEq, Repr

/-- A walk under way (R324): its generation and absentees, its promised completion, the tick at which it acts next, whether it
has begun and when, the units that it has still to deliver, what is left of the 64-byte lines that it writes wholly, with poison,
the iterations that have begun, by walker and number, whether it was aborted (R333), the walkers whose tags are set, and the far ends
that were removed with data of it perhaps across (R386). -/
structure Walk where
  gen    : Nat
  absent : BitVec 64
  due    : Nat
  next   : Nat
  begun  : Bool
  since  : Nat
  left   : List WalkUnit
  whole  : List (Nat × Nat × Bool)
  opened : List (Nat × Nat)
  aborted : Bool
  tagged : List Nat
  crossed : List Nat := []
  deriving DecidableEq, Repr

/-- A collective handle (R321) with the walks of its generations (R324). `state1` is 0 RUNNING, 1 DONE, 2 ABORTED. -/
structure Coll where
  expect   : BitVec 64
  arrived  : BitVec 64
  deadline : Nat
  abs1     : BitVec 64
  planVa   : Nat
  span     : Nat
  state1   : Nat
  pdone1   : Nat
  plan     : Option Plan
  w0       : Nat
  walks    : List Walk
  deriving DecidableEq, Repr

/-- What a record holds besides its common bytes (R276). -/
inductive Body where
  | free
  | barrier (b : Barrier)
  | lock    (l : Lock)
  | queue   (q : Queue)
  | counter (c : Counter)
  | coll    (c : Coll)
  deriving DecidableEq, Repr

/-- A sync object (R276, R277): its handle, owner, flags, generation, region table and body. -/
structure Obj where
  key      : Nat
  vdid     : Nat
  window   : Bool
  s7       : Bool
  torn     : Bool
  resolved : Nat
  gen      : Nat
  regions  : List Region
  parts    : Nat
  body     : Body
  deriving DecidableEq, Repr

/-- The answer of a home on its way back (R275, R279): ticket, arrival tick, first word, status word, and the far end of the link
that it crosses. -/
structure Answer where
  ticket : Nat
  tick   : Nat
  first  : Nat
  status : Nat
  far    : Option Nat := none
  deriving DecidableEq, Repr

/-- A proxy shadow (R307, R334, R335): chip, queue handle, entries accepted and not sent (with their acceptance ticks),
batches under way, and refusals counted for each producer. -/
structure ProxyShadow where
  chip    : Nat
  obj     : Nat
  waiting : List (Nat × HomeMsg)
  flying  : List (Nat × List HomeMsg)
  refused : List (Nat × Nat)
  nextBatch : Nat
  deriving DecidableEq, Repr

/-! ## Transfers -/

/-- A destination unit of a transfer with the 4-byte words that go there (R178): the address of the first, or none for words
that are read for the transfer itself, its indices or ciphertext; and of each word the address it comes from and, once
it is read, its value, whether it is poisoned and its cause (0 data, 1 NONRES, 3 REMOTE; of a decrypt's source 2 an
unbacked one). An address is a virtual one, or a place: core × 2^22 + pool offset. -/
structure Move where
  dst : Option Nat
  src : List (Nat × Option (Nat × Bool × Nat))
  deriving DecidableEq, Repr

/-- A translation in use (R145): intermediate address, physical address, slot, writable, host-shared. -/
structure Xlat where
  ia     : Nat
  pa     : Nat
  slot   : Nat
  wr     : Bool
  hostsh : Bool
  deriving DecidableEq, Repr

/-- A transfer-unit entry (R168, R170 to R176): issuing core and role, channel and ID, kind (0 copy, 1 gather,
2 scatter, 3 decrypt, 4 invalidation, 5 the write of a slot tag by xtag, 6 gang delivery), the carried shadow set and
VL, the ticks of its issue and of its XDUE, the tick from which it uses every chance to move and the bank-cycles of one bank
that it may need (R76, R171), what it waits for (R177), its status, and how far it is: 0 indices or
ciphertext still to be read, or an invalidation under way, 1 units still to be moved, 2 all written, 3 visible. Then its
indices; what it has still to move, and whether two words of it have one destination; the translations that an indexed
transfer has made (R148); the lines of memory or granules of scratchpads that it writes whole, each with the words it has
still to write there and whether one written was poisoned (R153, R355); the slots (or ring registers) with their cores
whose tags it has still to set (R150, R173); the bad lines that it has reported; the generation of a decrypt's key; the first tick in
which it could move; and the far ends that were removed with data of it perhaps across (R386). -/
structure Xfer where
  xid    : Nat
  core   : Nat
  role   : Nat
  chan   : Nat
  id     : Nat
  kind   : Nat
  shadow : Shadow
  vl     : Nat
  issue  : Nat
  due    : Nat
  urge   : Nat
  load   : Nat
  after  : Wait
  status : Nat
  stage  : Nat
  idx    : List Nat
  moves  : List Move
  dups   : Bool
  trans  : List (Nat × Option Xlat)
  whole  : List (Nat × Nat × Bool)
  tags   : List (Nat × Nat)
  noted  : List Nat
  keygen : Nat
  begun  : Option Nat := none
  crossed : List Nat := []
  deriving DecidableEq, Repr

/-! ## Virtual devices, keys -/

/-- The states of a virtual device (R349, R353). -/
inductive VdState where
  | absent | provisioning | running | preempting | saved | stopping | stopped | resetting | restoring
  deriving DecidableEq, Repr

/-- A virtual device (R346, R349, R350, R404): its registers, the provisioning descriptor's fields, its launch unit's
FIFO, its chip table (R351), the dirty-page record (R369) and the pages that provisioning filled with zeros (R353):
intermediate base, physical base, size. `xgos` counts the transfers that it has asked for, `reqNo` the requests of VDCTL that it
has accepted: an event of an earlier one is void. `jobPushes` counts the pushes of the host that the port has taken (R405). -/
structure Vdev where
  key      : Nat
  st       : VdState
  result   : Nat
  detail   : Nat
  busy     : Bool
  dpready  : Bool
  stoppedBit : Bool
  savelate : Bool
  tdi      : Nat
  arg0     : Nat
  arg1     : Nat
  s2count  : Nat
  s2gran   : Nat
  cores    : List Nat
  control  : Nat
  hbmslots : Nat
  hostshare : Nat
  zero     : Bool
  dirtytrack : Bool
  lease    : Nat
  s2root   : Nat
  savedl   : Nat
  dprbase  : Nat
  dprsize  : Nat
  bres     : Nat
  rlat     : Nat
  nchips   : Nat
  pgqueue  : Nat
  jobq     : Nat
  dieobj   : List (Nat × Nat)
  tulobj   : Nat × Nat
  xgroup   : List Nat
  s1root   : Nat
  jobLast  : Nat
  jobRefused : Nat
  jobAccepted : Nat
  jobPending : Nat
  fifo     : List Launch
  launchSeq : Nat
  chipTable : List (Nat × Nat × Nat)
  released : List Nat
  dirtySet : List Nat
  zeroed   : List (Nat × Nat × Nat)
  dprOver  : Bool
  round    : Nat
  descDigest : List Byte
  imageChain : List Byte
  xgos     : Nat
  reqNo    : Nat
  since    : Nat := 0
  jobPushes : Nat := 0
  deriving DecidableEq, Repr

/-- A slot of the key table (R359, R360): kind 0 EMPTY, 1 memory or device key, 2 WINDOW, 3 IMPORT; the generation of
its key, owner, participants, window object, stream ID and next counter. -/
structure KeySlot where
  kind   : Nat
  gen    : Nat
  owner  : Nat
  parts  : Nat
  wobj   : Nat
  stream : Nat
  next   : Nat
  key    : List Byte
  deriving DecidableEq, Repr

/-- A write of an 8-byte unit of a gauze window (R178, R193): the virtual device and the core (of the host, none) that made it, the
tick of its instruction and its own, the bytes it carries, whether a release on the window's object has published it, and the
cores of other participants that have acquired it, each with its virtual device. -/
structure WinEvent where
  writer   : Nat
  wcore    : Option Nat
  issue    : Nat
  tick     : Nat
  bytes    : List (Option Byte)
  released : Bool
  got      : List (Nat × Nat)
  deriving DecidableEq, Repr

/-- An 8-byte unit of a gauze window that some participant wrote: its physical key over eight, the chip, the window's slot, the bytes
before the first write, and the writes in their order (co of R180). -/
structure WinUnit where
  unit : Nat
  chip : Nat
  slot : Nat
  init : List Byte
  evs  : List WinEvent
  deriving DecidableEq, Repr

/-- An aligned 8-byte unit of memory (R178) that a lock's holder has written in its tenure (R187): its physical key over
eight, the lock, the virtual addresses under which it was written, the value that the last release published followed by those
written since, and, once the lock was taken over, the new holder's core and the tick from which it holds the lock: for its reads
the unit is torn. -/
structure TornUnit where
  unit   : Nat
  obj    : Nat
  vas    : List Nat
  vals   : List (List Byte)
  reader : Option (Nat × Nat)
  deriving DecidableEq, Repr

/-- A translation of one 64 KiB page that a cache may hold (R147): virtual device, stage (true: stage 2), the input address
over 64 KiB, the output address of the page's first byte and the leaf. -/
structure Cached where
  vd   : Nat
  st2  : Bool
  page : Nat
  out  : Nat
  leaf : Nat
  deriving DecidableEq, Repr

/-! ## Management -/

/-- A Phithar port (R381 to R383): up, whether its spare lane is in use, until when it stalls or last stalled and for how long, and
since when it has been down after it was up. -/
structure Port where
  up    : Bool
  spare : Bool
  stall : Nat
  len   : Nat
  lost  : Option Nat
  deriving DecidableEq, Repr

/-- A firmware image slot (R394): SVN, HOVER, HOVMIN and its DIGEST. -/
structure FwImage where
  svn    : Nat
  hover  : Nat
  hovmin : Nat
  digest : List Byte
  deriving DecidableEq, Repr

/-- The states of a live update (R397). -/
inductive FwState where
  | idle | staging | staged | quiescing | handover | probation | rollback
  deriving DecidableEq, Repr

/-- An entry of the MSI-X table of a function (R346, R363, R400): 64 × function + vector, message address and data, its mask bit
and its pending bit. -/
structure Msix where
  key  : Nat
  addr : Nat
  data : Nat
  mask : Bool
  pend : Bool
  deriving DecidableEq, Repr

/-- The management block (R391, R395, R402) and what stands behind it: power, thermal emergency, firmware slots, the
copy of the last event records (R406). `evposted` counts the records of this tick, which the host sees with HEAD
from the next on (R403). -/
structure Mgmt where
  power   : Bool
  ready   : BitVec 64
  chip    : Nat
  evbase  : Nat
  evsize  : Nat
  evhead  : Nat
  evtail  : Nat
  evlost  : Nat
  evvec   : Nat
  evposted : Nat
  tcrit   : Nat
  temerg  : Nat
  temp    : Nat
  watts   : Nat
  palloc  : Vector Nat 32
  emergency : Bool
  fwarg   : Nat
  fwresult : Nat
  fwstate : FwState
  active  : Bool
  slotA   : Option FwImage
  slotB   : Option FwImage
  fwtick  : Nat
  handover : Nat
  recent  : List (List Byte)
  ports   : Vector Port 24
  hostGone : Bool
  hostStall : Nat
  removed : List (Nat × Nat)
  vectors : List Msix
  sensed  : Bool := false
  transcripts : List (Nat × List Byte) := []
  deriving DecidableEq, Repr

/-- The corrections that a source has counted since its last CORRECTED record (R378, R379): SOURCE, the virtual device
concerned, the last corrected address, the count, and the tick of the last record. -/
structure Corrected where
  source : Nat
  vd     : Nat
  addr   : Nat
  count  : Nat
  last   : Option Nat
  deriving DecidableEq, Repr

/-- What the device sends out of the machine: an MSI-X message (function, vector, address, data), the completion of a host read
(data, EP), an Unsupported Request, an SPDM response, an MCTP answer. -/
inductive Out where
  | msix (fn vec addr data : Nat)
  | readCompletion (fn off : Nat) (data : List Byte) (ep : Bool)
  | unsupported (fn off : Nat)
  | spdm (fn : Nat) (blocks : List (List Byte)) (signature : List Byte)
  | mctp (kind off : Nat) (data : List Byte)
  deriving DecidableEq, Repr

/-- A write to memory that becomes visible at the next tick, or a message that leaves after the writes before it
(R363): bytes of one line at a physical address under a key slot, generation and intermediate address, with poison,
whether the line counts as written whole before (R353, R355), and whether with them its access has written the line whole,
poison then being that of the whole; the retirement of a page range's old lines. -/
inductive Post where
  | write (pa : Nat) (slot gen ia : Nat) (data : List Byte) (poison fresh whole : Bool)
  | wipe (pa len : Nat)
  | send (o : Out)
  deriving DecidableEq, Repr

/-- What acts next within a tick: an event with the message it serves, the scheduled events that are due before or
after the domains' cycles, the front end of a role of a core, all domains' cycles, one domain's cycle, or the
back ends of one domain in a phase (0 issue, 1 sample, 2 scratchpad reads, 3 scalar accesses, 4 landings). -/
inductive Turn where
  | ev (i : Instr) (m : HomeMsg)
  | due (late : Bool)
  | front (core role : Nat)
  | cycle
  | dom (d : Nat)
  | back (d phase : Nat)
  deriving DecidableEq, Repr

/-- Everything but the tick counter and the memory. -/
structure Sys where
  cores   : List Core
  doms    : List Domain
  nextDom : Nat
  objs    : List Obj
  answers : List Answer
  nextTicket : Nat
  shadows : List ProxyShadow
  xfers   : List Xfer
  nextXid : Nat
  vds     : List Vdev
  keys    : List (Nat × KeySlot)
  window  : List WinUnit
  torn    : List TornUnit
  cached  : List Cached
  apertures : List (Nat × Nat × Nat × Nat)
  mgmt    : Mgmt
  outbox  : List Out
  posts   : List Post
  sched   : List (Nat × Instr × HomeMsg)
  agenda  : List Turn
  msg     : HomeMsg
  curCore : Nat
  curRole : Nat
  free    : Nat
  corrected : List Corrected
  deriving DecidableEq, Repr

/-- The machine's state. -/
structure State where
  gtc : Nat
  mem : PMem
  sys : Sys
  deriving DecidableEq, Repr

/-! ## Initial values -/

/-- The group mode of R31: m0, polarity as written, b32, rne. -/
def Mode.launch : Mode := { guard := 0, gpol := false, ety := .b32, rm := .rne }

/-- The shadow set of R31: all zero. -/
def Shadow.zero : Shadow := {
  xsrc := 0, xdst := 0, xstride0 := 0, xstride1 := 0, xcount0 := 0, xcount1 := 0,
  xchan := 0, xopt := 0 }

/-- The role-scope control registers at launch (R31, R123): zero, but VTYPE 5. -/
def Csrs.launch : Csrs := {
  vl := 0, vtype := 5, seed := 0, strip := 0, binbase := 0, flagcause := 0, wgen := 0,
  xdue := 0, shadow := .zero }

/-- A role that runs nothing: the register values of R31 with an empty TEXT section; it counts as halted until
a launch gives it one. -/
def RoleSt.cleared : RoleSt := {
  pc := 0, sregs := Vector.replicate 32 0, p := -1, d := 0, mode := .launch,
  csrs := .launch, trapcause := 0, trappc := 0, trapelem := 0, queue := [], nextSeq := 0,
  armed := false, halted := true, counted := true, handler := false, aside := none, vrest := false, hop := none,
  sacc := none, text := [], textBase := 0, pWord := 0, lastSf := false }

/-- The message that no event carries. -/
def noMsg : HomeMsg := {
  obj := 0, party := 0, gen := 0, dl := 0, aux := 0, core := 0, role := 0, launch := 0,
  ticket := 0 }

/-- A core after its pool, operand memory and tags are cleared (R348, R31): W as the part reports it. -/
def Core.cleared (id : Nat) (lanes : Nat) (rgroup : Nat) : Core := {
  id := id,
  roles := Vector.replicate 3 .cleared, pool := [], omem := [], claims := 0, masks := Vector.replicate 16 0,
  ringTags := Vector.replicate 8 0, ringExp := Vector.replicate 8 0, tsm := 0, tsn := 0, tsk := 0, streams := [],
  streamend := 0, tags := [], flags0 := [], poison := [], part := 0,
  cfg := BitVec.ofNat 64 (lanes * 256 + (if lanes = 64 then 0 else 524288 + rgroup % 8 * 65536)), dirty := 0,
  dirtya := 0, vdid := 0, lease := 0, landings := [], pends := [], nextLid := 1,
  chans := Vector.replicate 8 { nextId := 1, errors := [], lastDue := 0 }, energy := 0, busy := [], tused := (0, 0), xused := (0, 0), bad := [], soft := [],
  toXfr := .none, toCol := .none, toHst := .none, colls := [], dom := 0, grp := 0 }

/-- The core at its number when the list holds none: cleared, 64 lanes (log entry 9). -/
def Core.atReset (id : Nat) : Core := .cleared id Config.resetLanes 0

/-- A launch of nothing (the control program's domain carries one, R315). -/
def Launch.none : Launch := {
  seq := 0, desc := 0, counter := 0, first := 0, count := 0, start := 0, args := 0,
  image := 0, msix := 65535, hasParent := false, parent := 0, ppos := 0, det := false, part := 0, epf := 0,
  floor := 0, served := false, digest := [], loaded := [], asap := true }

/-- A virtual device that does not exist (R346, R349): every register at its reset value, its measurements zero (R407). -/
def Vdev.absent (key : Nat) : Vdev := {
  key := key, st := .absent, result := 0, detail := 0,
  busy := false, dpready := false, stoppedBit := false, savelate := false, tdi := 0, arg0 := 0, arg1 := 0,
  s2count := 0, s2gran := 0, cores := [], control := 0, hbmslots := 0, hostshare := 0, zero := false,
  dirtytrack := false, lease := 0, s2root := 0, savedl := 0, dprbase := 0, dprsize := 0, bres := 0, rlat := 0,
  nchips := 0, pgqueue := 0, jobq := 0, dieobj := [], tulobj := (0, 0), xgroup := [], s1root := 0, jobLast := 0,
  jobRefused := 0, jobAccepted := 0, jobPending := 0, fifo := [], launchSeq := 0, chipTable := [],
  released := [], dirtySet := [], zeroed := [], dprOver := false, round := 0, descDigest := List.replicate 48 0,
  imageChain := List.replicate 48 0, xgos := 0, reqNo := 0 }

/-- An empty key slot (R359). -/
def KeySlot.empty : KeySlot := {
  kind := 0, gen := 0, owner := 0, parts := 0, wobj := 0, stream := 0, next := 0,
  key := [] }

/-- The management block at reset (R391, R395, R402): EVVEC 32, TCRIT 1,680, TEMERG 1,520, everything else 0. The
firmware slots after power-on: slot A holds an image (log entry 13). -/
def Mgmt.reset : Mgmt := {
  power := true, ready := 0, chip := Config.chipStrap, evbase := 0, evsize := 0, evhead := 0,
  evtail := 0, evlost := 0, evvec := 32, evposted := 0, tcrit := 1680, temerg := 1520, temp := 0, watts := 0,
  palloc := Vector.replicate 32 0, emergency := false, fwarg := 0, fwresult := 0, fwstate := .idle, active := false,
  slotA := some { svn := 0, hover := 0, hovmin := 0, digest := [] }, slotB := none, fwtick := 0, handover := 0,
  recent := [], ports := Vector.replicate 24 { up := false, spare := false, stall := 0, len := 0, lost := none },
  hostGone := false, hostStall := 0, removed := [], vectors := [] }

/-- Everything but tick counter and memory right after reset: no virtual device exists, no core runs, no object
is allocated, the key table is empty (READY.KEYTAB is 0, R391), nothing is pending. -/
def Sys.reset : Sys := {
  cores := [], doms := [], nextDom := 1, objs := [], answers := [], nextTicket := 1,
  shadows := [], xfers := [], nextXid := 1, vds := [], keys := [], window := [], torn := [], cached := [], apertures := [], mgmt := .reset, outbox := [],
  posts := [], sched := [], agenda := [], msg := noMsg, curCore := 0, curRole := 0, free := 0, corrected := [] }

/-- The machine right after reset (R391): GTC 0 (log entry 13), memory with nothing listed. -/
def State.reset : State := { gtc := 0, mem := { bytes := [], lines := [] }, sys := .reset }

end Sys2Proof.Machine
end

