-- ==== Sys2Proof/Machine/Bits.lean ====
section
/-! DEFINITION. Numbers, fields and sparse storage: bit fields (R2), two's complement, little-endian byte runs (R3),
and the sorted byte lists that hold pools, operand memories and physical memory. -/

namespace Sys2Proof.Machine

/-! ## Numbers -/

/-- Bits [hi:lo] of x (R2). -/
def field (x hi lo : Nat) : Nat := x / 2 ^ lo % 2 ^ (hi + 1 - lo)

/-- Two's complement reading of the low w bits (R2). -/
def sx (w x : Nat) : Int := if x % 2 ^ w < 2 ^ (w - 1) then (x % 2 ^ w : Nat) else ((x % 2 ^ w : Nat) : Int) - (2 ^ w : Nat)

/-- An integer modulo 2^w, as an unsigned value. -/
def wrap (w : Nat) (x : Int) : Nat := (x % ((2 ^ w : Nat) : Int)).toNat

/-- A 64-bit register value. -/
def d64 (x : Nat) : Dword := BitVec.ofNat 64 x

/-- 1 for true. -/
def b01 (b : Bool) : Nat := if b then 1 else 0

/-- x with bit i set. -/
def setBit (x i : Nat) : Nat := x ||| 1 <<< i

/-- x with bit i cleared. -/
def clearBit (x i : Nat) : Nat := if x.testBit i then x - 2 ^ i else x

/-- Quotient rounded up. -/
def ceilDiv (a b : Nat) : Nat := (a + b - 1) / b

/-- Number of one bits among bits 0 to n − 1. -/
def popcount : Nat → Nat → Nat
  | 0, _ => 0
  | n + 1, x => popcount n x + b01 (x.testBit n)

/-- Leading zero bits of the low w bits of x. -/
def clz : Nat → Nat → Nat
  | 0, _ => 0
  | w + 1, x => if x.testBit w then 0 else 1 + clz w x

/-- Index of the lowest set bit among bits 0 to n − 1. -/
def lowestBit (n x : Nat) : Option Nat := (List.range n).find? fun i => x.testBit i

/-- The bits i < n for which p holds, as a mask. -/
def maskOf (n : Nat) (p : Nat → Bool) : Nat :=
  (List.range n).foldl (fun m i => if p i then setBit m i else m) 0

/-! ## Keyed lists -/

/-- Put x into a list that is ordered by key, replacing the element of its key. -/
def putBy {α : Type} (key : α → Nat) (x : α) : List α → List α
  | [] => [x]
  | a :: l => if key a = key x then x :: l else if key x < key a then x :: a :: l else a :: putBy key x l

/-- The element of a key. -/
def getBy {α : Type} (key : α → Nat) (k : Nat) (l : List α) : Option α := l.find? fun a => key a == k

/-! ## Bytes -/

/-- The n bytes of x, lowest first (R3). -/
def toBytes : Nat → Nat → List Byte
  | 0, _ => []
  | n + 1, x => BitVec.ofNat 8 x :: toBytes n (x / 256)

/-- The number that bytes hold, lowest first (R3). -/
def ofBytes : List Byte → Nat
  | [] => 0
  | b :: l => b.toNat + 256 * ofBytes l

/-- The n bytes of x, highest first. -/
def toBytesBE (n x : Nat) : List Byte := (toBytes n x).reverse

/-- The number that bytes hold, highest first. -/
def ofBytesBE (l : List Byte) : Nat := ofBytes l.reverse

/-! ## Sparse bytes -/

/-- The byte at an address; zero where none is listed. -/
def Mem.read : Mem → Nat → Byte
  | [], _ => 0
  | (a, b) :: m, x => if a = x then b else Mem.read m x

/-- Put a byte at its place in the order of addresses. -/
def Mem.put : Mem → Nat → Byte → Mem
  | [], x, v => [(x, v)]
  | (a, b) :: m, x, v =>
    if a = x then (x, v) :: m else if x < a then (x, v) :: (a, b) :: m else (a, b) :: Mem.put m x v

/-- Write one byte; writing zero removes the entry. -/
def Mem.write (m : Mem) (x : Nat) (v : Byte) : Mem := if v = 0 then m.filter fun c => c.1 != x else Mem.put m x v

/-- Write a run of bytes from an address upward. -/
def Mem.writes (m : Mem) (a : Nat) : List Byte → Mem
  | [] => m
  | b :: l => Mem.writes (Mem.write m a b) (a + 1) l

/-- The n bytes from an address upward. -/
def Mem.bytes (m : Mem) (a n : Nat) : List Byte := (List.range n).map fun i => Mem.read m (a + i)

/-- The little-endian number in n bytes (R3). -/
def Mem.nat (m : Mem) (a n : Nat) : Nat := ofBytes (Mem.bytes m a n)

/-- Clear every byte from lo up to hi (exclusive). -/
def Mem.clear (m : Mem) (lo hi : Nat) : Mem := m.filter fun c => c.1 < lo || hi ≤ c.1

/-- Addresses above a bound rise strictly and no listed byte is zero. -/
def Mem.wfFrom : Nat → Mem → Bool
  | _, [] => true
  | n, (a, b) :: m => decide (n ≤ a) && decide (b ≠ 0) && Mem.wfFrom (a + 1) m

/-- The canonical form of sparse bytes: addresses strictly rising, no entry equal to what an unlisted address reads
as. -/
def Mem.wf (m : Mem) : Bool := Mem.wfFrom 0 m

/-- Line tags with rising addresses from a bound. -/
def linesWfFrom : Nat → List (Nat × LineTag) → Bool
  | _, [] => true
  | n, (a, _) :: m => decide (n ≤ a) && linesWfFrom (a + 1) m

/-- The canonical form of the physical memory: of its bytes and of its line tags. -/
def Memory.wf (m : PMem) : Bool := Mem.wf m.bytes && linesWfFrom 0 m.lines

/-- The tag of a line, if it was ever written. -/
def tagOf : List (Nat × LineTag) → Nat → Option LineTag
  | [], _ => none
  | (a, t) :: m, x => if a = x then some t else if x < a then none else tagOf m x

/-- Give a line its tag. -/
def putTag : List (Nat × LineTag) → Nat → LineTag → List (Nat × LineTag)
  | [], x, t => [(x, t)]
  | (a, u) :: m, x, t =>
    if a = x then (x, t) :: m else if x < a then (x, t) :: (a, u) :: m else (a, u) :: putTag m x t

end Sys2Proof.Machine
end

