-- ==== Sys2Proof/Machine/Access.lean ====
section
/-! DEFINITION. Reading and writing the parts of a core: roles and scalar registers (R11), the partition (R15, R16,
R20), vector, mask and tile storage (R18, R21 to R23, R248), scratchpad addresses (R27, R347) and the flags, tags
and poison marks of the scratchpad (R149 to R153). -/

namespace Sys2Proof.Machine

/-! ## Cores, roles, domains -/

/-- The core of a number. -/
def coreOf (y : Sys) (id : Nat) : Core := (getBy Core.id id y.cores).getD (.atReset id)

/-- Put a core back. -/
def setCore (y : Sys) (c : Core) : Sys := { y with cores := putBy Core.id c y.cores }

/-- Role 0 L, 1 C, 2 S of a core (R11). -/
def Core.role (c : Core) (r : Nat) : RoleSt := if r = 0 then c.roles[0] else if r = 1 then c.roles[1] else c.roles[2]

/-- Replace a role of a core. -/
def Core.setRole (c : Core) (r : Nat) (v : RoleSt) : Core := { c with roles := c.roles.setIfInBounds r v }

/-- A role of a core of the machine. -/
def roleOf (y : Sys) (core r : Nat) : RoleSt := (coreOf y core).role r

/-- Replace a role of a core of the machine. -/
def setRole (y : Sys) (core r : Nat) (v : RoleSt) : Sys := setCore y ((coreOf y core).setRole r v)

/-- The role that acts. -/
def me (y : Sys) : RoleSt := roleOf y y.curCore y.curRole

/-- Replace the role that acts. -/
def setMe (y : Sys) (v : RoleSt) : Sys := setRole y y.curCore y.curRole v

/-- Scalar register n; s0 reads as zero (R11). -/
def RoleSt.s (r : RoleSt) (n : Nat) : Dword := if n = 0 then 0 else (r.sregs[n]?).getD 0

/-- Write scalar register n; a write to s0 is discarded (R11, R111). -/
def RoleSt.setS (r : RoleSt) (n : Nat) (v : Dword) : RoleSt :=
  if n = 0 then r else { r with sregs := r.sregs.setIfInBounds n v }

/-- The domain of a number. -/
def domAt (y : Sys) (d : Nat) : Option Domain := getBy Domain.id d y.doms

/-- Put a domain back. -/
def setDom (y : Sys) (d : Domain) : Sys := { y with doms := putBy Domain.id d y.doms }

/-- A domain that is not there: ended, without cores. -/
def Domain.none : Domain := {
  id := 0, vd := 0, cores := [], st := .ended, f := 0, ttbase := 0, checked := Option.none, fronted := Option.none, thermal := false,
  stopHold := false, cancel := false, faulted := false, preempt := [], saved := [], control := false,
  launch := .none, figure := 0, endStatus := 0, kept := [] }

/-- The domain that a core runs in. -/
def domOfCore (y : Sys) (core : Nat) : Domain := (domAt y (coreOf y core).dom).getD .none

/-- TTC of a domain: GTC − TTBASE while it runs (R65), F while it is frozen (R123). -/
def Domain.ttc (d : Domain) (gtc : Nat) : Nat := if d.st = .run then gtc - d.ttbase else d.f

/-- The domain runs its present cycle: it is running, or it has frozen in this very cycle (R82). -/
def Domain.inCycle (d : Domain) : Bool := d.st == .run || (d.st == .frozen && d.checked != some d.f)

/-- The domain index of a core (R10). -/
def Domain.indexOf (d : Domain) (core : Nat) : Nat := (d.cores.findIdx? (· == core)).getD 0

/-- The physical core that a domain index names, if it lies below N (R10). -/
def Domain.coreAt (d : Domain) (k : Nat) : Option Nat := d.cores[k]?

/-- The virtual device of a key (chip × 32 + n). -/
def vdOf (y : Sys) (k : Nat) : Vdev := (getBy Vdev.key k y.vds).getD (.absent k)

/-- Put a virtual device back. -/
def setVd (y : Sys) (v : Vdev) : Sys := { y with vds := putBy Vdev.key v y.vds }

/-- The chip of a core number. -/
def chipOf (core : Nat) : Nat := core / 192

/-- The die of a core number (R10). -/
def dieOf (core : Nat) : Nat := core % 192 / 48

/-- The key of the virtual device that holds a core (R123, R346). -/
def vdKeyOf (y : Sys) (core : Nat) : Nat := chipOf core * 32 + (coreOf y core).vdid.toNat % 32

/-! ## Lanes (R22, R124) -/

/-- W of CFG. -/
def Core.lanes (c : Core) : Nat := field c.cfg.toNat 14 8

/-- VLMAX = 8 × W. -/
def Core.vlmax (c : Core) : Nat := 8 * c.lanes

/-- CFG.DET. -/
def Core.det (c : Core) : Bool := c.cfg.toNat.testBit 0

/-- The physical lane of working lane l: ascending, skipping the retired group. -/
def Core.phys (c : Core) (l : Nat) : Nat :=
  if c.cfg.toNat.testBit 19 && decide (8 * field c.cfg.toNat 18 16 ≤ l) then l + 8 else l

/-- The number of rows of VL containers. -/
def Core.rows (c : Core) (vl : Nat) : Nat := ceilDiv vl c.lanes

/-! ## The partition (R15, R16, R20) -/

/-- NV. -/
def nv (part : Nat) : Nat := if field part 1 0 = 0 then 32 else if field part 1 0 = 1 then 48 else 64

/-- NACC. -/
def nacc (part : Nat) : Nat := field part 5 2

/-- CBASE, SBASE, RBASE. -/
def cbase (part : Nat) : Nat := field part 12 6
/-- SBASE. -/
def sbase (part : Nat) : Nat := field part 19 13
/-- RBASE. -/
def rbase (part : Nat) : Nat := field part 26 20

/-- RDIR code of ring register v. -/
def rdir (part v : Nat) : Nat := field part (29 + 3 * (v - rbase part)) (27 + 3 * (v - rbase part))

/-- The constraints of R15 on a partition word. -/
def partOk (part : Nat) : Bool :=
  field part 63 51 == 0 && decide (rbase part ≤ nv part) && decide (nv part - rbase part ≤ 8) &&
  decide (sbase part ≤ rbase part) && decide (cbase part ≤ sbase part) && decide (nacc part ≤ 8) &&
  decide (field part 1 0 ≠ 3) &&
  (List.range 8).all fun j => decide (j < nv part - rbase part) || field part (29 + 3 * j) (27 + 3 * j) == 0

/-- Whether v is a ring register. -/
def isRing (part v : Nat) : Bool := decide (rbase part ≤ v) && decide (v < nv part)

/-- The owning role of a register outside the ring: 0 L, 1 C, 2 S, 3 none (R16). -/
def ownerOf (part v : Nat) : Nat :=
  if nv part ≤ v then 3 else if v < cbase part then 0 else if v < sbase part then 1 else if v < rbase part then 2 else 3

/-- The writer role of a ring code; 3 is the transfer unit (R16). -/
def ringWriter (code : Nat) : Nat :=
  if code ≤ 1 then 0 else if code ≤ 3 then 1 else if code ≤ 5 then 2 else 3

/-- The reader role of a ring code (R16). -/
def ringReader (code : Nat) : Nat :=
  if code = 0 || code = 5 || code = 6 then 1 else if code = 1 || code = 3 then 2 else 0

/-- A role may name v as a source (R17). -/
def mayRead (part role v : Nat) : Bool :=
  if isRing part v then ringReader (rdir part v) == role else decide (v < nv part) && ownerOf part v == role

/-- A role may name v as a destination (R17). -/
def mayWrite (part role v : Nat) : Bool :=
  if isRing part v then ringWriter (rdir part v) == role else decide (v < nv part) && ownerOf part v == role

/-- A pair that one role may name lies in one owner's range, or in the ring with one code (R17). -/
def onePlace (part v : Nat) : Bool :=
  isRing part v == isRing part (v + 1) && (!isRing part v || rdir part v == rdir part (v + 1))

/-- PART of a core as a number. -/
def Core.partN (c : Core) : Nat := c.part.toNat

/-- Pool offset of tile t (R20). -/
def tileBase (part t : Nat) : Nat := 2048 * nv part + 65536 * t

/-- Pool offset of scratchpad offset 0 (R20). -/
def spadBase (part : Nat) : Nat := 2048 * nv part + 65536 * nacc part

/-- Scratchpad size in bytes (R20). -/
def spadSize (part : Nat) : Nat := 3145728 - spadBase part

/-! ## Registers -/

/-- The container of vector register v that holds element i (R21, R22). -/
def Core.vec (c : Core) (v i : Nat) : Nat :=
  Mem.nat c.pool (2048 * v + 256 * (i / c.lanes) + 4 * c.phys (i % c.lanes)) 4

/-- Bit i of mask m; m0 is all ones (R18). -/
def Core.mbit (c : Core) (m i : Nat) : Bool := if m = 0 then true else ((c.masks[m]?).getD 0).getLsbD i

/-- Whether the guard of a group mode makes element i active (R37, R219). -/
def Core.guard (c : Core) (m : Mode) (i : Nat) : Bool := c.mbit m.guard i != m.gpol

/-- Element (i, j) of tile t (R248). -/
def Core.tile (c : Core) (t i j : Nat) : Nat := Mem.nat c.pool (tileBase c.partN t + 512 * i + 4 * j) 4

/-- n bytes of operand slot o from byte b (R250). -/
def Core.slotNat (c : Core) (o b n : Nat) : Nat := Mem.nat c.omem (32768 * o + b) n

/-- Whether a slot is claimed (R25). -/
def Core.claimed (c : Core) (o : Nat) : Bool := c.claims.getLsbD o

/-- The ring tag of register v (R19). -/
def Core.ringTag (c : Core) (v : Nat) : Nat := ((c.ringTags[v - rbase c.partN]?).getD 0).toNat

/-- The expected value of ring register v (R173). -/
def Core.ringExpected (c : Core) (v : Nat) : Nat := ((c.ringExp[v - rbase c.partN]?).getD 0).toNat

/-! ## Scratchpad (R27, R149 to R153) -/

/-- The byte at a scratchpad offset. -/
def Core.sbyte (c : Core) (off : Nat) : Byte := Mem.read c.pool (spadBase c.partN + off)

/-- The number in n bytes of the scratchpad. -/
def Core.snat (c : Core) (off n : Nat) : Nat := Mem.nat c.pool (spadBase c.partN + off) n

/-- Store bytes in the scratchpad; flags, tags and marks stay. -/
def Core.sput (c : Core) (off : Nat) (bs : List Byte) : Core :=
  { c with pool := Mem.writes c.pool (spadBase c.partN + off) bs }

/-- The cause of a word whose residency flag is 0; 0 for a flag of 1 (R151). -/
def Core.flagCause (c : Core) (word : Nat) : Nat := ((c.flags0.find? fun p => p.1 == word).map Prod.snd).getD 0

/-- Set the flag of a word: cause 0 sets it to 1. -/
def Core.setFlag (c : Core) (word cause : Nat) : Core :=
  { c with flags0 := if cause = 0 then c.flags0.filter fun p => p.1 != word
      else putBy Prod.fst (word, cause) c.flags0 }

/-- Whether a read of a byte finds its granule marked (R153): it is, or an uncorrectable error has struck a 16-byte line of
it, which marks it before the read completes (R378). -/
def Core.poisoned (c : Core) (off : Nat) : Bool :=
  c.poison.contains (off / 64) || c.bad.any fun p => p.1 == 7 && p.2 / 4 == off / 64

/-- Mark or unmark a granule; one that is unmarked has been written whole, with new check bits (R378). -/
def Core.setPoison (c : Core) (g : Nat) (on : Bool) : Core :=
  { c with
    poison := if on then putBy (fun x : Nat => x) g c.poison else c.poison.filter fun p => p != g
    bad := if on then c.bad else c.bad.filter fun p => !(p.1 == 7 && p.2 / 4 == g) }

/-- The sequence tag of a tile slot (R149). -/
def Core.slotTag (c : Core) (k : Nat) : Nat := ((c.tags.find? fun p => p.1 == k).map Prod.snd).getD 0

/-- Set the tag of a tile slot. -/
def Core.setTag (c : Core) (k v : Nat) : Core :=
  { c with tags := if v = 0 then c.tags.filter fun p => p.1 != k else putBy Prod.fst (k, v) c.tags }

/-- One row of a back-end write: it stores the enabled bytes, sets the flags of their words to 1 and clears the
mark of every granule of which it writes all 64 bytes (R151, R153). -/
def Core.backWrite (c : Core) (ws : List (Nat × Byte)) : Core :=
  let c := ws.foldl (fun c w => c.sput w.1 [w.2]) c
  let c := ws.foldl (fun c w => c.setFlag (w.1 / 4) 0) c
  (ws.filter fun w => w.1 % 64 == 0).foldl (fun c w =>
    if (List.range 64).all fun i => ws.any fun v => v.1 == w.1 + i then c.setPoison (w.1 / 64) false else c) c

/-- The bank of a pool or scratchpad offset (R20). -/
def bankOf (off : Nat) : Nat := off / 16 % 64

/-- The banks of n bytes at a scratchpad offset, as a mask. -/
def banksOf (off n : Nat) : Nat :=
  if n = 0 then 0 else if 1024 ≤ n then 2 ^ 64 - 1
  else (List.range (ceilDiv n 16 + 1)).foldl (fun m i =>
    if off / 16 + i ≤ (off + n - 1) / 16 then setBit m ((off / 16 + i) % 64) else m) 0

/-- The sixteen banks of row k of a vector register (R21). -/
def quad (k : Nat) : Nat := 65535 <<< (16 * (k % 4))

/-- The thirty-two banks of tile row i (R248). -/
def half (i : Nat) : Nat := (2 ^ 32 - 1) <<< (32 * (i % 2))

/-- The extra cycles of an access from one core to another: 0, 8 on one die, 24 across dies (R78). -/
def crossDelay (a b : Nat) : Nat := if a = b then 0 else if chipOf a = chipOf b && dieOf a = dieOf b then 8 else 24

/-- The target core of a scratchpad address (R27) used by `core`, if the address names one it may reach: bits
[31:30] zero, the index 0xFF or below N, the crossbar group equal (R347). -/
def spTarget (y : Sys) (core a : Nat) : Option Nat :=
  if field a 63 30 ≠ 0 then none
  else
    let t := if field a 29 22 = 255 then some core else (domOfCore y core).coreAt (field a 29 22)
    match t with
    | none => none
    | some t => if (coreOf y t).grp = (coreOf y core).grp && (coreOf y t).vdid == (coreOf y core).vdid then some t else none

/-- The target and offset of a scratchpad address that passes every check of R27. -/
def spAddr (y : Sys) (core a : Nat) : Option (Nat × Nat) :=
  match spTarget y core a with
  | none => none
  | some t => if field a 21 0 < spadSize (coreOf y t).partN then some (t, field a 21 0) else none

/-- The address of an element at displacement d from base b (R155). -/
def elemAddr (y : Sys) (core b : Nat) (d : Int) : Option (Nat × Nat) :=
  if field b 63 30 ≠ 0 then none
  else
    let off := (field b 21 0 : Int) + d
    if off < 0 || off ≥ 4194304 then none
    else spAddr y core (field b 29 22 * 4194304 + off.toNat)

end Sys2Proof.Machine
end

