-- ==== Sys2Proof/Machine/Memory.lean ====
section
/-! DEFINITION. Memory behind the transfer units: physical regions (R140), lines under a key (R354 to R357), the nested
page walk (R141 to R146), the fabric page (R318), and the reads and writes of virtual and intermediate addresses
that transfers, walks and the host make. A write is posted; `drainPosts` stores what was posted when the next tick
begins (log entry 6). -/

namespace Sys2Proof.Machine

/-- What a read of one byte gives: the byte, whether it is poisoned, and a residency cause (0 none, 1 NONRES,
3 REMOTE; R151). -/
structure RdByte where
  val    : Byte
  poison : Bool
  cause  : Nat
  deriving DecidableEq, Repr

/-- Bytes of local HBM that are backed (R140). -/
def hbmTop : Nat := 0x6302DFFFFF + 1

/-- The key of a physical byte in the one store of all chips. -/
def physKey (chip pa : Nat) : Nat := chip * 4503599627370496 + pa

/-- The removal fill 0x7FDA_DBAD, byte by byte (R386). -/
def fillByte (a : Nat) : Byte := BitVec.ofNat 8 (0x7FDADBAD / 256 ^ (a % 4))

/-- A key slot of a chip. -/
def keySlot (y : Sys) (chip slot : Nat) : KeySlot :=
  ((y.keys.find? fun p => p.1 == chip * 64 + slot).map Prod.snd).getD .empty

/-- Replace a key slot. -/
def setKeySlot (y : Sys) (chip slot : Nat) (k : KeySlot) : Sys :=
  { y with keys := putBy Prod.fst (chip * 64 + slot, k) y.keys }

/-- A chip is removed for a virtual device (R385): it was removed at some tick, and the device's job was provisioned no later. -/
def chipRemoved (y : Sys) (vk chip : Nat) : Bool :=
  y.mgmt.removed.any fun p => p.1 == chip && decide ((vdOf y (y.mgmt.chip * 32 + vk % 32)).since ≤ p.2)

/-- The aperture that a region-2 address names, as (owner key, remote base, remote chip) (R140, R357). -/
def apertureOf (y : Sys) (chip pa : Nat) : Option (Nat × Nat × Nat) :=
  (y.apertures.find? fun a => a.1 == chip * 1024 + field pa 49 40).map Prod.snd

/-- The intermediate line of a line that another chip wrote through an aperture, which knows no intermediate address: it is the
owner's, whatever that is (log entry 32). -/
def anyLine : Nat := 2 ^ 46

/-- A line of local HBM verifies under a slot and intermediate address (R355): it was written whole under that slot's
present key and that address, is not stored poisoned and has met no error (R378); or provisioning filled it with zeros and nothing has
written it since. Slot 0 is the device's own. An aperture access (`ia` absent) serves the remote page's own address
(log entry 32). -/
def lineOk (s : State) (vk slot : Nat) (ia : Option Nat) (pa : Nat) : Bool :=
  let chip := vk / 32
  match tagOf s.mem.lines (physKey chip pa / 64) with
  | some t =>
    t.slot == slot && !t.poison && t.ecc == 0 &&
    (match ia with | some i => t.ia == i / 64 || t.ia == anyLine || (keySlot s.sys chip slot).kind == 2 | none => true) &&
    (slot == 0 || ((keySlot s.sys chip slot).kind != 0 && t.gen == (keySlot s.sys chip slot).gen))
  | none =>
    slot == vk % 32 + 1 && (vdOf s.sys vk).zeroed.any fun z =>
      decide (z.2.1 ≤ pa) && decide (pa < z.2.1 + z.2.2) &&
      (match ia with | some i => z.1 + (pa - z.2.1) == i | none => true)

/-- Whether the read of a byte of local HBM under an aperture reaches it: the remote virtual device of the same number
lists the requesting chip in its job (R357). -/
def jobServes (y : Sys) (remoteVk chip : Nat) : Bool :=
  (vdOf y remoteVk).st != .absent && (vdOf y remoteVk).chipTable.any fun t => t.1 == chip

/-- A write of a window's unit is visible to a core of a virtual device, or to its host (R193): it is one of that device's own, or
a release has published it and the core has acquired it. When what another core of the device has acquired has come to this one
is not followed, and free (log entry 18). -/
def WinEvent.seen (e : WinEvent) (g vk : Nat) (core : Option Nat) (unit : Nat) : Bool :=
  decide (e.tick < g) && (e.writer == vk || (core.any fun c => e.got.contains (vk, c)) ||
    (e.got.any (fun p => p.1 == vk) && decide (e.tick + Config.cameAlong (core.elim 0 (· + 1)) unit ≤ g)))

/-- The byte of local HBM that a core of a virtual device (or none) sees at a physical key: in a gauze window the last write, in the
unit's order, that is visible to it (R184, R193). -/
def seenByte (s : State) (vk : Nat) (core : Option Nat) (key : Nat) : Byte :=
  match getBy WinUnit.unit (key / 8) s.sys.window with
  | some w => (w.evs.filter fun e => e.seen s.gtc vk core w.unit).foldl (fun b e => ((e.bytes[key % 8]?).getD none).getD b)
      ((w.init[key % 8]?).getD 0)
  | none => Mem.read s.mem.bytes key

/-- Read one physical byte for a core of a virtual device, or for none, under a slot and intermediate address (R140, R355,
R357, R370, R386, R389). -/
def readPhysBy (core : Option Nat) (s : State) (vk slot ia pa : Nat) : RdByte :=
  let chip := vk / 32
  if field pa 51 50 = 0 then
    if pa < hbmTop && lineOk s vk slot (some ia) pa then ⟨seenByte s vk core (physKey chip pa), false, 0⟩
    else ⟨0, true, 0⟩
  else if field pa 51 50 = 1 then
    if s.sys.mgmt.hostGone then ⟨fillByte pa, false, 3⟩
    else if (vdOf s.sys vk).tdi = 1 then ⟨0, true, 0⟩
    else
      match tagOf s.mem.lines (physKey chip pa / 64) with
      | some t => if t.poison then ⟨0, true, 0⟩ else ⟨Mem.read s.mem.bytes (physKey chip pa), false, 0⟩
      | none => ⟨Mem.read s.mem.bytes (physKey chip pa), false, 0⟩
  else if field pa 51 50 = 2 then
    match apertureOf s.sys chip pa with
    | none => ⟨0, true, 0⟩
    | some (_, base, rchip) =>
      let rpa := base * 1099511627776 + field pa 39 0
      let rvk := rchip * 32 + vk % 32
      if chipRemoved s.sys vk rchip then ⟨fillByte pa, false, 3⟩
      else if rpa < hbmTop && jobServes s.sys rvk chip && lineOk s rvk (vk % 32 + 1) none rpa
      then ⟨Mem.read s.mem.bytes (physKey rchip rpa), false, 0⟩ else ⟨0, true, 0⟩
  else ⟨0, true, 0⟩

/-- Read one physical byte for a virtual device, for no core of it. -/
def readPhys (s : State) (vk slot ia pa : Nat) : RdByte := readPhysBy none s vk slot ia pa

/-! ## Page walks -/

/-- V, the reserved bits, the LEAF rule and the index rule of entry number i of a table that must be a pointer (R142, R143).
RUN at a multiple of its run, and KEY and HOSTSH at stage 2, which R142 has zero and R143 does not call malformed,
are ignored (log entry 79). -/
def pointerOk (st2 : Bool) (i e : Nat) : Bool :=
  e.testBit 0 && !e.testBit 1 && field e 63 52 == 0 && !e.testBit 15 && field e 11 10 == 0 &&
  (st2 || field e 9 3 == 0) && i % 2 ^ field e 14 12 == 0

/-- The same of an entry that must be a leaf of entries spanning 2^w bytes (R143). That the index is a multiple of
2^RUN is read of the run's first entry (log entry 33). -/
def leafOk (st2 : Bool) (w e : Nat) : Bool :=
  e.testBit 0 && e.testBit 1 && field e 63 52 == 0 && !e.testBit 15 && field e 11 10 == 0 &&
  (st2 || field e 9 3 == 0) && (field e 51 16 * 65536) % 2 ^ (w + field e 14 12) == 0

/-- The mapping that an entry f of the run of entry e gives to an address: output address, entry (R144: the FRAME of f is
the base of the whole page). -/
def leafMap (w e f a : Nat) : Nat × Nat := (field f 51 16 * 65536 + a % 2 ^ (w + field e 14 12), f)

/-- The entry that a translation takes out of the run of the entry e, number i of its table: any one of the run's that is
a leaf (R144). -/
def runLeaf (rd : Nat → Option Nat) (st2 : Bool) (pick w table i e : Nat) : Nat :=
  if field e 14 12 = 0 then e
  else
    let n := 2 ^ field e 14 12
    match rd (table + 8 * (i / n * n + pick % n)) with
    | some f => if leafOk st2 w f then f else e
    | none => e

/-- One stage's walk of an address from a root (R141): the output address and the leaf. `pick` says which entry a run
whose entries differ gives. -/
def walk (rd : Nat → Option Nat) (st2 : Bool) (pick root a : Nat) : Option (Nat × Nat) := do
  let e0 ← rd (root + 8 * field a 56 55)
  if !pointerOk st2 (field a 56 55) e0 then none
  else
    let e1 ← rd (field e0 51 16 * 65536 + 8 * field a 54 42)
    if !pointerOk st2 (field a 54 42) e1 then none
    else
      let t2 := field e1 51 16 * 65536
      let e2 ← rd (t2 + 8 * field a 41 29)
      if leafOk st2 29 e2 then some (leafMap 29 e2 (runLeaf rd st2 pick 29 t2 (field a 41 29) e2) a)
      else if !pointerOk st2 (field a 41 29) e2 then none
      else
        let t3 := field e2 51 16 * 65536
        let e3 ← rd (t3 + 8 * field a 28 16)
        if leafOk st2 16 e3 then some (leafMap 16 e3 (runLeaf rd st2 pick 16 t3 (field a 28 16) e3) a) else none

/-- The table entries that a walk of an address reads. -/
def walkPath (rd : Nat → Option Nat) (root a : Nat) : List Nat :=
  let a0 := root + 8 * field a 56 55
  match rd a0 with
  | none => [a0]
  | some e0 =>
    let a1 := field e0 51 16 * 65536 + 8 * field a 54 42
    match rd a1 with
    | none => [a0, a1]
    | some e1 =>
      let a2 := field e1 51 16 * 65536 + 8 * field a 41 29
      match rd a2 with
      | none => [a0, a1, a2]
      | some e2 => [a0, a1, a2] ++ if e2.testBit 1 then [] else [field e2 51 16 * 65536 + 8 * field a 28 16]

/-- What one stage gives for an address whose tables now give `now`: that, or an old value that a cache still holds (R147). -/
def nowOrOld (s : State) (vk : Nat) (st2 : Bool) (a : Nat) (now : Option (Nat × Nat)) : Option (Nat × Nat) :=
  let olds := (s.sys.cached.filter fun c => c.vd == vk && c.st2 == st2 && c.page == a / 65536).map fun c =>
    some (c.out + a % 65536, c.leaf)
  match olds.filter fun o => o != now with
  | [] => now
  | o :: os => ((now :: o :: os)[Config.oldEntry s.sys.free st2 (a / 65536) % (os.length + 2)]?).getD now

/-- Eight bytes that are all unpoisoned data, as a number. A walk that meets a table entry which is none ends without a
translation (log entry 61). -/
def allGood (l : List RdByte) : Option Nat :=
  if l.all fun b => !b.poison && b.cause == 0 then some (ofBytes (l.map RdByte.val)) else none

/-- Read a stage-2 table entry, under slot 0 (R145). -/
def readEntry2 (s : State) (vk pa : Nat) : Option Nat :=
  allGood ((List.range 8).map fun i => readPhys s vk 0 (pa + i) (pa + i))

/-- Whether a slot may key a page of a virtual device (R356). -/
def slotServes (y : Sys) (vk slot : Nat) : Bool :=
  slot == vk % 32 + 1 ||
  ((keySlot y (vk / 32) slot).kind == 2 && (keySlot y (vk / 32) slot).parts.testBit (vk % 32))

/-- An intermediate address: bits [56:52] and above count as zero (R141). -/
def iaOf (a : Nat) : Nat := a % 4503599627370496

/-- What stage 2 gives for an intermediate address: physical address and leaf (R141, R143, R356). -/
def stage2 (s : State) (vk a : Nat) : Option (Nat × Nat) :=
  let ia := iaOf a
  match nowOrOld s vk true ia
      (walk (readEntry2 s vk) true (Config.runEntry s.sys.free true (ia / 65536)) (vdOf s.sys vk).s2root ia) with
  | none => none
  | some (pa, e) =>
    if !slotServes s.sys vk (field e 9 4) then none
    else if field pa 51 50 = 2 && (match apertureOf s.sys (vk / 32) pa with
      | some (o, _, _) => o != vk | none => true) then none
    else some (pa, e)

/-- Read a stage-1 table entry at an intermediate address, under the virtual device's key slot whatever the leaf's (R145). -/
def readEntry1 (s : State) (vk ia : Nat) : Option Nat :=
  match stage2 s vk ia with
  | none => none
  | some (pa, _) => allGood ((List.range 8).map fun i => readPhys s vk (vk % 32 + 1) (iaOf (ia + i)) (pa + i))

/-- Stage 1 of a virtual address: intermediate address and leaf (R139, R141, R404). -/
def stage1 (s : State) (vk va : Nat) : Option (Nat × Nat) :=
  if va ≥ 144115188075855872 then none
  else if (vdOf s.sys vk).s1root = 0 then none
  else nowOrOld s vk false va
    (walk (readEntry1 s vk) false (Config.runEntry s.sys.free false (va / 65536)) (vdOf s.sys vk).s1root va)

/-- The translation of a virtual address through both stages (R145). -/
def xlate (s : State) (vk va : Nat) : Option Xlat :=
  match stage1 s vk va with
  | none => none
  | some (ia, e1) =>
    match stage2 s vk ia with
    | none => none
    | some (pa, e2) => some ⟨iaOf ia, pa, field e2 9 4, e1.testBit 2 && e2.testBit 2, e2.testBit 3⟩

/-- The translation of an intermediate address alone, as the host's accesses use it (R401). -/
def xlate2 (s : State) (vk ia : Nat) : Option Xlat :=
  match stage2 s vk ia with
  | none => none
  | some (pa, e2) => some ⟨iaOf ia, pa, field e2 9 4, e2.testBit 2, e2.testBit 3⟩

/-- A translation that an access used may be cached from then on (R147). -/
def noteCached (y : Sys) (c : Cached) : Sys := if y.cached.contains c then y else { y with cached := y.cached ++ [c] }

/-- The stage-2 translation of an intermediate address that an access used. -/
def noteStage2 (s : State) (y : Sys) (vk ia : Nat) : Sys :=
  match stage2 s vk ia with
  | some (pa, e) => noteCached y ⟨vk, true, iaOf ia / 65536, pa / 65536 * 65536, e⟩
  | none => y

/-- The translations, of both stages and of the stage-1 tables, that an access to n bytes at a virtual address used. -/
def noteXlat (s : State) (y : Sys) (vk va n : Nat) : Sys :=
  (List.range (n / 65536 + 2)).foldl (fun y i =>
    let a := if i = 0 then va else (va / 65536 + i) * 65536
    if va + n ≤ a then y
    else
      match stage1 s vk a with
      | none => y
      | some (ia, e) =>
        let y := (walkPath (readEntry1 s vk) (vdOf s.sys vk).s1root a).foldl (fun y t => noteStage2 s y vk t) y
        noteStage2 s (noteCached y ⟨vk, false, a / 65536, ia / 65536 * 65536, e⟩) vk ia) y

/-- The translations of one stage of a virtual device for n granules of 64 KiB from an address, or all where n is 0, are
no longer cached (R147, R176, R352). -/
def dropCached (y : Sys) (vk : Nat) (st2 : Bool) (a n : Nat) : Sys :=
  { y with cached := y.cached.filter fun c =>
      !(c.vd == vk && c.st2 == st2 && (n == 0 || (decide (a / 65536 ≤ c.page) && decide (c.page < a / 65536 + n)))) }

/-- The key in the one store at which a translated byte lies, through its aperture if it names one (R357). -/
def storeKey (s : State) (vk pa : Nat) : Nat :=
  match if field pa 51 50 = 2 then apertureOf s.sys (vk / 32) pa else none with
  | some (_, base, rchip) => physKey rchip (base * 1099511627776 + field pa 39 0)
  | none => physKey (vk / 32) pa

/-- The byte that a core's access issued at a tick reads at a key where memory holds b: in a unit torn for it, that of the
value published by the last release or of a write by the abandoned holder (R187). -/
def tornByte (s : State) (core issue key : Nat) (b : Byte) : Byte :=
  match s.sys.torn.find? fun t => t.unit == key / 8 && t.reader.any fun r => r.1 == core && decide (r.2 ≤ issue) with
  | some t => (((t.vals[Config.tornPick s.sys.free (key / 8) % t.vals.length]?).getD [])[key % 8]?).getD b
  | none => b

/-! ## The fabric page (R318) -/

/-- The virtual address of the fabric page. -/
def fabricPage : Nat := 0x1FFFFFF0000

/-- Whether an address lies in the fabric page. -/
def inFabric (va : Nat) : Bool := decide (fabricPage ≤ va) && decide (va < fabricPage + 65536)

/-- A byte of the fabric page. -/
def fabricByte (y : Sys) (vk off : Nat) : Byte :=
  let v := vdOf y vk
  BitVec.ofNat 8 (
    if off < 4 then vk / 32 / 256 ^ off
    else if 8 ≤ off && off < 16 then v.rlat / 256 ^ (off - 8)
    else if 16 ≤ off && off < 24 then v.bres / 256 ^ (off - 16)
    else if 24 ≤ off && off < 32 then v.nchips / 256 ^ (off - 24) else 0)

/-! ## Reads and writes -/

/-- The translation of another byte of the same granule. -/
def Xlat.shift (x : Xlat) (k : Nat) : Xlat := { x with ia := x.ia + k, pa := x.pa + k }

/-- Read one byte at a virtual address for a core, or for none, under a translation of it; without one it reads as zero, cause
NONRES (R151). -/
def readX (core : Option Nat) (s : State) (vk va : Nat) (t : Option Xlat) : RdByte :=
  if inFabric va then ⟨fabricByte s.sys vk (va - fabricPage), false, 0⟩
  else
    match t with
    | none => ⟨0, false, 1⟩
    | some x => readPhysBy core s vk x.slot x.ia x.pa

/-- Read one byte at a virtual address. -/
def readVaByte (s : State) (vk va : Nat) : RdByte := readX none s vk va (xlate s vk va)

/-- Read one byte under a translation for a core's access issued at a tick: as any reader does, but that units may be torn
for it (R187). -/
def readXFor (s : State) (core issue vk va : Nat) (t : Option Xlat) : RdByte :=
  let r := readX (some core) s vk va t
  if s.sys.torn.isEmpty || inFabric va || r.cause != 0 then r
  else
    match t with
    | some x => { r with val := tornByte s core issue (storeKey s vk x.pa) r.val }
    | none => r

/-- Read one byte at a virtual address for a core's access. -/
def readVaFor (s : State) (core issue vk va : Nat) : RdByte := readXFor s core issue vk va (xlate s vk va)

/-- Read n bytes at a virtual address. -/
def readVa (s : State) (vk va n : Nat) : List RdByte := (List.range n).map fun i => readVaByte s vk (va + i)

/-- Bytes cut at 64-byte lines: address and bytes of each piece. -/
def cutLines : Nat → Nat → List (RdByte) → List (Nat × List RdByte)
  | 0, _, _ => []
  | _, _, [] => []
  | n + 1, a, bs => (a, bs.take (64 - a % 64)) :: cutLines n (a + (64 - a % 64)) (bs.drop (64 - a % 64))

/-- The post that writes a piece of one line at a translated address, and the status: 3 UNBACKED, 5 REMOTE, 0 posted (R146,
R171, R357, R369, R370, R388, R389). With `whole` the access has written the whole line, some of it poisoned or not. A
chip that writes through an aperture keeps the intermediate address of the line, or leaves it to the owner. -/
def writePhys (s : State) (vk : Nat) (x : Xlat) (bs : List RdByte) (whole : Option Bool) : List Post × Nat :=
  let chip := vk / 32
  let data := bs.map RdByte.val
  let poison := whole.getD (bs.any RdByte.poison)
  if (vdOf s.sys vk).stoppedBit then ([], 5)
  else if field x.pa 51 50 = 0 then
    if hbmTop ≤ x.pa then ([], 3)
    else ([.write (physKey chip x.pa) x.slot (keySlot s.sys chip x.slot).gen x.ia data poison
        (lineOk s vk x.slot (some x.ia) x.pa) whole.isSome], 0)
  else if field x.pa 51 50 = 1 then
    if s.sys.mgmt.hostGone then ([], 5)
    else if (vdOf s.sys vk).tdi = 1 then ([], 3)
    else ([.write (physKey chip x.pa) 0 0 x.pa data poison true whole.isSome], 0)
  else if field x.pa 51 50 = 2 then
    match apertureOf s.sys chip x.pa with
    | none => ([], 3)
    | some (_, base, rchip) =>
      let rpa := base * 1099511627776 + field x.pa 39 0
      let rvk := rchip * 32 + vk % 32
      if chipRemoved s.sys vk rchip || (vdOf s.sys rvk).stoppedBit then ([], 5)
      else if !(rpa < hbmTop && jobServes s.sys rvk chip) then ([], 3)
      else ([.write (physKey rchip rpa) (vk % 32 + 1) (keySlot s.sys rchip (vk % 32 + 1)).gen
          (64 * (match tagOf s.mem.lines (physKey rchip rpa / 64) with | some t => t.ia | none => anyLine))
          data poison (lineOk s rvk (vk % 32 + 1) none rpa) whole.isSome], 0)
  else ([], 3)

/-- The greater status stands (R171). -/
def worse (a b : Nat) : Nat := if a < b then b else a

/-- Write bytes of one line at a virtual address under a translation: the posts and the status; 1 NONRES, 2 READONLY, which
yields to a higher one (R146, R171). -/
def writeX (s : State) (vk va : Nat) (t : Option Xlat) (bs : List RdByte) (whole : Option Bool) : List Post × Nat :=
  if inFabric va then ([], 2)
  else
    match t with
    | none => ([], 1)
    | some x => if !x.wr then ([], max 2 (writePhys s vk x bs whole).2) else writePhys s vk x bs whole

/-- Write bytes at a virtual address: the posts and the worst status (R146, R171). -/
def writeVa (s : State) (vk va : Nat) (bs : List RdByte) : List Post × Nat :=
  (cutLines bs.length va bs).foldl (fun acc p =>
    if p.2 = [] then acc
    else
      let r := writeX s vk p.1 (xlate s vk p.1) p.2 none
      (acc.1 ++ r.1, worse acc.2 r.2)) ([], 0)

/-- The pages of a table entry that a stage-2 walk reaches below a level: intermediate base, physical base and size of every
leaf under the device's own slot. -/
def pagesBelow (s : State) (vk : Nat) : Nat → Nat → Nat → Nat → List (Nat × Nat × Nat)
  | 0, _, _, _ => []
  | n + 1, w, table, ia =>
    (List.range (if w = 42 then 1024 else 8192)).flatMap fun i =>
      match readEntry2 s vk (table + 8 * i) with
      | none => []
      | some e =>
        let a := ia + i * 2 ^ w
        if w ≤ 29 && leafOk true w e then
          (if field e 9 4 = vk % 32 + 1 then [(a, (leafMap w e e a).1, 2 ^ w)] else [])
        else if 16 < w && pointerOk true i e then pagesBelow s vk n (w - 13) (field e 51 16 * 65536) a
        else []

/-- The pages of a virtual device (R141, R353). -/
def allPages (s : State) (vk root : Nat) : List (Nat × Nat × Nat) :=
  match readEntry2 s vk root with
  | some e => if pointerOk true 0 e then pagesBelow s vk 3 42 (field e 51 16 * 65536) 0 else []
  | none => []

/-- The granules of a virtual device's intermediate addresses at which its stage 2 maps a physical address. -/
def granulesOf (s : State) (vk pa : Nat) : List Nat :=
  ((allPages s vk (vdOf s.sys vk).s2root).filter fun z => decide (z.2.1 ≤ pa) && decide (pa < z.2.1 + z.2.2)).map fun z =>
    (z.1 + (pa - z.2.1)) / 65536

/-- The virtual devices and the granules of their intermediate addresses that a write under a translation reaches (R369): through
an aperture those of the remote chip's device at which the line lies. -/
def dirtyX (s : State) (vk : Nat) (x : Xlat) : List (Nat × Nat) :=
  if !x.wr then []
  else if field x.pa 51 50 = 2 then
    match apertureOf s.sys (vk / 32) x.pa with
    | none => []
    | some (_, base, rchip) =>
      let rpa := base * 1099511627776 + field x.pa 39 0
      let rvk := rchip * 32 + vk % 32
      let all := (granulesOf s rvk rpa).map fun g => (rvk, g)
      match tagOf s.mem.lines (physKey rchip rpa / 64) with
      | some t => if t.ia = anyLine then all else [(rvk, t.ia / 1024)]
      | none => all
  else [(vk, x.ia / 65536)]

/-- The granules, with their devices, that n bytes at a virtual address of a virtual device write (R369). -/
def dirtyGranules (s : State) (vk va n : Nat) : List (Nat × Nat) :=
  (List.range (ceilDiv n 65536 + 1)).flatMap fun i =>
    let a := if i = 0 then va else (va / 65536 + i) * 65536
    if a < va + n then (match xlate s vk a with | some x => dirtyX s vk x | none => []) else []

/-- Note written granules in the dirty-page records that are kept (R369). -/
def noteDirty (y : Sys) (gs : List (Nat × Nat)) : Sys :=
  gs.foldl (fun y g =>
    let v := vdOf y g.1
    if !v.dirtytrack then y
    else if g.2 < v.dprsize then setVd y { v with dirtySet := putBy (fun x : Nat => x) g.2 v.dirtySet }
    else setVd y { v with dprOver := true }) y

/-- The bytes that a write at a key brings to a unit. -/
def unitBytes (key : Nat) (data : List Byte) (unit : Nat) : List (Option Byte) :=
  (List.range 8).map fun i => if 8 * unit + i < key then none else data[8 * unit + i - key]?

/-- Note that a core of a virtual device, or none, writes bytes of a window in an instruction of some tick: one write more in the
order of each unit (R193). -/
def noteWinUnit (s : State) (y : Sys) (vk : Nat) (core : Option Nat) (issue slot key : Nat) (data : List Byte) (unit : Nat) : Sys :=
  let w := (getBy WinUnit.unit unit y.window).getD {
    unit := unit, chip := vk / 32, slot := slot, init := (List.range 8).map fun i => Mem.read s.mem.bytes (8 * unit + i), evs := [] }
  { y with window := putBy WinUnit.unit { w with evs := w.evs ++ [{
      writer := vk, wcore := core, issue := issue, tick := s.gtc, bytes := unitBytes key data unit, released := false, got := [] }] } y.window }

/-- Note the window bytes among posts of a core of a virtual device, or of none. -/
def noteWindow (s : State) (y : Sys) (vk : Nat) (core : Option Nat) (issue : Nat) (ps : List Post) : Sys :=
  ps.foldl (fun y p =>
    match p with
    | .write pa slot _ _ data _ _ _ =>
      if 33 ≤ slot && (keySlot y (vk / 32) slot).kind == 2 then
        (List.range ((pa % 8 + data.length + 7) / 8)).foldl (fun y i => noteWinUnit s y vk core issue slot pa data (pa / 8 + i)) y
      else y
    | _ => y) y

/-- Read n bytes of plain data at a virtual address; none where any is missing or poisoned. -/
def loadVa (s : State) (vk va n : Nat) : Option (List Byte) :=
  let l := readVa s vk va n
  if l.all fun b => !b.poison && b.cause == 0 then some (l.map RdByte.val) else none

/-- The number in n plain bytes at a virtual address. -/
def loadVaNat (s : State) (vk va n : Nat) : Option Nat := (loadVa s vk va n).map ofBytes

/-- A byte of region 1 as the management of a chip reads it for a request, whatever the TDI of the device that the request is for:
R370 holds up that device's own transfers alone (log entry 85). -/
def hostByte (s : State) (chip pa : Nat) : RdByte :=
  if field pa 51 50 ≠ 1 then ⟨0, true, 0⟩
  else if s.sys.mgmt.hostGone then ⟨fillByte pa, false, 3⟩
  else if (tagOf s.mem.lines (physKey chip pa / 64)).any LineTag.poison then ⟨0, true, 0⟩
  else ⟨Mem.read s.mem.bytes (physKey chip pa), false, 0⟩

/-- Bytes of a physical range of region 1, as requests read them (R350, R352, R360, R394). -/
def hostBytes (s : State) (chip pa n : Nat) : List Byte := (List.range n).map fun i => (hostByte s chip (pa + i)).val

/-! ## Storing what was posted -/

/-- Store one post (R355, R380): a whole line is stored fresh; a part of a line that does not verify leaves it
poisoned; poisoned data leaves the line poisoned. -/
def applyPost (m : PMem) : Post → PMem
  | .write pa slot gen ia data poison fresh whole =>
    let part := !whole && data.length != 64
    { bytes := Mem.writes m.bytes pa data
      lines := putTag m.lines (pa / 64) {
        slot := slot, gen := gen, ia := ia / 64
        poison := poison || (part && match tagOf m.lines (pa / 64) with
          | some t => t.poison || t.ecc != 0 ||
            !(t.slot == slot && t.gen == gen && (t.ia == ia / 64 || t.ia == anyLine || decide (33 ≤ slot)))
          | none => !fresh)
        ecc := 0 } }
  | .wipe pa len =>
    { bytes := Mem.clear m.bytes pa (pa + len)
      lines := m.lines.filter fun t => t.1 < pa / 64 || ceilDiv (pa + len) 64 ≤ t.1 }
  | .send _ => m

/-- The messages among the posts. -/
def sentOf : List Post → List Out
  | [] => []
  | .send o :: l => o :: sentOf l
  | _ :: l => sentOf l

/-- Everything posted, stored in order. -/
def drainPosts (m : PMem) (l : List Post) : PMem := l.foldl applyPost m

end Sys2Proof.Machine
end

