-- ==== Sys2Proof/Machine/Events.lean ====
section
/-! DEFINITION. The event log (R377, R379, R403, R406): the 32-byte records, the ring in host memory, the lost counter, the
vector, the copy of the last 256 records; and the records that reads of bad lines write (R355, R380). -/

namespace Sys2Proof.Machine

/-- A message out of the machine leaves after every write posted before it (R363). -/
def sendOut (y : Sys) (o : Out) : Sys := { y with posts := y.posts ++ [.send o] }

/-- The entry of a vector of a function; at reset it is masked, as PCI Express resets it (R363; log entry 84). -/
def msixAt (y : Sys) (fn vec : Nat) : Msix :=
  (getBy Msix.key (64 * fn + vec) y.mgmt.vectors).getD { key := 64 * fn + vec, addr := 0, data := 0, mask := true, pend := false }

/-- Replace the entry of a vector. -/
def setMsix (y : Sys) (e : Msix) : Sys := { y with mgmt := { y.mgmt with vectors := putBy Msix.key e y.mgmt.vectors } }

/-- Raise a vector of a function (R363): its message leaves, or it is pending while it is masked; while the host is removed it
is dropped (R389). -/
def raiseMsix (y : Sys) (fn vec : Nat) : Sys :=
  let e := msixAt y fn vec
  if y.mgmt.hostGone then y
  else if e.mask then setMsix y { e with pend := true }
  else sendOut y (.msix fn vec e.addr e.data)

/-- The posts of plain bytes at a host address. -/
def hostPosts (chip pa : Nat) (bs : List Byte) : List Post :=
  (cutLines bs.length pa (bs.map fun b => ⟨b, false, 0⟩)).filterMap fun p =>
    if p.2 = [] then none else some (.write (physKey chip p.1) 0 0 p.1 (p.2.map RdByte.val) false true false)

/-- Classes of R379. -/
def clsPoison : Nat := 2
/-- INTEGRITY. -/
def clsIntegrity : Nat := 3
/-- STORAGE. -/
def clsStorage : Nat := 4
/-- SPARED. -/
def clsSpared : Nat := 5
/-- PORTDOWN. -/
def clsPortDown : Nat := 6
/-- HOSTRECOV. -/
def clsHostRecov : Nat := 7
/-- CHIPGONE. -/
def clsChipGone : Nat := 8
/-- HOSTGONE. -/
def clsHostGone : Nat := 9
/-- THERMAL. -/
def clsThermal : Nat := 10
/-- READYLOST. -/
def clsReadyLost : Nat := 11
/-- FIRMWARE. -/
def clsFirmware : Nat := 12

/-- The virtual device of a record that concerns none. -/
def noVd : Nat := 255

/-- SOURCE: unit and index. -/
def sourceOf (unit index : Nat) : Nat := unit * 4096 + index % 4096

/-- A record (R379). -/
def eventBytes (g cls vd source detail addr value : Nat) : List Byte :=
  toBytes 8 g ++ toBytes 1 cls ++ toBytes 1 vd ++ toBytes 2 source ++ toBytes 4 detail ++ toBytes 8 addr ++ toBytes 8 value

/-- EVSIZE enables the ring (R402). -/
def Mgmt.ringOn (m : Mgmt) : Bool := decide (7 ≤ m.evsize) && decide (m.evsize ≤ 20)

/-- Records that the host has not consumed. -/
def Mgmt.unread (m : Mgmt) : Nat := (m.evhead + 4294967296 - m.evtail) % 4294967296

/-- Write an event record (R379, R403): into the ring while it has room, the vector raised when the ring was empty; else
it is counted in LOST. The copy of the last 256 records keeps it in any case (R406). A record for the ring of a
removed host goes nowhere (R389). -/
def writeEvent (y : Sys) (g cls vd source detail addr value : Nat) : Sys :=
  let m := y.mgmt
  let b := eventBytes g cls vd source detail addr value
  let recent := m.recent ++ [b]
  let m := { m with recent := recent.drop (recent.length - 256) }
  if m.ringOn && decide (m.unread < 2 ^ m.evsize) then
    let pa := 2 ^ 50 + m.evbase + 32 * (m.evhead % 2 ^ m.evsize)
    let n := { m with evhead := (m.evhead + 1) % 4294967296, evposted := m.evposted + 1 }
    let y := { y with mgmt := n, posts := y.posts ++ (if m.hostGone then [] else hostPosts m.chip pa b) }
    if n.unread = 1 then raiseMsix y 0 m.evvec else y
  else { y with mgmt := { m with evlost := min (m.evlost + 1) 4294967295 } }

/-! ## SRAM errors (R378) -/

/-- CORRECTED. -/
def clsCorrected : Nat := 1

/-- Count a correction of a source (R378). -/
def countCorrection (y : Sys) (source vd addr : Nat) : Sys :=
  let c := (getBy Corrected.source source y.corrected).getD { source := source, vd := vd, addr := 0, count := 0, last := none }
  { y with corrected := putBy Corrected.source { c with vd := vd, addr := addr, count := c.count + 1 } y.corrected }

/-- A source whose last CORRECTED record is 2^24 ticks back, or that has none, records what it has counted (R379). -/
def flushCorrected (y : Sys) (g : Nat) : Sys :=
  y.corrected.foldl (fun y c =>
    if c.count = 0 || (c.last.map fun t => decide (g < t + 16777216)).getD false then y
    else
      let y := writeEvent y g clsCorrected c.vd c.source 0 c.addr c.count
      { y with corrected := putBy Corrected.source { c with count := 0, last := some g } y.corrected }) y

/-- A read of n bytes at a scratchpad offset has met the struck lines among them: their granules are marked, with a record for
each (R378, R379). -/
def markStruck (y : Sys) (g core off n : Nat) : Sys :=
  ((coreOf y core).bad.filter fun p => p.1 == 7 && decide (off / 16 ≤ p.2) && decide (16 * p.2 < off + n)).foldl (fun y p =>
    let c := (coreOf y core).setPoison (p.2 / 4) true
    let y := setCore y { c with bad := c.bad.filter fun q => !(q.1 == 7 && q.2 / 4 == p.2 / 4) }
    writeEvent y g clsPoison (vdKeyOf y core % 32) (sourceOf 0 (core % 192)) 4 (64 * (p.2 / 4)) 0) y

/-- A read of n bytes at a scratchpad offset has met the lines among them that a single-bit error has struck: each is corrected and
counted (R378). -/
def countSoft (y : Sys) (core off n : Nat) : Sys :=
  ((coreOf y core).soft.filter fun p => p.1 == 7 && decide (off / 16 ≤ p.2) && decide (16 * p.2 < off + n)).foldl (fun y p =>
    countCorrection y (sourceOf 0 (core % 192)) (vdKeyOf y core % 32) (16 * p.2)) y

/-! ## Reads of bad lines -/

/-- Whether a physical address of a virtual device is unbacked (R140, R370): through an aperture also one that the remote chip
does not serve. -/
def unbackedX (s : State) (vk pa : Nat) : Bool :=
  if field pa 51 50 = 0 then decide (hbmTop ≤ pa)
  else if field pa 51 50 = 1 then (vdOf s.sys vk).tdi == 1 && !s.sys.mgmt.hostGone
  else if field pa 51 50 = 2 then
    match apertureOf s.sys (vk / 32) pa with
    | none => true
    | some (_, base, rchip) =>
      !chipRemoved s.sys vk rchip && !(decide (base * 1099511627776 + field pa 39 0 < hbmTop) && jobServes s.sys (rchip * 32 + vk % 32) (vk / 32))
  else true

/-- Whether a virtual address lies on an unbacked byte. -/
def unbacked (s : State) (vk va : Nat) : Bool := (xlate s vk va).any fun x => unbackedX s vk x.pa

/-- An event that a read of a line meets: class, detail, address, value and source (R379). -/
structure LineEvent where
  cls    : Nat
  detail : Nat
  addr   : Nat
  value  : Nat
  source : Nat
  deriving DecidableEq, Repr

/-- The event of a line of local HBM that a device reads under a slot and intermediate address: an error of the memory or of a
tree node (R378), or a line that does not verify (R355). A line that was stored poisoned has none of its own. -/
def hbmEvent (s : State) (vk slot : Nat) (ia : Option Nat) (pa addr source : Nat) : Option LineEvent :=
  let fails := if lineOk s vk slot ia pa then none else some (⟨clsIntegrity, 1, addr, slot, source⟩ : LineEvent)
  match tagOf s.mem.lines (physKey (vk / 32) pa / 64) with
  | some t =>
    if t.ecc = 1 then some ⟨clsPoison, 1, addr, 0, source⟩
    else if t.ecc = 2 then some ⟨clsIntegrity, 2, addr, slot, source⟩
    else if t.poison then none else fails
  | none => fails

/-- The event of a line of region 1 that the host sent poisoned (R380). -/
def hostEvent (s : State) (chip pa : Nat) : Option LineEvent :=
  if (hostByte s chip pa).poison then some ⟨clsPoison, 2, pa / 64 * 64, 0, sourceOf 3 0⟩ else none

/-- The event that a read at a physical address meets, if it meets one: an unbacked byte, poison that the host sent, or a bad line
of HBM, this chip's or, through an aperture, another's (R355, R380; log entry 61). -/
def lineEvent (s : State) (vk slot ia pa : Nat) : Option LineEvent :=
  let line := pa / 64 * 64
  let hbm := sourceOf 1 (Config.stackOf (pa / 64) % 12)
  if field pa 51 50 = 1 then
    if unbackedX s vk pa then some ⟨clsPoison, 3, line, 0, sourceOf 3 0⟩ else hostEvent s (vk / 32) pa
  else if field pa 51 50 = 0 then
    if unbackedX s vk pa then some ⟨clsPoison, 3, line, 0, hbm⟩ else hbmEvent s vk slot (some ia) pa line hbm
  else if field pa 51 50 = 2 then
    match apertureOf s.sys (vk / 32) pa with
    | none => some ⟨clsPoison, 3, line, 0, sourceOf 4 0⟩
    | some (_, base, rchip) =>
      let port := sourceOf 2 (Config.routePort rchip % 24)
      if chipRemoved s.sys vk rchip then none
      else if unbackedX s vk pa then some ⟨clsPoison, 3, line, 0, port⟩
      else hbmEvent s (rchip * 32 + vk % 32) (vk % 32 + 1) none (base * 1099511627776 + field pa 39 0) line port
  else some ⟨clsPoison, 3, line, 0, sourceOf 4 0⟩

/-- The places that a stage-2 walk of an intermediate address reads: slot, intermediate and physical address. -/
def walkPlaces2 (s : State) (vk ia : Nat) : List (Nat × Nat × Nat) :=
  (walkPath (readEntry2 s vk) (vdOf s.sys vk).s2root (iaOf ia)).map fun a => (0, a, a)

/-- The places that a translation of a virtual address reads (R145). -/
def tablePlaces (s : State) (vk va : Nat) : List (Nat × Nat × Nat) :=
  if inFabric va || decide (144115188075855872 ≤ va) || (vdOf s.sys vk).s1root = 0 then []
  else
    (walkPath (readEntry1 s vk) (vdOf s.sys vk).s1root va).flatMap (fun t =>
      walkPlaces2 s vk t ++ ((stage2 s vk t).map fun p => (vk % 32 + 1, iaOf t, p.1)).toList) ++
    (match stage1 s vk va with
      | none => []
      | some (ia, _) => walkPlaces2 s vk ia)

/-- The same with the place of its byte. -/
def readPlaces (s : State) (vk va : Nat) : List (Nat × Nat × Nat) :=
  tablePlaces s vk va ++ ((xlate s vk va).map fun t => (t.slot, iaOf t.ia, t.pa)).toList

/-- The events of some places, one for each line. -/
def placeEvents (s : State) (vk : Nat) (ps : List (Nat × Nat × Nat)) : List LineEvent :=
  ps.foldl (fun l p => match lineEvent s vk p.1 p.2.1 p.2.2 with
    | some e => if l.contains e then l else l ++ [e]
    | none => l) []

/-- The events that a read of n bytes at a virtual address meets, in its table walks and its own lines (R355, R377, R380). -/
def badLines (s : State) (vk va n : Nat) : List LineEvent :=
  placeEvents s vk ((List.range (ceilDiv n 64 + 1)).flatMap fun i =>
    let a := if i = 0 then va else (va / 64 + i) * 64
    if va + n ≤ a then [] else readPlaces s vk a)

/-- Write the record of a line event. -/
def writeLineEvent (y : Sys) (g vk : Nat) (e : LineEvent) : Sys :=
  writeEvent y g e.cls (vk % 32) e.source e.detail e.addr e.value

/-- Note the events that a read of n bytes at a virtual address meets; a read that brings good data meets none. -/
def noteReads (s : State) (y : Sys) (vk va n : Nat) : Sys :=
  if (readVa s vk va n).all fun b => !b.poison && b.cause != 1 then y
  else (badLines s vk va n).foldl (fun y e => writeLineEvent y s.gtc vk e) y

/-- The events that the table walks of n bytes at a virtual address meet (R355, R377). -/
def badTables (s : State) (vk va n : Nat) : List LineEvent :=
  placeEvents s vk ((List.range (ceilDiv n 65536 + 1)).flatMap fun i =>
    let a := if i = 0 then va else (va / 65536 + i) * 65536
    if va + n ≤ a then [] else tablePlaces s vk a)

/-- Note them. -/
def noteTables (s : State) (y : Sys) (vk va n : Nat) : Sys :=
  (badTables s vk va n).foldl (fun y e => writeLineEvent y s.gtc vk e) y

/-- Note the events that the read of a request for a device meets in n bytes of region 1 (R377, R380). -/
def noteDma (s : State) (y : Sys) (vk pa n : Nat) : Sys :=
  ((List.range (ceilDiv n 64 + 1)).filterMap fun i =>
    let a := if i = 0 then pa else (pa / 64 + i) * 64
    if pa + n ≤ a || field a 51 50 ≠ 1 then none else hostEvent s (vk / 32) a).foldl (fun y e => writeLineEvent y s.gtc vk e) y

/-! ## Posts of plain bytes -/

/-- Post a write of plain bytes at a virtual address of a virtual device, by one of its cores or by none. -/
def postBy (s : State) (y : Sys) (vk : Nat) (core : Option Nat) (va : Nat) (data : List Byte) : Sys :=
  let r := writeVa s vk va (data.map fun b => ⟨b, false, 0⟩)
  let y := noteXlat s (noteWindow s (noteTables s y vk va data.length) vk core s.gtc r.1) vk va data.length
  noteDirty { y with posts := y.posts ++ r.1 } (dirtyGranules s vk va data.length)

/-- The same by none. -/
def postVa (s : State) (y : Sys) (vk va : Nat) (data : List Byte) : Sys := postBy s y vk none va data

end Sys2Proof.Machine
end

