-- ==== Sys2Proof/Machine/Ops.lean ====
section
/-! DEFINITION. The named operations that meanings share: how a meaning answers, scheduling, the entry into handler mode
(R128), the freeze of a domain (R82, R87, R89), the end of a launch (R311), the removal of a cause and the way back
(R89, R129). -/

namespace Sys2Proof.Machine

/-- The answer of every meaning. -/
abbrev Result := Host.Outcome State Fault Refusal

/-- The next state in which everything but the tick counter and the memory is what f makes of it. -/
def lift (f : State → Sys) (s : State) : Result := .next { s with sys := f s }

/-! ## Scheduling -/

/-- Let an event happen at a tick. -/
def schedule (y : Sys) (tick : Nat) (i : Instr) (m : HomeMsg) : Sys := { y with sched := y.sched ++ [(tick, i, m)] }

/-- Take a free value: the counter that the opaque values of Config are applied to, and the state that has used it. -/
def takeFree (y : Sys) : Nat × Sys := (y.free, { y with free := y.free + 1 })

/-! ## Causes -/

/-- A trap cause as it is detected (R126, R127): TRAPCAUSE, CODE or (for SOFT and SVC) the whole TRAPELEM, the address
for TRAPPC, whether it was raised by the front end or at the push point, its queue position (255: none), and
its rank among the causes of one cycle, the lowest of which stands (R128): domain faults by kind, then causes of
issued entries by queue position, then the front end's. -/
structure Cause where
  code  : Nat
  elem  : Nat
  pc    : Dword
  front : Bool
  qpos  : Nat
  rank  : Nat
  deriving DecidableEq, Repr

/-- The names of R126. -/
def causeIllegal : Nat := 1
/-- Register ownership. -/
def causeOwner : Nat := 2
/-- Bad sync handle. -/
def causeHandle : Nat := 3
/-- Domain fault. -/
def causeDomain : Nat := 4
/-- trap. -/
def causeSoft : Nat := 5
/-- svc. -/
def causeSvc : Nat := 6
/-- Pre-emption. -/
def causePreempt : Nat := 7
/-- Fetch outside TEXT. -/
def causeFetch : Nat := 8
/-- Misalignment. -/
def causeAlign : Nat := 9
/-- Bad scratchpad address. -/
def causeSpaddr : Nat := 10
/-- Read of a poisoned granule. -/
def causePoison : Nat := 11
/-- tret, vsave, vrestore, replay outside handler mode. -/
def causeContext : Nat := 12
/-- A failed record check. -/
def causeRecord : Nat := 13
/-- A record access that cannot be made. -/
def causeSavefault : Nat := 14
/-- Operand-slot misuse. -/
def causeSlot : Nat := 15
/-- An object of the wrong type or state. -/
def causeObject : Nat := 16
/-- An operand value outside its limits. -/
def causeOperand : Nat := 17

/-- A program trap of the front end or the push point at an address. -/
def frontCause (code elem : Nat) (pc : Dword) : Cause := ⟨code, elem, pc, true, 255, 1000⟩

/-- A program trap of an entry of the queue (R127, R128). -/
def entryCause (code elem : Nat) (e : Entry) (qpos : Nat) : Cause := ⟨code, elem, e.addr, false, qpos, 100 + qpos⟩

/-- A domain fault (R81): its kind, TRAPPC and queue position (255: none). -/
def domainCause (kind : Nat) (pc : Dword) (qpos : Nat) : Cause := ⟨causeDomain, kind, pc, false, qpos, kind⟩

/-- TRAPELEM of a cause (R127). -/
def Cause.trapelem (k : Cause) : Dword :=
  if k.code = causeSoft ∨ k.code = causeSvc then d64 k.elem else d64 (k.qpos * 65536 + k.elem % 65536)

/-! ## Entry into handler mode -/

/-- The role after it has entered handler mode for a cause at tick g (R128, R131): the program state is set aside, the
cause is written, PC is the first word of TEXT, and the role is neither armed nor halted. A role that entered
handler mode at this very tick keeps what it set aside, and of its causes the one of lowest rank stands. -/
def RoleSt.enter (r : RoleSt) (g : Nat) (k : Cause) : RoleSt :=
  match r.aside with
  | some a =>
    if a.tick = g ∧ k.rank < a.rank then
      { r with
        trapcause := k.code, trappc := k.pc, trapelem := k.trapelem
        aside := some { a with pc := if k.front then k.pc else a.stop, front := k.front, rank := k.rank } }
    else r
  | none =>
    { r with
      aside := some {
        pc := if k.front then k.pc else r.pc, stop := r.pc
        sregs := r.sregs, p := r.p, d := r.d, mode := r.mode, csrs := r.csrs
        armed := r.armed, halted := r.halted, front := k.front, tick := g, rank := k.rank, lastSf := r.lastSf }
      handler := true, armed := false, halted := false, vrest := false, hop := none, sacc := none
      trapcause := k.code, trappc := k.pc, trapelem := k.trapelem
      pc := r.textBase }

/-- The domain after a fault or trap is detected in its cycle c: a running domain freezes at F = c (R82, R89); a frozen
one keeps its F. A domain fault marks it. -/
def Domain.freezeAt (d : Domain) (c : Nat) (k : Cause) : Domain :=
  let d := { d with faulted := d.faulted || k.code == causeDomain }
  match d.st with
  | .run => { d with st := .frozen, f := c }
  | .resuming => { d with st := .frozen }
  | _ => d

/-- A role takes a cause at tick g: it enters handler mode and its domain freezes (R89, R128). -/
def takeCause (y : Sys) (g core role : Nat) (k : Cause) : Sys :=
  let d := domOfCore y core
  let y := setDom y (d.freezeAt (d.ttc g) k)
  setRole y core role ((roleOf y core role).enter g k)

/-! ## The end of a launch (R311) -/

/-- The sync object of a handle. -/
def objOf (y : Sys) (h : Nat) : Option Obj := getBy Obj.key h y.objs

/-- Put an object back. -/
def setObj (y : Sys) (o : Obj) : Sys := { y with objs := putBy Obj.key o y.objs }

/-- Remove an object (TYPE 0). -/
def freeObj (y : Sys) (h : Nat) : Sys := { y with objs := y.objs.filter fun o => o.key != h }

/-- A counter that is RUNNING becomes CANCELLED (R291, R311, R313). -/
def cancelCounter (y : Sys) (g h : Nat) : Sys :=
  match objOf y h with
  | some o =>
    match o.body with
    | .counter c => if c.state = 0 then setObj y { o with body := .counter { c with state := 2, donetick := g } } else y
    | _ => y
  | none => y

/-- The number that names a launch in queue slots: virtual device and sequence number (R289, R308). -/
def launchRef (vk seq : Nat) : Nat := vk * 4294967296 + seq

/-- Entries of a launch that a proxy shadow still holds are marked (GEN 1): their home frees them once they are there (R335). -/
def markProxied (y : Sys) (launch : Nat) : Sys :=
  let mark := fun m : HomeMsg => if m.launch = launch then { m with gen := 1 } else m
  { y with shadows := y.shadows.map fun w : ProxyShadow => { w with
      waiting := w.waiting.map fun e => (e.1, mark e.2)
      flying := w.flying.map fun b => (b.1, b.2.map mark) } }

/-- Tell every queue home that a launch is abandoned (R290): a class-1 event at this tick. -/
def abandonLaunch (y : Sys) (g vk seq : Nat) : Sys :=
  let y := markProxied y (launchRef vk seq)
  y.objs.foldl (fun y o =>
    match o.body with
    | .queue _ => schedule y g (.queueAbandonment o.key (launchRef vk seq)) noMsg
    | _ => y) y

/-- The launch states of a descriptor's STATUS (R309). -/
def statusCompleted : Nat := 2
/-- FAULTED. -/
def statusFaulted : Nat := 3
/-- CANCELLED. -/
def statusCancelled : Nat := 4
/-- REFUSED. -/
def statusRefused : Nat := 5

/-- The unit writes STATUS and ENDTICK of a launch's descriptor (R309, R311). -/
def writeStatus (s : State) (y : Sys) (vk desc status reason : Nat) : Sys :=
  let y := postVa s y vk (desc + 0x30) (toBytes 4 (status + 256 * reason))
  postVa s y vk (desc + 0x38) (toBytes 8 s.gtc)

/-- What the launch unit does at the end of a launch (R311): the status written, a counter still RUNNING cancelled, the
abandonment registered unless the launch completed. -/
def launchEnd (s : State) (y : Sys) (vk : Nat) (l : Launch) (status reason : Nat) : Sys :=
  let y := writeStatus s y vk l.desc status reason
  if status = statusCompleted then y
  else abandonLaunch (cancelCounter y s.gtc l.counter) s.gtc vk l.seq

/-- A domain ends with a status (R89, R311): no role of it runs any more, and its cores are free. Transfers
that it has issued go on (R171; log entry 78). -/
def endDomain (s : State) (y : Sys) (d : Domain) (status : Nat) : Sys :=
  if d.st = .ended then y
  else
    let y := setDom y { d with st := .ended, endStatus := status, f := d.ttc s.gtc }
    if d.control then y else launchEnd s y d.vd d.launch status 0

/-- A role meets a cause: outside handler mode it takes it; a role already in handler mode ends the launch FAULTED
(R91), unless it entered at this very tick and the cause belongs to the same cycle (R128). -/
def raise (s : State) (y : Sys) (core role : Nat) (k : Cause) : Sys :=
  let r := roleOf y core role
  match r.aside with
  | some a => if a.tick = s.gtc then takeCause y s.gtc core role k else endDomain s y (domOfCore y core) statusFaulted
  | none => takeCause y s.gtc core role k

/-! ## Resuming (R89, R129) -/

/-- No cause holds the domain any more: no role of it is in handler mode, no pre-emption, hold or cancel stands. -/
def Domain.clearOfCauses (y : Sys) (d : Domain) : Bool :=
  d.preempt == [] && !d.thermal && !d.stopHold && !d.cancel &&
  d.cores.all fun c => (List.range 3).all fun r => !(roleOf y c r).handler

/-- A frozen domain without causes becomes RESUMING; the launch unit picks the resume tick G (R89, log entry 22). -/
def tryResume (y : Sys) (g dom : Nat) : Sys :=
  match domAt y dom with
  | some d =>
    if d.st = .frozen && d.clearOfCauses y then
      let (n, y) := takeFree y
      schedule (setDom y { d with st := .resuming }) (g + 1 + Config.resumeDelay n) (.domainResume dom) noMsg
    else y
  | none => y

/-- The role after tret restores what was set aside, front end resumed at an address (R129, R131). -/
def RoleSt.leave (r : RoleSt) (a : Aside) (pc : Dword) : RoleSt :=
  { r with
    pc := pc, sregs := a.sregs, p := a.p, d := a.d, mode := a.mode, csrs := a.csrs
    armed := a.armed, halted := a.halted, lastSf := a.lastSf
    handler := false, aside := none, vrest := false, hop := none
    trapcause := 0, trapelem := 0 }

/-- Role L of a core enters its PREEMPT handler (R89, R128): TRAPPC is the PC at which the front end stopped. -/
def enterPreempt (y : Sys) (g core : Nat) : Sys :=
  let r := roleOf y core 0
  setRole y core 0 (r.enter g ⟨causePreempt, 0, r.pc, false, 255, 900⟩)

/-- A pre-emption reaches a domain at tick g (R89): a running domain freezes at F = g − TTBASE + 1; role L of each core
that is not in handler mode enters the PREEMPT handler, and every core carries the cause. -/
def preemptDomain (y : Sys) (g dom : Nat) : Sys :=
  match domAt y dom with
  | none => y
  | some d =>
    if d.st = .ended || d.st = .saved then y
    else
      let f := if d.st = .run then g - d.ttbase + 1 else d.f
      let y := setDom y { d with
        f := f, checked := some f, st := .frozen, preempt := List.range d.cores.length, saved := [] }
      d.cores.foldl (fun y c => if (roleOf y c 0).handler then y else enterPreempt y g c) y

/-- A hold cause that enters no handler freezes a running domain at F = g − TTBASE + 1 (R368). -/
def holdDomain (y : Sys) (g : Nat) (d : Domain) : Sys :=
  if d.st = .ended || d.st = .saved then y
  else
    let f := if d.st = .run then g - d.ttbase + 1 else d.f
    setDom y { d with f := f, checked := some f, st := .frozen, stopHold := true }

end Sys2Proof.Machine
end

