-- ==== Sys2Proof/Machine/Timing.lean ====
section
/-! DEFINITION. What the timetable needs of a back-end instruction, and the shapes that instructions share: the names a
word carries to the push point (R17, R57 to R61), what it occupies and when (R73, R74, R77), its checks, its rows
and landings (R24, R135), and how a landing is made. -/

namespace Sys2Proof.Machine

/-! ## The push point -/

/-- The nine units (R73). -/
inductive UnitId where
  | ialu | imul | fpu | xfu | slide | lsu | mx | xu | sync | none
  deriving DecidableEq, Repr

/-- What a word names under an element type: whether it accepts the type (R40), the register numbers that must be
multiples (R58), a forbidden overlap (R59), an unordered encoding (R60), the vector registers it reads or writes
in field order and the first register of each 64-bit pair (R17), its tiles, the scalar register with its object handle (R28), the scalar registers whose
values the entry carries (R13, in the order of R135). -/
structure Names where
  typeOk    : Bool := true
  aligned   : List (Nat × Nat) := []
  overlap   : Bool := false
  unordered : Bool := false
  regs      : List (Nat × Bool) := []
  pairs     : List Nat := []
  tiles     : List Nat := []
  handle    : Option Nat := .none
  sregs     : List Nat := []

/-- The reason of R57 that depends on the group mode or CFG, the lowest that applies: 6, 7, 8, 9. -/
def Names.reason (n : Names) (det : Bool) : Option Nat :=
  if n.aligned.any fun p => p.1 % p.2 != 0 then some 6
  else if n.overlap then some 7
  else if !n.typeOk then some 8
  else if n.unordered && det then some 9 else Option.none

/-- The code of the first operand that the role may not name (R17, R126), in the order of R17: a source, a
destination, the second register of a pair that leaves its range, a tile. -/
def Names.notOwned (n : Names) (part role : Nat) : Option Nat :=
  match n.regs.find? fun p => !p.2 && !mayRead part role p.1 with
  | some p => some p.1
  | Option.none =>
    match n.regs.find? fun p => p.2 && !mayWrite part role p.1 with
    | some p => some p.1
    | Option.none =>
      match n.pairs.find? fun r => !onePlace part r with
      | some r => some (r + 1)
      | Option.none => (n.tiles.find? fun t => decide (nacc part ≤ t)).map fun t => 64 + t

/-- The home and index of a handle are in range, and CHIP is the issuing chip's unless HOME = 4 (R28). -/
def handleForm (chip h : Nat) : Bool :=
  field h 63 36 == 0 && decide (field h 16 14 ≤ 4) &&
  (if field h 16 14 = 4 then decide (field h 13 0 < 16384)
   else decide (field h 13 0 < 4096) && field h 35 17 == chip % 524288)

/-- Whether an index lies in a first-and-count range. -/
def inRange (r : Nat × Nat) (i : Nat) : Bool := decide (r.1 ≤ i) && decide (i < r.1 + r.2)

/-- Whether a virtual device's object range holds the handle on this chip, or the job's chip table on another (R28,
R350, R351), or a window in which it takes part (R276, R360). -/
def allocated (y : Sys) (vk h : Nat) : Bool :=
  let v := vdOf y vk
  let home := field h 16 14
  let idx := field h 13 0
  let own := v.st != .absent &&
    (if home < 4 then inRange ((v.dieobj[home]?).getD (0, 0)) idx
     else if field h 35 17 = vk / 32 % 524288 then inRange v.tulobj idx
     else (v.chipTable.any fun t => t.1 == vk / 32) && v.chipTable.any fun t => t.1 == field h 35 17 && inRange t.2 idx)
  match objOf y h with
  | some o => if o.window then o.body != .free && slotsWindow y vk h else own
  | Option.none => own
where
  /-- Some key slot of this chip is a window with this object in which the virtual device takes part. -/
  slotsWindow (y : Sys) (vk h : Nat) : Bool :=
    y.keys.any fun p => p.1 / 64 == vk / 32 && p.2.kind == 2 && p.2.wobj == h && p.2.parts.testBit (vk % 32)

/-! ## What an instruction occupies and does -/

/-- A program trap with its code, or a domain fault with its kind. -/
inductive Stop where
  | trap (code elem : Nat)
  | fault (kind : Nat)
  deriving DecidableEq, Repr

/-- A place that an instruction uses in a cycle (R74, R259); of a slot, vectors 0 to n − 1. -/
inductive Use where
  | vec (r k : Nat)
  | mask (m : Nat)
  | tile (t i : Nat)
  | slot (o : Nat) (write : Bool) (n : Nat)
  | spad (core banks : Nat)
  deriving DecidableEq, Repr

/-- Where an instruction acts. -/
structure Env where
  s    : State
  core : Nat
  role : Nat

/-- The core. -/
def Env.c (v : Env) : Core := coreOf v.s.sys v.core

/-- The domain. -/
def Env.dom (v : Env) : Domain := domOfCore v.s.sys v.core

/-- TTC. -/
def Env.now (v : Env) : Nat := v.dom.ttc v.s.gtc

/-- A back-end instruction in its entry: its unit, the rows it samples one by one, the first sample's offset and the
cycles per row, how long it occupies its unit and what each cycle is charged (in busy cycles, R101), what it uses
δ cycles after its issue, the sources it holds (last offset, registers, masks; R221), the deadline it must not
issue before (R72), whether it may issue yet in handler mode (R91), the checks at issue, a check made δ cycles after it
by an instruction that samples no row one by one (R80), the effect of issuing,
the landings made at issue with what the entry keeps, the sampling of a row with what the entry keeps after it,
a row's scratchpad read, and the vector registers whose read streams it consumes (R167). -/
structure BackOp where
  unit    : UnitId
  rows    : Nat := 0
  first   : Nat := 0
  step    : Nat := 1
  busy    : Nat := 1
  cost    : Nat → Nat := fun d => if d = 0 then 1 else 0
  indexed : Bool := false
  uses    : Nat → List Use := fun _ => []
  hold    : Nat × List Nat × List Nat := (0, [], [])
  deadline : Nat := 0
  ready   : Unit → Bool := fun _ => true
  check   : Unit → Option Stop := fun _ => Option.none
  late    : Nat → Option Stop := fun _ => Option.none
  noted   : Sys → Sys := fun y => y
  fire    : Sys → Sys := fun y => y
  issue   : Unit → List Landing × List Nat := fun _ => ([], [])
  sample  : Nat → Except Stop (List Landing × List Pend) := fun _ => .ok ([], [])
  keep    : Nat → Option (List Nat) := fun _ => Option.none
  access  : Pend → List Landing := fun _ => []
  reads   : List Nat := []

/-- A back-end instruction: what it names, and what it does in its entry. -/
structure Back where
  names : ETy → Names
  op    : Env → Entry → BackOp

/-- A landing of an entry of a role, nothing in it. -/
def Landing.of (v : Env) (e : Entry) (due : Nat) (tgt : Target) : Landing := {
  lid := 0, due := due, urole := v.role, useq := e.seq, tgt := tgt, reg := 0, row := 0, addr := 0, enable := 0,
  data := [], banks := 0, ticket := 0, byTick := 0, strm := false, last := false }

/-- The issue cycle of an entry; the present one before it issues. -/
def Entry.t (e : Entry) (v : Env) : Nat := e.issued.getD v.now

/-- A scalar result (R24). -/
def landScalar (v : Env) (e : Entry) (due sd val : Nat) : Landing :=
  { Landing.of v e due .scalar with reg := sd, data := [val] }

/-- A control-register result. -/
def landCsr (v : Env) (e : Entry) (due csr val : Nat) : Landing :=
  { Landing.of v e due .csr with reg := csr, data := [val] }

/-- An answer of a home in a scalar register: word 0 or 1 of it, NOREPLY if it has not arrived by the due cycle (R275). -/
def landAnswer (v : Env) (e : Entry) (due sd word ticket byTick : Nat) : Landing :=
  { Landing.of v e due .scalar with reg := sd, row := word, ticket := ticket, byTick := byTick }

/-! ## Activity (R219) -/

/-- Element i of an entry is active. -/
def Env.active (v : Env) (e : Entry) (i : Nat) : Bool :=
  decide (i < e.vl) && decide (e.start ≤ i) && v.c.guard e.mode i

/-- The elements of row k below VL. -/
def Env.rowElems (v : Env) (e : Entry) (k : Nat) : List Nat :=
  (List.range v.c.lanes).filterMap fun l => if k * v.c.lanes + l < e.vl then some (k * v.c.lanes + l) else none

/-- A full row of 64 containers from values by element: physical lane order. -/
def rowData (c : Core) (k : Nat) (f : Nat → Nat) : List Nat :=
  (List.range 64).map fun p =>
    match (List.range c.lanes).find? fun l => c.phys l == p with
    | some l => f (k * c.lanes + l)
    | Option.none => 0

/-- The enable mask of the containers of row k whose element satisfies p. -/
def rowMask (c : Core) (k : Nat) (p : Nat → Bool) : Nat :=
  (List.range c.lanes).foldl (fun m l => if p (k * c.lanes + l) then setBit m (c.phys l) else m) 0

/-! ## Streams (R165 to R167) -/

/-- Instructions that issue in cycle t use the stream. -/
def Stream.covers (st : Stream) (t : Nat) : Bool :=
  decide (st.since ≤ t) && (match st.till with | some u => decide (t < u) | Option.none => true)

/-- The stream that register r uses for an entry that issues at its issue cycle. -/
def Env.stream (v : Env) (e : Entry) (r : Nat) : Option Stream :=
  v.c.streams.find? fun st => st.reg == r && st.covers (e.t v)

/-- The displacement of the chunk at the cursor. -/
def Stream.disp (st : Stream) : Int :=
  ((st.cur.zip st.stride).map fun p => (p.1 : Int) * p.2).foldl (· + ·) 0

/-- The address of element i of the chunk at the cursor, which each row of a source finds anew (R165, R167; log entry 90). -/
def Env.chunkAddr (v : Env) (st : Stream) (i : Nat) : Option (Nat × Nat) :=
  elemAddr v.s.sys v.core st.base (st.disp + 4 * i)

/-- The cursor after a chunk (R167). -/
def Stream.advance (st : Stream) : Stream :=
  match st.cur, st.count with
  | [a, b, c], [x, y, z] =>
    if a + 1 < x then { st with cur := [a + 1, b, c] }
    else if b + 1 < y then { st with cur := [0, b + 1, c] }
    else if c + 1 < z then { st with cur := [0, 0, c + 1] }
    else { st with cur := [0, 0, 0], ended := true }
  | _, _ => st

/-- The cursor before its last chunk, for a row that a freeze takes back before its first access (R87). -/
def Stream.retreat (st : Stream) : Stream :=
  match st.cur, st.count with
  | [a, b, c], [x, y, z] =>
    if 0 < a then { st with cur := [a - 1, b, c] }
    else if 0 < b then { st with cur := [x - 1, b - 1, c] }
    else if 0 < c then { st with cur := [x - 1, y - 1, c - 1] }
    else { st with cur := [x - 1, y - 1, z - 1] }
  | _, _ => st

/-- The stream of a number. -/
def Core.streamAt (c : Core) (sid : Nat) : Option Stream := c.streams.find? fun st => st.sid == sid

/-- A core whose stream of a number has moved on; a wrap sets STREAMEND (R167). -/
def Core.advance (c : Core) (sid : Nat) : Core :=
  match c.streamAt sid with
  | some st =>
    let wrapped := st.advance.cur == [0, 0, 0]
    { c with
      streams := c.streams.map fun x => if x.sid == sid then st.advance else x
      streamend := if wrapped then c.streamend ||| (1#64 <<< st.reg) else c.streamend }
  | Option.none => c

/-- The core after an instruction that issued in cycle t has sampled its last row: the read streams among its sources
move on, each once (R167). -/
def Core.consume (c : Core) (rs : List Nat) (t : Nat) : Core :=
  (c.streams.filter fun st => rs.contains st.reg && !st.write && st.covers t).foldl
    (fun c st => c.advance st.sid) c

/-- OPERAND at issue: a read stream as destination, a write stream as source, a bound register in a pair or group
(R167, R236). -/
def Env.streamCheck (v : Env) (e : Entry) (srcs dsts : List Nat) (wide : Bool) : Option Stop :=
  let bad := (srcs.any fun r => match v.stream e r with | some st => st.write || wide | Option.none => false) ||
    (dsts.any fun r => match v.stream e r with | some st => !st.write || wide | Option.none => false)
  if bad then some (.trap causeOperand 0) else Option.none

/-- OPERAND at issue: a bound register in a cross-row instruction (R221). -/
def Env.boundCheck (v : Env) (e : Entry) (regs : List Nat) : Option Stop :=
  if regs.any fun r => (v.stream e r).isSome then some (.trap causeOperand 0) else Option.none

/-! ## Checks of a row's elements (R155, R156) -/

/-- n bytes at a place lie in a poisoned granule. -/
def touchesPoison (c : Core) (o n : Nat) : Bool := (List.range n).any fun b => c.poisoned (o + b)

/-- The first check of R156 on one element at a place: SPADDR, then ALIGN. -/
def placeStop (size i : Nat) : Option (Nat × Nat) → Option Stop
  | .none => some (.trap causeSpaddr i)
  | some (_, o) => if o % size ≠ 0 then some (.trap causeAlign i) else .none

/-- An access of a row to the scratchpad as its checks see it: the alignment and the bytes of an element, whether poison
traps, the elements that it touches, and the place of each. -/
structure Probe where
  size   : Nat
  bytes  : Nat
  poison : Bool
  on     : Nat → Bool
  place  : Nat → Option (Nat × Nat)

/-- The checks of R156 on a row whose accesses these are, in the order of R294: the addresses of each element in ascending
order, then what the bank-spread condition found, then poison at the lowest element. -/
def probeStop (y : Sys) (els : List Nat) (ps : List Probe) (spread : Option Stop) : Option Stop :=
  match els.findSome? fun i => ps.findSome? fun p => if p.on i then placeStop p.size i (p.place i) else Option.none with
  | some st => some st
  | Option.none =>
    match spread with
    | some st => some st
    | Option.none =>
      (els.find? fun i => ps.any fun p => p.poison && p.on i && (match p.place i with
        | some (t, o) => touchesPoison (coreOf y t) o p.bytes
        | Option.none => false)).map fun i => .trap causePoison i

/-- The stream n chunks on. -/
def Stream.after (st : Stream) : Nat → Stream
  | 0 => st
  | n + 1 => st.advance.after n

/-- The displacement of the chunk that a row which samples now stores to through a write stream: the chunk at which the cursor
will stand once the instructions whose last landings are in flight have landed (R167; log entry 90). -/
def Env.writeDisp (v : Env) (e : Entry) (st : Stream) : Int :=
  if (v.c.role v.role).handler then st.disp
  else (st.after (v.c.landings.filter fun l =>
    l.strm && l.addr == st.sid && l.last && !(l.urole == v.role && l.useq == e.seq)).length).disp

/-- The accesses of a row through the streams of some registers, each with the elements that pass through it. -/
def Env.streamProbes (v : Env) (e : Entry) (rs : List (Nat × (Nat → Bool))) : List Probe :=
  rs.filterMap fun r => (v.stream e r.1).map fun st =>
    { size := 4, bytes := 4, poison := !st.write, on := r.2
      place := fun i => if st.write then elemAddr v.s.sys v.core st.base (v.writeDisp e st + 4 * i) else v.chunkAddr st i }

/-- The container of element i that an instruction reads from vector register r: its storage, or its read stream. -/
def Env.elem (v : Env) (e : Entry) (r i : Nat) : Nat :=
  match v.stream e r with
  | Option.none => v.c.vec r i
  | some st => match v.chunkAddr st i with
    | some (t, o) => (coreOf v.s.sys t).snat o 4
    | Option.none => 0

/-- The banks that reading or landing row k of register r occupies, with the core (R74, R167). -/
def Env.rowBanks (v : Env) (e : Entry) (r k : Nat) : Nat × Nat :=
  match v.stream e r with
  | Option.none => (v.core, quad k)
  | some st =>
    match v.rowElems e k with
    | [] => (v.core, 0)
    | i :: l => match v.chunkAddr st i with
      | some (t, o) => (t, banksOf o (4 * (l.length + 1)))
      | Option.none => (v.core, 0)

/-- A ring register of code 6 or 7 whose tag is not the expected one (R173). -/
def Env.ringStale (v : Env) (r : Nat) : Bool :=
  isRing v.c.partN r && decide (6 ≤ rdir v.c.partN r) && v.c.ringTag r != v.c.ringExpected r

/-- The first failing check of a row in its sample cycle: stale ring tags of its sources (R80, R173), then those of its
registers' streams and of its own scratchpad accesses, each register with the elements that pass through it. -/
def Env.rowStopOn (v : Env) (e : Entry) (k : Nat) (srcs dsts : List (Nat × (Nat → Bool))) (own : List Probe)
    (spread : Option Stop) : Option Stop :=
  if srcs.any fun r => v.ringStale r.1 then some (.fault 8)
  else probeStop v.s.sys (v.rowElems e k) (v.streamProbes e (srcs ++ dsts) ++ own) spread

/-- The same for a row whose active elements pass through every register. -/
def Env.rowStop (v : Env) (e : Entry) (k : Nat) (srcs dsts : List Nat) (own : List Probe := [])
    (spread : Option Stop := Option.none) : Option Stop :=
  v.rowStopOn e k (srcs.map fun r => (r, v.active e)) (dsts.map fun r => (r, v.active e)) own spread

/-- The landing of row k of register r: the containers of the elements that p enables, through a write stream if r is
bound to one. -/
def landRow (v : Env) (e : Entry) (due r k : Nat) (p : Nat → Bool) (f : Nat → Nat) (last : Bool) : Landing :=
  { Landing.of v e due .vec with
    reg := r, row := k, enable := rowMask v.c k p, data := rowData v.c k f
    addr := ((v.stream e r).map Stream.sid).getD 0, disp := ((v.stream e r).map (v.writeDisp e)).getD 0
    banks := quad k, strm := (v.stream e r).isSome, last := last }

/-- The landing of row k of mask register m: one bit for each enabled element. -/
def landMask (v : Env) (e : Entry) (due m k : Nat) (p f : Nat → Bool) (last : Bool) : Landing :=
  { Landing.of v e due .mask with
    reg := m, row := k
    enable := maskOf v.c.lanes fun l => p (k * v.c.lanes + l)
    data := [maskOf v.c.lanes fun l => f (k * v.c.lanes + l)], last := last }

/-! ## Row by row (R73, R77) -/

/-- The busy cycles charged δ cycles after issue to an instruction that takes `step` cycles for each of its rows. -/
def rowCost (rows step d : Nat) : Nat :=
  if rows = 0 then (if d = 0 then 1 else 0) else if d % step = 0 && d / step < rows then step else 0

/-- The registers that hold an operand: one, or a pair (R23). -/
def pairOf (wide : Bool) (r : Nat) : List Nat := if wide then [r, r + 1] else [r]

/-- The element value of an operand of one register or a pair, low word first. -/
def Env.value (v : Env) (e : Entry) (regs : List Nat) (i : Nat) : Nat :=
  match regs with
  | [] => 0
  | r :: l => v.elem e r i + 4294967296 * Env.value v e l i

/-- The landings of row k of an instruction that works element by element: from the values of its operands, the containers
of its destination registers, for the elements that take a result. -/
def laneLands (lam step : Nat) (srcs : List (List Nat)) (dsts : List Nat) (takes : Env → Entry → Nat → Bool)
    (f : Env → Entry → Nat → List Nat → List Nat) (v : Env) (e : Entry) (k : Nat) : List Landing :=
  let res := fun i => f v e i (srcs.map fun rs => v.value e rs i)
  (List.range dsts.length).map fun j =>
    landRow v e (e.t v + lam + step * k) ((dsts[j]?).getD 0) k (fun i => decide (i < e.vl) && takes v e i)
      (fun i => ((res i)[j]?).getD 0) (k + 1 == v.c.rows e.vl)

/-- An instruction that works element by element on registers (R219, R221, R236): operands as lists of registers, and
from their values the containers of its destination registers. `takes` lists the elements that take a result:
all active ones, or (vsel) every element from the start index. -/
def laneOp (unit : UnitId) (lam step : Nat) (srcs : List (List Nat)) (dsts : List Nat) (masks : List Nat) (wide : Bool)
    (takes : Env → Entry → Nat → Bool) (f : Env → Entry → Nat → List Nat → List Nat) (v : Env) (e : Entry) : BackOp :=
  let n := v.c.rows e.vl
  let all := srcs.foldr (· ++ ·) []
  { unit := unit, rows := n, step := step, busy := max (step * n) 1, cost := rowCost n step
    uses := fun d => if d % step = 0 && d / step < n then
      (all.map fun r => .vec r (d / step)) ++ ((e.mode.guard :: masks).map .mask) else []
    check := fun _ => v.streamCheck e all dsts wide, reads := all
    sample := fun k =>
      match v.rowStop e k all dsts with
      | some st => .error st
      | Option.none => .ok (laneLands lam step srcs dsts takes f v e k, []) }

/-- The same for a mask destination: one bit for each element. -/
def laneMaskOp (unit : UnitId) (lam step : Nat) (srcs : List (List Nat)) (md : Nat) (masks : List Nat) (wide : Bool)
    (f : Env → Entry → Nat → List Nat → Bool) (v : Env) (e : Entry) : BackOp :=
  let n := v.c.rows e.vl
  let all := srcs.foldr (· ++ ·) []
  { unit := unit, rows := n, step := step, busy := max (step * n) 1, cost := rowCost n step
    uses := fun d => if d % step = 0 && d / step < n then
      (all.map fun r => .vec r (d / step)) ++ ((e.mode.guard :: masks).map .mask) else []
    check := fun _ => v.streamCheck e all [] wide, reads := all
    sample := fun k =>
      match v.rowStop e k all [] with
      | some st => .error st
      | Option.none =>
        .ok ([landMask v e (e.t v + lam + step * k) md k (v.active e)
          (fun i => f v e i (srcs.map fun rs => v.value e rs i)) (k + 1 == n)], []) }

/-! ## Making a landing -/

/-- Containers of a landing written at byte offset a of a storage: those enabled. -/
def putContainers (m : Mem) (a enable : Nat) (data : List Nat) : Mem :=
  (List.range 64).foldl (fun m l => if enable.testBit l then Mem.writes m (a + 4 * l) (toBytes 4 ((data[l]?).getD 0)) else m) m

/-- The bytes that a scratchpad landing writes: offset in its 256-byte block and value. -/
def spadBytes (l : Landing) : List (Nat × Byte) :=
  (List.range 256).filterMap fun b =>
    if l.enable.testBit b then some (b, BitVec.ofNat 8 ((l.data[b / 4]?).getD 0 / 256 ^ (b % 4))) else Option.none

/-- Write a row of bits into a mask register. -/
def putMaskRow (old : BitVec 512) (lanes row enable bits : Nat) : BitVec 512 :=
  (List.range lanes).foldl (fun m l =>
    if enable.testBit l then
      (if bits.testBit l then m ||| (1#512 <<< (row * lanes + l)) else m &&& ~~~(1#512 <<< (row * lanes + l)))
    else m) old

/-- The role-scope and core-scope control registers that a landing writes (R75, R122): VL, STRIPBASE, FLAGCAUSE, WGEN,
XDUE of the role, TSM, TSN, TSK of the core; number 0x1000 + j, which no register has, is the expected value of ring
register j (R174). -/
def putCsr (c : Core) (role csr val : Nat) : Core :=
  let r := c.role role
  if csr = 0x000 then c.setRole role { r with csrs := { r.csrs with vl := val } }
  else if csr = 0x005 then c.setRole role { r with csrs := { r.csrs with strip := d64 val } }
  else if csr = 0x007 then c.setRole role { r with csrs := { r.csrs with flagcause := d64 val } }
  else if csr = 0x008 then c.setRole role { r with csrs := { r.csrs with wgen := d64 val } }
  else if csr = 0x009 then c.setRole role { r with csrs := { r.csrs with xdue := d64 val } }
  else if csr = 0x047 then { c with tsm := d64 val }
  else if csr = 0x048 then { c with tsn := d64 val }
  else if csr = 0x049 then { c with tsk := d64 val }
  else if 0x1000 ≤ csr then { c with ringExp := c.ringExp.setIfInBounds (csr - 0x1000) (BitVec.ofNat 16 val) }
  else c

/-- The value of a landing that waits for a home's answer: its first word (row 0), its status word (row 1) or its VALUE
(row 2, for WGEN) if it arrived by its tick, else NOREPLY:
a mask of all ones, status 13, value 0 (R275, R298). -/
def answerWord (y : Sys) (l : Landing) : Nat :=
  match y.answers.find? fun a => a.ticket == l.ticket && decide (a.tick ≤ l.byTick) with
  | some a => if l.row = 0 then a.first else if l.row = 1 then a.status else a.status / 4294967296
  | Option.none => if l.row = 0 then 2 ^ 64 - 1 else if l.row = 1 then 0xFF0D else 0

/-- What a landing brings into a scalar or control register. -/
def landValue (y : Sys) (l : Landing) : Nat := if l.ticket = 0 then (l.data[0]?).getD 0 else answerWord y l

/-- A vector landing: containers, DIRTY, the ring tag when the last row lands, or the bytes and cursor of a write
stream (R19, R24, R123, R167). -/
def landVec (y : Sys) (core : Nat) (l : Landing) : Sys :=
  let c := coreOf y core
  if l.strm then
    match c.streamAt l.addr with
    | some st =>
      let els := (List.range c.lanes).filter fun w => l.enable.testBit (c.phys w)
      let bytes := els.flatMap fun w =>
        match elemAddr y core st.base (l.disp + 4 * ((l.row * c.lanes + w : Nat) : Int)) with
        | some (t, o) => (List.range 4).map fun b => (t, o + b, BitVec.ofNat 8 ((l.data[c.phys w]?).getD 0 / 256 ^ b))
        | Option.none => []
      let y := match bytes with
        | [] => y
        | (t, _, _) :: _ => setCore y ((coreOf y t).backWrite (bytes.map fun x => (x.2.1, x.2.2)))
      if l.last then setCore y ((coreOf y core).advance l.addr) else y
    | Option.none => y
  else
    let c := { c with
      pool := putContainers c.pool (2048 * l.reg + 256 * l.row) l.enable l.data
      dirty := c.dirty ||| (1#64 <<< l.reg) }
    let j := l.reg - rbase c.partN
    let c := if l.last && isRing c.partN l.reg then
        { c with ringTags := c.ringTags.setIfInBounds j (((c.ringTags[j]?).getD 0) + 1) } else c
    setCore y c

/-- Make a landing (R24, R135): what it writes takes its value. -/
def makeLanding (y : Sys) (core : Nat) (l : Landing) : Sys :=
  let c := coreOf y core
  let v0 := landValue y l
  match l.tgt with
  | .vec => landVec y core l
  | .mask =>
    if l.reg = 0 then y
    else
      let m := putMaskRow ((c.masks[l.reg]?).getD 0) c.lanes l.row l.enable v0
      setCore y { c with masks := c.masks.setIfInBounds l.reg m }
  | .scalar => setCore y (c.setRole l.urole ((c.role l.urole).setS l.reg (d64 v0)))
  | .tile => setCore y { c with
      pool := putContainers c.pool (tileBase c.partN l.reg + 256 * l.row) l.enable l.data
      dirtya := c.dirtya ||| (1#64 <<< l.reg) }
  | .spad =>
    match spTarget y core l.addr with
    | some t => setCore y ((coreOf y t).backWrite ((spadBytes l).map fun p => (field l.addr 21 0 + p.1, p.2)))
    | Option.none => y
  | .csr => setCore y (putCsr c l.urole l.reg v0)
  | .slot => setCore y { c with omem := putContainers c.omem (32768 * l.reg + 256 * l.row) l.enable l.data }

end Sys2Proof.Machine
end

