-- ==== Sys2Proof/Machine/Queue.lean ====
section
/-! DEFINITION. Issue queues: what an unretired entry still has to write (R12, R122), the push of a back-end word
(R13, R41, R66, R67), its execution in handler mode (R91), and its retirement (R14, R71). -/

namespace Sys2Proof.Machine

/-! ## Interlocks -/

/-- The scalar registers that a back-end instruction writes. -/
def scalarDst : Instr → List Nat
  | .mcount d _ | .mfirst d _ | .vextract d _ _ | .xgo d _ | .xdrain d _ _ | .xtag d _ | .tshape d _ => [d]
  | .vgrant d _ | .arrive d _ _ | .bwait d _ _ | .barshed d _ _ | .barjoin d _ _ | .acq d _ _ | .acqM d _ _
  | .qpush d _ _ | .qrecv d _ _ | .qproxy d _ _ | .launch d _ _ | .cwait d _ _ | .cancel d _
  | .coll d _ _ | .collwait d _ _ | .collabort d _ => [d, d + 1]
  | _ => []

/-- The role-scope control registers that a back-end instruction writes (R122). -/
def csrDst : Instr → List Nat
  | .vgrant _ _ => [0x000, 0x005]
  | .vldf _ _ _ => [0x007]
  | .bwait _ _ _ => [0x008]
  | .xgo _ _ => [0x009]
  | _ => []

/-! ## Stamps (R66) -/

/-- NS, the stamp that the role's next entry takes. -/
def RoleSt.ns (r : RoleSt) : Int := if 1 ≤ r.d then r.p + r.d else r.p + 1

/-! ## Queue positions, progress and retirement -/

/-- The position of an entry counted from VCP (R127). -/
def RoleSt.qpos (r : RoleSt) (seq : Nat) : Nat := (r.queue.findIdx? fun e => e.seq == seq).getD 0

/-- VCP: the sequence number of the oldest entry that has not retired (R123). -/
def RoleSt.vcp (r : RoleSt) : Nat := match r.queue with | [] => r.nextSeq | e :: _ => e.seq

/-- Replace an entry of the queue. -/
def RoleSt.setEntry (r : RoleSt) (e : Entry) : RoleSt :=
  { r with queue := r.queue.map fun x => if x.seq == e.seq then e else x }

/-- Whether something of an entry is still in flight: a landing or a scratchpad read. -/
def inFlight (c : Core) (role seq : Nat) : Bool :=
  (c.landings.any fun l => l.urole == role && l.useq == seq) ||
  c.pends.any fun p => p.role == role && p.seq == seq

/-- The rows of an instruction that samples its sources row by row; 0 for one that forms one row at its issue, for
those without rows, and for the matrix (R73, R87, R222, R260). -/
def rowsOf (c : Core) (e : Entry) : Nat :=
  match e.instr with
  | .mld _ _ | .mst _ _ => 1
  | .vredsumU _ _ | .vredmin _ _ | .vredmax _ _ | .vredminidx _ _ | .vredmaxidx _ _ => max (c.rows e.vl) 1
  | .vredsumO _ _ | .vscanO _ _ | .vgrant _ _ | .vbind _ _ | .vunbind _ | .mmabO _ _ _ | .mmabF _ _ _ | .mmad _ _ _
  | .mtbl _ _ | .mmal _ _ _ | .xscacc _ _ _ _ | .oclaim _ | .orelease _ | .oload _ _ | .aclear _ | .aload _ _
  | .astore _ _ | .tshape _ _ | .xgo _ _ | .xdrain _ _ _ | .xtag _ _ | .pgreq _ _ _ | .xinv _ _ | .xfence _ _
  | .arrive _ _ _ | .bwait _ _ _ | .barshed _ _ _ | .barjoin _ _ _ | .acq _ _ _ | .acqM _ _ _ | .rel _ | .bind _ _
  | .qpush _ _ _ | .qrecv _ _ _ | .qproxy _ _ _ | .launch _ _ _ | .cwait _ _ _ | .cancel _ _ | .sfence _
  | .coll _ _ _ | .collwait _ _ _ | .collabort _ _ | .vsave _ | .vrestore _ | .replay _ => 0
  | _ => c.rows e.vl

/-- An entry of a role has still to make its landing in a scalar or control register: it has not issued, a row of it has
still to sample or to read the scratchpad, or the landing is in flight. -/
def owes (c : Core) (role : Nat) (t : Target) (reg : Nat) (e : Entry) : Bool :=
  e.issued.isNone || decide (e.prog < rowsOf c e) || (c.pends.any fun p => p.role == role && p.seq == e.seq) ||
  c.landings.any fun l => l.urole == role && l.useq == e.seq && l.tgt == t && l.reg == reg

/-- The role that acts has a landing in a register outstanding: of an entry that writes it and has still to land it (R12, R122),
or in handler mode of the handler's own unfinished instruction (log entry 4). -/
def outstandingWrite (y : Sys) (t : Target) (dst : Instr → List Nat) (n : Nat) : Bool :=
  let r := me y
  if r.handler then (match r.hop with
    | some h => h.lands.any fun l => l.tgt == t && l.reg == n
    | none => false)
  else r.queue.any fun e => (dst e.instr).contains n && owes (coreOf y y.curCore) y.curRole t n e

/-- A scalar register that the role which acts has yet to write (R12). -/
def Sys.waits (y : Sys) (n : Nat) : Bool := decide (n ≠ 0) && outstandingWrite y .scalar scalarDst n

/-- A role-scope control register that the role which acts has yet to write (R122). -/
def Sys.waitsCsr (y : Sys) (c : Nat) : Bool := outstandingWrite y .csr csrDst c

/-- Whether a sampled row's first scratchpad access is still to come, so that it does not count as started (R87). -/
def unstartedPends (c : Core) (role : Nat) (e : Entry) : Nat :=
  match e.instr with
  | .vgath _ _ _ | .vscat _ _ _ | .vscadd _ _ _ | .vscaddBin _ _ _ | .vamo _ _ _ _ =>
    (c.pends.filter fun p => p.role == role && p.seq == e.seq).length
  | _ => 0

/-- The op of an entry, given the table of back-end instructions. -/
def opAt (tab : Instr → Option Back) (s : State) (core role : Nat) (e : Entry) : BackOp :=
  match tab e.instr with
  | some b => b.op ⟨s, core, role⟩ e
  | none => { unit := .none }

/-- An entry has fully retired: it has issued, every row of it has started, and nothing of it is in flight. -/
def retired (tab : Instr → Option Back) (s : State) (core role : Nat) (e : Entry) : Bool :=
  e.issued.isSome && decide ((opAt tab s core role e).rows ≤ e.prog) && !inFlight (coreOf s.sys core) role e.seq

/-- The role's completion is counted once its front end has halted and its last entry has retired (R71, R131); the control
program's domain, which has no counter, is COMPLETED once every role of it has (R89, R315). -/
def countHalt (y : Sys) (g core role : Nat) : Sys :=
  let r := roleOf y core role
  let d := domOfCore y core
  if r.halted && !r.handler && !r.counted && r.queue == [] then
    let y := setRole y core role { r with counted := true }
    if d.control then
      if (List.range 3).all fun k => (roleOf y core k).counted then
        setDom y { d with st := .ended, endStatus := statusCompleted, f := d.ttc g }
      else y
    else schedule y g (.counterCompletion d.launch.counter (3 * d.indexOf core + role)) noMsg
  else y

/-- Retire the role's entries that are done, oldest first (R14). -/
def retire (tab : Instr → Option Back) (s : State) (y : Sys) (core role : Nat) : Sys :=
  let r := roleOf y core role
  let s := { s with sys := y }
  let y := setRole y core role { r with queue := r.queue.dropWhile (retired tab s core role) }
  countHalt y s.gtc core role

/-! ## Landings in flight -/

/-- Whether a landing is in the scalar register s0, which discards what is written to it (R11). -/
def Landing.toS0 (l : Landing) : Bool := l.tgt == .scalar && l.reg == 0

/-- Put landings in flight, each with a number of its own; what would land in s0 is discarded. -/
def addLandings (y : Sys) (core : Nat) (ls : List Landing) : Sys :=
  let c := coreOf y core
  let ls := ls.filter fun l => !l.toS0
  let num := (List.range ls.length).zip ls
  setCore y { c with
    landings := c.landings ++ num.map fun p => { p.2 with lid := c.nextLid + p.1 }
    nextLid := c.nextLid + ls.length }

/-! ## The push of a back-end word -/

/-- The values of the scalar registers a word names, padded to three (R13, R135). -/
def RoleSt.opsOf (r : RoleSt) (ns : List Nat) : List Dword := ns.map r.s

/-- Whether an instruction carries the transfer shadow set (R121). -/
def isXgo : Instr → Bool
  | .xgo _ _ => true
  | _ => false

/-- The entry that the role would push now (R13, R121). -/
def RoleSt.entry (r : RoleSt) (i : Instr) (sregs : List Nat) : Entry := {
  instr := i, addr := r.pc, stamp := r.ns.toNat, seq := r.nextSeq, ops := r.opsOf sregs, mode := r.mode
  vl := r.csrs.vl, vtype := r.csrs.vtype, seed := r.csrs.seed, strip := r.csrs.strip, bin := r.csrs.binbase
  shadow := if isXgo i then r.csrs.shadow else Shadow.zero, issued := none, prog := 0, start := 0, acc := [], afterSf := r.lastSf }

/-- What the push point finds wrong with a word: the encoding checks of R57, then ownership (R17). -/
def pushCause (c : Core) (role : Nat) (r : RoleSt) (n : Names) : Option Cause :=
  match n.reason c.det with
  | some k => some (frontCause causeIllegal k r.pc)
  | none =>
    match n.notOwned c.partN role with
    | some k => some (frontCause causeOwner k r.pc)
    | none => none

/-- The handle check (R28, R61). -/
def handleCause (y : Sys) (core : Nat) (r : RoleSt) (n : Names) : Option Cause :=
  match n.handle with
  | none => none
  | some h =>
    if handleForm (chipOf core) (r.s h).toNat && allocated y (vdKeyOf y core) (r.s h).toNat then none
    else some (frontCause causeHandle 0 r.pc)

/-- The role after a push: the entry queued, P and D moved, the role armed, PC past the word (R66, R67, R70). -/
def RoleSt.push (r : RoleSt) (e : Entry) : RoleSt :=
  { r with
    queue := r.queue ++ [e], nextSeq := r.nextSeq + 1, p := r.ns, d := 0, armed := true
    pWord := r.pc, pc := r.pc + 4, lastSf := e.instr == .sfence 3 }

/-- The push of a back-end word outside handler mode, in cycle c = TTC (R13, R41, R67, R122): wait for a free entry;
the encoding and ownership checks; wait for VL and STRIPBASE and for the scalar sources; the handle check; the
late-push check; then the push. -/
def pushWord (b : Back) (i : Instr) (s : State) : Sys :=
  let y := s.sys
  let core := y.curCore
  let role := y.curRole
  let r := me y
  let n := b.names r.mode.ety
  if 64 ≤ r.queue.length then y
  else
    match pushCause (coreOf y core) role r n with
    | some k => raise s y core role k
    | none =>
      if y.waitsCsr 0x000 || n.sregs.any y.waits then y
      else
        match handleCause y core r n with
        | some k => raise s y core role k
        | none =>
          if r.ns < ((domOfCore y core).ttc s.gtc : Int) + 2 then
            raise s y core role (domainCause 2 r.pc 255)
          else setMe y (r.push (r.entry i n.sregs))

/-! ## Storage errors (R378) -/

/-- Whether a place of a core (its kind and number, as in `Core.bad`) lies in what a use reads. -/
def Use.meets (p : Nat × Nat) : Use → Bool
  | .vec r k => p == (0, 8 * r + k)
  | .mask m => p == (1, m)
  | .tile t i => p == (2, 128 * t + i)
  | .slot o w n => !w && p.1 == 3 && p.2 / 2048 == o && decide (p.2 % 2048 / 16 < n)
  | .spad _ _ => false

/-- The same for an entry, whose bound registers read the scratchpad instead (R167). -/
def Env.reads (v : Env) (e : Entry) (p : Nat × Nat) (u : Use) : Bool :=
  u.meets p && (match u with | .vec r _ => (v.stream e r).isNone | _ => true)

/-- DETAIL of a STORAGE record for a place (R379). -/
def placeDetail (p : Nat × Nat) : Nat := if p.1 = 0 then 1 else p.1

/-- VALUE of a STORAGE record for a place: the number of the register, tile, slot, entry or landing (R379). -/
def placeNumber (p : Nat × Nat) : Nat :=
  if p.1 = 0 then p.2 / 8 else if p.1 = 2 then p.2 / 128 else if p.1 = 3 then p.2 / 2048
  else if p.1 = 4 then p.2 % 32 else if p.1 = 5 then p.2 % 65536 else p.2

/-- A STORAGE record of a core for each of some places. -/
def noteStorage (y : Sys) (g core : Nat) (ps : List (Nat × Nat)) : Sys :=
  ps.foldl (fun y p =>
    writeEvent y g clsStorage (vdKeyOf y core % 32) (sourceOf 0 (core % 192)) (placeDetail p) (core % 192) (placeNumber p)) y

/-- The machine with no scratchpad granule marked and no scratchpad line struck. -/
def noneStruck (y : Sys) : Sys :=
  { y with cores := y.cores.map fun c : Core => { c with poison := [], bad := c.bad.filter fun p => p.1 != 7 } }

/-- The same with one scratchpad line struck. -/
def oneStruck (y : Sys) (core line : Nat) : Sys :=
  setCore (noneStruck y) { coreOf (noneStruck y) core with bad := [(7, line)] }

/-- The places among some that an entry reads in the n cycles from its issue on. -/
def struckUses (ps : List (Nat × Nat)) (v : Env) (e : Entry) (op : BackOp) (n : Nat) : List (Nat × Nat) :=
  ps.filter fun p => (List.range n).any fun d => (op.uses d).any (v.reads e p)

/-! ## Handler mode (R91) -/

/-- Make a list of landings at once. -/
def makeLandings (y : Sys) (core : Nat) (ls : List Landing) : Sys := ls.foldl (fun y l => makeLanding y core l) y

/-- The TTC by which the last of some landings is due. -/
def lastDue (t : Nat) (ls : List Landing) : Nat := ls.foldl (fun m l => max m l.due) t

/-- Whether a landing of a handler-mode instruction waits for the instruction's completion: a result in a scalar or a
control register, which front-end instructions wait for (R12, R122). -/
def Landing.waited (l : Landing) : Bool := l.ticket != 0 || l.tgt == .scalar || l.tgt == .csr

/-- Make the landings of a handler-mode instruction that do not wait. -/
def makeNow (y : Sys) (core : Nat) (ls : List Landing) : Sys := makeLandings y core (ls.filter fun l => !l.waited)

/-- What the rows of a handler-mode instruction have come to: the state, the TTC by which its last landing is due, its
entry, the landings that wait, and the check that stopped it. -/
structure RowRun where
  y     : Sys
  due   : Nat
  e     : Entry
  later : List Landing
  stop  : Option Stop

/-- What a row of a handler-mode instruction samples and what its reads bring, over a machine. -/
def rowOutcome (b : Back) (s : State) (core role : Nat) (e : Entry) (k : Nat) (y : Sys) :
    Option (List Landing × List Pend) × List Landing :=
  let op := b.op ⟨{ s with sys := y }, core, role⟩ e
  match op.sample k with
  | .error _ => (none, [])
  | .ok r => (some r, r.2.flatMap op.access)

/-- The scratchpad lines of some places, with their cores, that a row of a handler-mode instruction reads: struck alone, such a
line changes what the row comes to. -/
def rowLines (b : Back) (s : State) (core role : Nat) (e : Entry) (k : Nat) (ps : Core → List (Nat × Nat)) :
    List (Nat × Nat) :=
  s.sys.cores.flatMap fun c => ((ps c).filter fun p => p.1 == 7 &&
    rowOutcome b s core role e k (noneStruck s.sys) != rowOutcome b s core role e k (oneStruck s.sys c.id p.2)).map fun p => (c.id, p.2)

/-- What a row of a handler-mode instruction meets in the scratchpads (R378): struck lines mark their granules, corrected errors
are counted. -/
def noteRow (b : Back) (s : State) (core role : Nat) (e : Entry) (k : Nat) (y : Sys) : Sys :=
  let y := (rowLines b s core role e k Core.bad).foldl (fun y p => markStruck y s.gtc p.1 (16 * p.2) 16) y
  (rowLines b s core role e k Core.soft).foldl (fun y p =>
    countCorrection y (sourceOf 0 (p.1 % 192)) (vdKeyOf y core % 32) (16 * p.2)) y

/-- One row of a handler-mode instruction, done at once: its sample, its reads and its landings. The first failing
check stops it. -/
def handlerRow (b : Back) (s : State) (core role : Nat) (run : RowRun) (k : Nat) : RowRun :=
  if run.stop.isSome then run
  else
    let op := b.op ⟨{ s with sys := run.y }, core, role⟩ run.e
    let noted := noteRow b { s with sys := run.y } core role run.e k run.y
    match op.sample k with
    | .error st => { run with y := noted, stop := some st }
    | .ok (ls, ps) =>
      let y := makeNow noted core ls
      let y := if k + 1 = op.rows then setCore y ((coreOf y core).consume op.reads (run.e.issued.getD 0)) else y
      let r := ps.foldl (fun (a : Sys × Nat × List Landing) p =>
        let w : Env := ⟨{ s with sys := a.1 }, core, role⟩
        let ls := (b.op w run.e).access p
        (makeNow a.1 core ls, lastDue a.2.1 ls, a.2.2 ++ ls.filter Landing.waited))
        (y, lastDue run.due ls, run.later ++ ls.filter Landing.waited)
      { run with y := r.1, due := r.2.1, later := r.2.2, e := { run.e with acc := (op.keep k).getD run.e.acc } }

/-- The rows 0 to n − 1 of a handler-mode instruction. -/
def handlerRows (b : Back) (s : State) (core role : Nat) (n : Nat) (run : RowRun) : RowRun :=
  (List.range n).foldl (fun run k => handlerRow b s core role run k) run

/-- The instruction is a collwait. -/
def isCollwait : Instr → Bool
  | .collwait _ _ _ => true
  | _ => false

/-- The handler-mode entry: like a queued one, issued now; it takes no number of the queue. -/
def handlerEntry (s : State) (r : RoleSt) (core : Nat) (i : Instr) (sregs : List Nat) : Entry :=
  { r.entry i sregs with stamp := 0, issued := some ((domOfCore s.sys core).ttc s.gtc) }

/-- The execution of a back-end word in handler mode (R91): it issues once the previous one is complete and, for a
deadline instruction, once its deadline is reached; then it does all it does at once, but for its results in scalar and
control registers, and is complete at the tick by which its last landing is due (log entry 4). A program trap, and what
would be a domain fault outside handler mode, a storage error (R378) among them, ends the launch FAULTED. -/
def handlerWord (b : Back) (i : Instr) (s : State) : Sys :=
  let y := s.sys
  let core := y.curCore
  let role := y.curRole
  let r := me y
  let n := b.names r.mode.ety
  let e := handlerEntry s r core i n.sregs
  let v : Env := ⟨s, core, role⟩
  let op := b.op v e
  if r.hop.isSome then y
  else
    match pushCause (coreOf y core) role r n with
    | some k => raise s y core role k
    | none =>
      match handleCause y core r n with
      | some k => raise s y core role k
      | none =>
        if s.gtc < op.deadline || !op.ready () then y
        else
          let y := op.noted y
          match (op.check ()).orElse fun _ => (List.range op.busy).findSome? op.late with
          | some _ => endDomain s y (domOfCore y core) statusFaulted
          | none =>
            let t := e.t v
            let (ls, acc) := op.issue ()
            let e := { e with acc := acc }
            let y := makeNow (op.fire y) core ls
            let run := handlerRows b s core role op.rows ⟨y, lastDue t ls, e, ls.filter Landing.waited, none⟩
            let struck := struckUses v.c.bad v e op (run.due - t + 1)
            if run.stop.isSome then endDomain s run.y (domOfCore run.y core) statusFaulted
            else if struck != [] then endDomain s (noteStorage s.sys s.gtc core struck) (domOfCore s.sys core) statusFaulted
            else
              let y := (struckUses v.c.soft v e op (run.due - t + 1)).foldl (fun y p =>
                countCorrection y (sourceOf 0 (core % 192)) (vdKeyOf y core % 32) (placeNumber p)) run.y
              let r := roleOf y core role
              setRole y core role { r with
                pc := r.pc + 4, lastSf := i == .sfence 3, hop := some { ready := s.gtc + (run.due - t), lands := run.later, fence := isCollwait i } }

/-- A back-end word: pushed, or in handler mode executed (R13, R41, R91). -/
def back (b : Back) (i : Instr) : State → Result :=
  lift fun s => if (me s.sys).handler then handlerWord b i s else pushWord b i s

end Sys2Proof.Machine
end

