-- ==== Sys2Proof/Machine/Cycle.lean ====
section
/-! DEFINITION. One cycle of a domain's back ends: every fault of the cycle is found before anything of it takes effect
(R75, R80, R82, R85, R87, R128, R221, R378); then entries issue (R14), rows sample (R74), scratchpad reads are made
(R77, R78), scalar accesses are served (R115) and landings land (R24). -/

namespace Sys2Proof.Machine

/-! ## What is active in a cycle -/

/-- An entry that has issued, or issues in this cycle, with its place and its op. -/
structure Live where
  core  : Nat
  role  : Nat
  e     : Entry
  t     : Nat
  fresh : Bool
  op    : BackOp

/-- The entries of a role that have issued, and the head of the rest if its stamp is this cycle (R14). -/
def liveOf (tab : Instr → Option Back) (s : State) (cyc core role : Nat) : List Live :=
  let r := roleOf s.sys core role
  let issued := (r.queue.filter fun e => e.issued.isSome).map fun e =>
    (⟨core, role, e, e.issued.getD 0, false, opAt tab s core role e⟩ : Live)
  match r.queue.find? fun e => e.issued.isNone with
  | some e => if e.stamp = cyc then issued ++ [⟨core, role, e, cyc, true, opAt tab s core role e⟩] else issued
  | none => issued

/-- All of them in a domain, by core and role L, C, S. -/
def livesOf (tab : Instr → Option Back) (s : State) (d : Domain) (cyc : Nat) : List Live :=
  d.cores.flatMap fun c => (List.range 3).flatMap fun r => liveOf tab s cyc c r

/-- The rows of an entry that are due to sample in this cycle: usually one; after a freeze each whose sample cycle has
passed (R87, R90). -/
def Live.dueRows (l : Live) (cyc : Nat) : List Nat :=
  (List.range l.op.rows).filter fun k => decide (l.e.prog ≤ k) && decide (l.t + l.op.first + l.op.step * k ≤ cyc)

/-- The banks of a place, with the core whose banks they are (R21, R248, R259). -/
def useBanks (v : Env) (e : Entry) : Use → Nat × Nat
  | .vec r k => v.rowBanks e r k
  | .tile _ i => (v.core, half i)
  | .spad c b => (c, b)
  | _ => (v.core, 0)

/-- The elements below VL of the row that a landing brings. -/
def Landing.width (c : Core) (l : Landing) : Nat :=
  match (c.role l.urole).queue.find? fun e => e.seq == l.useq with
  | some e => min c.lanes (e.vl - l.row * c.lanes)
  | none => c.lanes

/-- The banks a landing occupies, with their core: those it names, or through a write stream those of the row's bytes below
VL (R156, R167). -/
def landBanks (s : State) (core : Nat) (l : Landing) : Nat × Nat :=
  if l.tgt = .spad then ((spTarget s.sys core l.addr).getD core, l.banks)
  else if l.strm then
    let c := coreOf s.sys core
    match c.streamAt l.addr with
    | some st => match elemAddr s.sys core st.base (l.disp + 4 * ((l.row * c.lanes : Nat) : Int)) with
      | some (t, o) => (t, banksOf o (4 * l.width c))
      | none => (core, 0)
    | none => (core, 0)
  else (core, l.banks)

/-- What one instruction occupies in a cycle: its place in the queue, its unit, banks by core, operand slots, and the
targets its landings reach. -/
structure Occupancy where
  core  : Nat
  role  : Nat
  seq   : Nat
  addr  : Dword
  unit  : UnitId
  banks : List (Nat × Nat)
  slots : List (Nat × Bool)
  lands : List (Target × Nat × Nat × Nat)

/-- What a landing reaches, for the landing conflict of R75: a row of a vector register or tile, a mask register, a
scalar or role-scope control register of its role, a core-scope one. -/
def Landing.key (l : Landing) : Target × Nat × Nat × Nat :=
  match l.tgt with
  | .vec => (.vec, l.reg, l.row, 0)
  | .tile => (.tile, l.reg, l.row / 2, 0)
  | .mask => (.mask, l.reg, 0, 0)
  | .scalar => (.scalar, l.reg, 0, l.urole)
  | .csr => (.csr, l.reg, 0, if l.reg < 0x40 then l.urole else 0)
  | .spad => (.spad, 0, 0, 0)
  | .slot => (.slot, 0, 0, 0)

/-- Whether a landing can meet another at its target: a scratchpad write, also one through a write stream, and a slot vector
meet it at banks alone. -/
def Landing.keyed (l : Landing) : Bool := l.tgt != .spad && l.tgt != .slot && !l.strm

/-- What is in use by an entry in a cycle. -/
def Live.occupies (s : State) (cyc : Nat) (l : Live) : Occupancy :=
  let v : Env := ⟨s, l.core, l.role⟩
  let uses := l.op.uses (cyc - l.t)
  let c := coreOf s.sys l.core
  let lands := c.landings.filter fun x => x.due == cyc && x.urole == l.role && x.useq == l.e.seq
  let pends := c.pends.filter fun p => p.due == cyc && p.role == l.role && p.seq == l.e.seq
  { core := l.core, role := l.role, seq := l.e.seq, addr := l.e.addr
    unit := if l.op.unit != .none && decide (cyc - l.t < l.op.busy) then l.op.unit else .none
    banks := (uses.map (useBanks v l.e)) ++ (lands.map (landBanks s l.core)) ++ pends.map fun p => (p.core, p.banks)
    slots := (uses.filterMap fun u => match u with | .slot o w _ => some (o, w) | _ => none) ++
      (lands.filter fun x => x.tgt == .slot).map fun x => (x.reg, true)
    lands := (lands.filter Landing.keyed).map Landing.key }

/-- The landings that a replay reinstated (R137): they belong to no entry, and count as one instruction's accesses. -/
def heldOccupancy (s : State) (cyc core : Nat) : Occupancy :=
  let c := coreOf s.sys core
  let lands := c.landings.filter fun x => x.due == cyc &&
    !((c.role x.urole).queue.any fun e => e.seq == x.useq) 
  { core := core, role := 3, seq := 0, addr := 0, unit := .none
    banks := lands.map (landBanks s core), slots := []
    lands := (lands.filter Landing.keyed).map Landing.key }

/-! ## Conflicts (R75, R259) -/

/-- Two instructions meet at the same banks of a core. -/
def banksMeet (a b : List (Nat × Nat)) : Bool := a.any fun p => b.any fun q => p.1 == q.1 && (p.2 &&& q.2) != 0

/-- Two instructions meet at an operand slot that one of them writes. -/
def slotsMeet (a b : Occupancy) : Bool :=
  a.core == b.core && a.slots.any fun p => b.slots.any fun q => p.1 == q.1 && (p.2 || q.2)

/-- Whether two occupancies are of different instructions. -/
def Occupancy.differs (a b : Occupancy) : Bool := !(a.core == b.core && a.role == b.role && a.seq == b.seq)

/-- The conflict kinds that a meets with b: 5 unit, 6 bank, 7 landing (R81). -/
def conflictKinds (a b : Occupancy) : List Nat :=
  if !a.differs b then []
  else
    (if a.unit != .none && a.core == b.core && a.unit == b.unit then [5] else []) ++
    (if banksMeet a.banks b.banks || slotsMeet a b then [6] else []) ++
    (if a.core == b.core && a.lands.any b.lands.contains then [7] else [])

/-- The domain faults of one instruction among all: its conflicts. -/
def conflictsOf (all : List Occupancy) (a : Occupancy) : List Nat := all.flatMap (conflictKinds a)

/-- A cross-row instruction's held source that a landing of another instruction reaches in this cycle (R221). -/
def holdBroken (cyc : Nat) (l : Live) (o : Occupancy) : Bool :=
  decide (l.t < cyc) && decide (cyc ≤ l.t + l.op.hold.1) && l.core == o.core &&
  !(l.role == o.role && l.e.seq == o.seq) &&
  o.lands.any fun k => (k.1 == .vec && l.op.hold.2.1.contains k.2.1) || (k.1 == .mask && l.op.hold.2.2.contains k.2.1)

/-! ## Energy (R85, R101) -/

/-- The charge of one busy cycle of a unit, in pJ. -/
def unitCharge (u : UnitId) (indexed : Bool) : Nat :=
  match u with
  | .ialu => 90
  | .imul => 180
  | .fpu => 280
  | .xfu => 160
  | .slide => 150
  | .lsu => if indexed then 520 else 240
  | .mx => 2600
  | .xu => 120
  | .sync => 40
  | .none => 0

/-- The charge of an entry in a cycle. -/
def Live.charge (cyc : Nat) (l : Live) : Nat := l.op.cost (cyc - l.t) * unitCharge l.op.unit l.op.indexed

/-- The rows of a core whose charge would take its running charge above EPF, charged in the order L, C, S, each after those
before it (R85, R101; log entry 93). -/
def overruns (epf : Nat) (cyc : Nat) (start : Nat) : List Live → List (Nat × Nat)
  | [] => []
  | l :: ls =>
    let now := start + l.charge cyc
    if l.charge cyc ≠ 0 && epf < now then (l.role, l.e.seq) :: overruns epf cyc now ls else overruns epf cyc now ls

/-! ## Storage errors (R378) -/

/-- The places among some that an entry reads in this cycle: register rows, tile rows and slots, its queue entry at its
issue, its landings when they land. -/
def Live.placesRead (s : State) (cyc : Nat) (l : Live) (ps : List (Nat × Nat)) : List (Nat × Nat) :=
  let c := coreOf s.sys l.core
  let v : Env := ⟨s, l.core, l.role⟩
  ps.filter fun p => (l.op.uses (cyc - l.t)).any (v.reads l.e p) || (l.fresh && p == (5, 65536 * l.role + l.e.seq)) ||
    c.landings.any fun x => x.due == cyc && x.urole == l.role && x.useq == l.e.seq && p == (6, x.lid)

/-- Those that an uncorrectable error has struck. -/
def Live.badPlaces (s : State) (cyc : Nat) (l : Live) : List (Nat × Nat) := l.placesRead s cyc (coreOf s.sys l.core).bad

/-- What the checks, the rows due and the reads due of an entry come to. -/
def Live.outcome (tab : Instr → Option Back) (s : State) (cyc : Nat) (l : Live) (y : Sys) :
    Option Stop × List (Option (List Landing × List Pend)) × List Landing :=
  let op := opAt tab { s with sys := y } l.core l.role l.e
  let pends := (coreOf y l.core).pends.filter fun p => p.role == l.role && p.seq == l.e.seq && p.due == cyc && !p.done
  (if l.fresh then op.check () else none,
    (l.dueRows cyc).map fun k => (match op.sample k with | .ok r => some r | .error _ => none),
    pends.flatMap op.access)

/-- An entry reads a struck line of a scratchpad in this cycle: struck alone, the line changes what the entry comes to. -/
def Live.readsLine (tab : Instr → Option Back) (s : State) (cyc : Nat) (core line : Nat) (l : Live) : Bool :=
  l.outcome tab s cyc (noneStruck s.sys) != l.outcome tab s cyc (oneStruck s.sys core line)

/-- The scratchpad lines of some places, with their cores, that the entries read in this cycle. -/
def linesRead (tab : Instr → Option Back) (s : State) (cyc : Nat) (ls : List Live) (ps : Core → List (Nat × Nat)) :
    List (Nat × Nat) :=
  s.sys.cores.flatMap fun c => ((ps c).filter fun p => p.1 == 7 && ls.any (Live.readsLine tab s cyc c.id p.2)).map fun p => (c.id, p.2)

/-- The SRAM errors that the reads of a cycle meet (R378): struck scratchpad lines mark their granules, corrected errors are
counted. -/
def noteSram (tab : Instr → Option Back) (s : State) (d : Domain) (cyc : Nat) (y : Sys) : Sys :=
  let ls := livesOf tab s d cyc
  let y := (linesRead tab s cyc ls Core.bad).foldl (fun y p => markStruck y s.gtc p.1 (16 * p.2) 16) y
  let y := (linesRead tab s cyc ls Core.soft).foldl (fun y p =>
    countCorrection y (sourceOf 0 (p.1 % 192)) (d.vd % 32) (16 * p.2)) y
  ls.foldl (fun y l => (l.placesRead s cyc (coreOf s.sys l.core).soft).foldl (fun y p =>
    countCorrection y (sourceOf 0 (l.core % 192)) (d.vd % 32) (placeNumber p)) y) y

/-- A read of this cycle meets an uncorrectable error in a register row, tile row, slot, queue entry or held landing. -/
def Live.badRead (s : State) (cyc : Nat) (l : Live) : Bool := l.badPlaces s cyc != []

/-! ## All faults of a cycle -/

/-- A stop of an entry as a cause (R81, R127). -/
def stopCause (r : RoleSt) (e : Entry) : Stop → Cause
  | .trap code elem => entryCause code elem e (r.qpos e.seq)
  | .fault kind => domainCause kind e.addr (r.qpos e.seq)

/-- The stops that an entry meets on its own in a cycle: at issue the early wait (R72) and the checks of its chapter, and
the checks of the rows that sample (R156). -/
def Live.stops (s : State) (d : Domain) (cyc : Nat) (l : Live) : List Stop :=
  (if l.fresh then
    (if d.ttbase + cyc < l.op.deadline then [.fault 4] else []) ++ (l.op.check ()).toList
   else []) ++
  (if l.fresh && (l.op.check ()).isSome then [] else (l.op.late (cyc - l.t)).toList) ++
  (if l.fresh && (l.op.check ()).isSome then []
   else (l.dueRows cyc).filterMap fun k => match l.op.sample k with | .error st => some st | .ok _ => none) ++
  (if l.badRead s cyc then [.fault 11] else [])

/-- Rows of an issued instruction have still to go through a bound stream (R167). -/
def Live.streaming (tab : Instr → Option Back) (s : State) (l : Live) : Bool :=
  !l.fresh && decide (l.e.prog < l.op.rows) &&
  (tab l.e.instr).any fun b => (b.names l.e.mode.ety).regs.any fun p => (Env.stream ⟨s, l.core, l.role⟩ l.e p.1).isSome

/-- An sfence issues while such an access of its core is still to be made: an early wait (R189, R314). -/
def Live.fencesEarly (tab : Instr → Option Back) (s : State) (all : List Live) (l : Live) : Bool :=
  l.fresh && (match l.e.instr with | .sfence _ => true | _ => false) &&
  all.any fun k => k.core == l.core && k.streaming tab s

/-- Every cause that the back ends of a domain meet in a cycle, by core and role. -/
def cycleCauses (tab : Instr → Option Back) (s : State) (d : Domain) (cyc : Nat) : List (Nat × Nat × Cause) :=
  let ls := livesOf tab s d cyc
  let occ := ls.map (Live.occupies s cyc)
  let all := occ ++ d.cores.map (heldOccupancy s cyc)
  let own := ls.flatMap fun l => ((l.stops s d cyc) ++ if l.fencesEarly tab s ls then [Stop.fault 4] else []).map fun st => (l.core, l.role, stopCause (roleOf s.sys l.core l.role) l.e st)
  let conf := occ.flatMap fun a => (conflictsOf all a).map fun k =>
    (a.core, a.role, domainCause k a.addr ((roleOf s.sys a.core a.role).qpos a.seq))
  let hold := ls.flatMap fun l => (all.filter (holdBroken cyc l)).flatMap fun o =>
    (l.core, l.role, domainCause 7 l.e.addr ((roleOf s.sys l.core l.role).qpos l.e.seq)) ::
    (if o.role < 3 then [(o.core, o.role, domainCause 7 o.addr ((roleOf s.sys o.core o.role).qpos o.seq))] else [])
  let energy := d.cores.flatMap fun c =>
    let mine := ls.filter fun l => l.core == c
    (overruns d.launch.epf cyc (coreOf s.sys c).energy mine).filterMap fun p =>
      (mine.find? fun l => l.role == p.1 && l.e.seq == p.2).map fun l =>
        (c, p.1, domainCause 9 l.e.addr ((roleOf s.sys c p.1).qpos p.2))
  own ++ conf ++ hold ++ energy

/-- The charges and bank counts of a cycle that meets no fault (R76, R101). -/
def accountCycle (tab : Instr → Option Back) (s : State) (d : Domain) (cyc : Nat) : Sys :=
  let ls := livesOf tab s d cyc
  let banks := (ls.map (Live.occupies s cyc) ++ d.cores.map (heldOccupancy s cyc)).flatMap Occupancy.banks
  d.cores.foldl (fun y c =>
    let k := coreOf y c
    let used := banks.foldl (fun m p => if p.1 = c then m ||| p.2 else m) 0
    let mine := ls.filter fun l => l.core == c
    setCore y { k with
      tused := (s.gtc, used)
      energy := k.energy + (mine.map (Live.charge cyc)).foldl (· + ·) 0
      busy := (List.range 64).map fun b => ((k.busy[b]?).getD 0) + b01 (used.testBit b) }) s.sys

/-! ## What a freeze leaves of a core (R87, R260) -/

/-- A row of an indexed instruction that has sampled and not yet made its first scratchpad access has not started (R87). It
keeps what it sampled for its access on resume (R90; log entry 76); a save record, which holds no such row, takes it back. -/
def takeBack (tab : Instr → Option Back) (s : State) (core role : Nat) (y : Sys) (e : Entry) : Sys :=
  let c := coreOf y core
  let op := opAt tab s core role e
  let mine := fun p : Pend => p.role == role && p.seq == e.seq
  let n := (c.pends.filter mine).length
  if !op.indexed || n = 0 then y
  else
    let c := { c with
      pends := c.pends.filter fun p => !mine p
      streams := if op.rows ≤ e.prog then c.streams.map fun st : Stream =>
          if op.reads.contains st.reg && !st.write && st.covers (e.issued.getD 0) then st.retreat else st
        else c.streams }
    setCore y (c.setRole role ((c.role role).setEntry { e with prog := e.prog - n }))

/-- A landing of an operand slot or of TSM, TSN, TSK, which a freeze does not hold (R260). -/
def Landing.unheld (l : Landing) : Bool := l.tgt == .slot || (l.tgt == .csr && decide (0x47 ≤ l.reg) && decide (l.reg ≤ 0x49))

/-- What a started instruction has still to sample or read when its domain freezes: the cycle, its place, and the
scratchpad read that waits, or none for a row of a matrix instruction. -/
structure Owed where
  cyc  : Nat
  core : Nat
  role : Nat
  seq  : Nat
  k    : Nat
  pend : Option Pend

/-- Put an element before the first one of a greater key. -/
def insertBy {α : Type} (key : α → Nat) (x : α) : List α → List α
  | [] => [x]
  | a :: l => if key x < key a then x :: a :: l else a :: insertBy key x l

/-- A list in ascending order of a key; equal keys keep their order. -/
def sortBy {α : Type} (key : α → Nat) (l : List α) : List α := l.foldl (fun acc x => insertBy key x acc) []

/-- The rows that instructions which form one row (R260) have still to sample, and the reads that started rows have
still to make, on a core. -/
def owedOf (tab : Instr → Option Back) (s : State) (core : Nat) : List Owed :=
  let c := coreOf s.sys core
  let rows := (List.range 3).flatMap fun r => ((c.role r).queue.filter fun e => e.issued.isSome && rowsOf c e == 0).flatMap fun e =>
    let op := opAt tab s core r e
    (List.range op.rows).filterMap fun k =>
      if e.prog ≤ k then some (⟨e.issued.getD 0 + op.first + op.step * k, core, r, e.seq, k, none⟩ : Owed) else none
  let unstarted := fun p : Pend => ((c.role p.role).queue.find? fun e => e.seq == p.seq).any fun e => (opAt tab s core p.role e).indexed
  rows ++ (c.pends.filter fun p => !p.done && !unstarted p).map fun p => ⟨p.due, core, p.role, p.seq, p.k, some p⟩

/-- The state as a cycle of a frozen domain would find it: the held landings due before it made. -/
def overlay (y : Sys) (d : Domain) (cyc : Nat) : Sys :=
  let all := d.cores.flatMap fun c => ((coreOf y c).landings.filter fun l => decide (l.due < cyc) && l.ticket == 0 && !l.done).map fun l => (c, l)
  (sortBy (fun p : Nat × Landing => p.2.due) all).foldl (fun y p => makeLanding y p.1 p.2) y

/-- Make what is owed (R87: every started row completes): sampled or read from what its cycle would find (log entry
44), its landings held. -/
def payOwed (tab : Instr → Option Back) (s : State) (d : Domain) (y : Sys) (o : Owed) : Sys :=
  match (roleOf y o.core o.role).queue.find? fun e => e.seq == o.seq with
  | none => y
  | some e =>
    let op := opAt tab { s with sys := overlay y d o.cyc } o.core o.role e
    match o.pend with
    | some p =>
      let y := addLandings y o.core (op.access p)
      let c := coreOf y o.core
      setCore y { c with pends := c.pends.map fun x => if x == p then { x with done := true } else x }
    | none =>
      match op.sample o.k with
      | .error _ => y
      | .ok (ls, _) =>
        let y := setRole y o.core o.role ((roleOf y o.core o.role).setEntry { e with prog := o.k + 1, acc := (op.keep o.k).getD e.acc })
        addLandings y o.core ls

/-- Whether the instruction of a landing meets a bank, slot or landing conflict in the cycle in which the landing is due. -/
def Landing.clashes (tab : Instr → Option Back) (s : State) (d : Domain) (core : Nat) (l : Landing) : Bool :=
  let all := ((livesOf tab s d l.due).filter fun k => !k.fresh || l.due == d.f).map (Live.occupies s l.due) ++
    d.cores.map (heldOccupancy s l.due)
  all.any fun a => a.core == core && a.role == l.urole && a.seq == l.useq &&
    (conflictsOf all a).any fun k => k == 6 || k == 7

/-- Matrix landings outside the tiles are made, in the order in which they come due (R260); of those that a conflict meets none
takes effect (R75, R251). They go on occupying their places until their cycles, in which their entries retire (R90; log entry
91). -/
def settleUnheld (tab : Instr → Option Back) (s : State) (d : Domain) (y : Sys) (core : Nat) : Sys :=
  let all := (coreOf y core).landings.filter fun l => l.unheld && !l.done
  let made := sortBy Landing.due (all.filter fun l => !l.clashes tab { s with sys := y } d core)
  let y := made.foldl (fun y l => makeLanding y core l) y
  let c := coreOf y core
  setCore y { c with landings := c.landings.map fun l => if l.unheld then { l with done := true } else l }

/-- The cores of a frozen domain after its freeze: every started row is completed, and its landings are held, but for those of
R260. -/
def settle (tab : Instr → Option Back) (s : State) (y : Sys) (dom : Nat) : Sys :=
  match domAt y dom with
  | some d =>
    if d.st = .frozen then
      let owed := sortBy Owed.cyc (d.cores.flatMap (owedOf tab { s with sys := y }))
      let y := owed.foldl (payOwed tab s d) y
      d.cores.foldl (settleUnheld tab s d) y
    else y
  | none => y

/-- A first row that traps leaves its instruction partially issued, with no row started (R88, R293): it counts as issued,
and the checks of its issue are not made again. -/
def issueTrapped (s : State) (cyc : Nat) (y : Sys) (l : Live) : Sys :=
  let trapped := (l.dueRows cyc).any fun k => match l.op.sample k with | .error (.trap _ _) => true | _ => false
  if !l.fresh || (l.op.check ()).isSome || s.gtc < l.op.deadline || !trapped then y
  else
    let (ls, acc) := l.op.issue ()
    let y := l.op.fire y
    let y := setRole y l.core l.role ((roleOf y l.core l.role).setEntry { l.e with issued := some cyc, acc := acc })
    addLandings y l.core ls

/-- Check a cycle of a domain once, before anything of it takes effect (R82): with a cause, every role that met one
enters its handler and the domain freezes at F = c; without, the cycle is accounted for. -/
def guardCycle (tab : Instr → Option Back) (s : State) (dom : Nat) : Sys :=
  match domAt s.sys dom with
  | none => s.sys
  | some d =>
    let cyc := d.ttc s.gtc
    if d.checked = some cyc || (d.st != .run && d.st != .frozen) then s.sys
    else
      let causes := cycleCauses tab s d cyc
      let mark := fun (y : Sys) => match domAt y dom with
        | some d => setDom y { d with checked := some cyc }
        | none => y
      if causes = [] && d.st = .run then mark (noteSram tab s d cyc (accountCycle tab s d cyc))
      else
        let y := mark (causes.foldl (fun y p =>
          match (roleOf y p.1 p.2.1).aside with
          | some a => if a.tick = s.gtc then takeCause y s.gtc p.1 p.2.1 p.2.2 else y
          | none => takeCause y s.gtc p.1 p.2.1 p.2.2) s.sys)
        let y := (livesOf tab s d cyc).foldl (issueTrapped s cyc) y
        let y := (livesOf tab s d cyc).foldl (fun y l => noteStorage y s.gtc l.core (l.badPlaces s cyc)) y
        settle tab s (noteSram tab s d cyc y) dom

/-- The state after the cycle of a core's domain has been checked. -/
def guarded (tab : Instr → Option Back) (s : State) (core : Nat) : State :=
  { s with sys := guardCycle tab s (coreOf s.sys core).dom }

/-! ## Issue, sample, read, land -/

/-- ENTRY_ISSUE (R14): the first entry of the role that has not issued issues, if its stamp is this cycle. -/
def issueEntry (tab : Instr → Option Back) (s : State) (core role : Nat) : Sys :=
  let s := guarded tab s core
  let d := domOfCore s.sys core
  let cyc := d.ttc s.gtc
  let r := roleOf s.sys core role
  if d.st != .run then s.sys
  else
    match r.queue.find? fun e => e.issued.isNone with
    | none => s.sys
    | some e =>
      if e.stamp ≠ cyc then s.sys
      else
        let op := opAt tab s core role e
        let (ls, acc) := op.issue ()
        let y := op.fire s.sys
        let y := setRole y core role ((roleOf y core role).setEntry { e with issued := some cyc, acc := acc })
        retire tab s (addLandings y core ls) core role

/-- The scratchpad reads that rows have still to make, put in flight. -/
def addPends (y : Sys) (core : Nat) (ps : List Pend) : Sys :=
  let c := coreOf y core
  setCore y { c with pends := c.pends ++ ps }

/-- ROW_SAMPLE of row k (R74): its sources are sampled, its landings are on their way, its scratchpad read waits. -/
def sampleRow (tab : Instr → Option Back) (s : State) (core role seq k : Nat) : Sys :=
  let s := guarded tab s core
  let d := domOfCore s.sys core
  let cyc := d.ttc s.gtc
  if d.st != .run then s.sys
  else
    match (roleOf s.sys core role).queue.find? fun e => e.seq == seq with
    | none => s.sys
    | some e =>
      if e.prog ≠ k || e.issued.isNone then s.sys
      else
        let op := opAt tab s core role e
        match op.sample k with
        | .error _ => s.sys
        | .ok (ls, ps) =>
          let y := setRole s.sys core role ((roleOf s.sys core role).setEntry
            { e with prog := k + 1, acc := (op.keep k).getD e.acc })
          let y := if k + 1 = op.rows then setCore y ((coreOf y core).consume op.reads (e.issued.getD cyc)) else y
          retire tab s (addPends (addLandings y core ls) core ps) core role

/-- A row's scratchpad read without the elements below a start index that a handler has set meanwhile (R293). -/
def Pend.from (p : Pend) (start : Nat) : Pend := { p with elems := p.elems.filter fun x => decide (start ≤ x.idx) }

/-- The scratchpad reads of row k of an entry that are due (R77, R78): their data is on its way. -/
def readRow (tab : Instr → Option Back) (s : State) (core role seq k : Nat) : Sys :=
  let s := guarded tab s core
  let d := domOfCore s.sys core
  let cyc := d.ttc s.gtc
  if d.st != .run then s.sys
  else
    let mine := fun p : Pend => p.role == role && p.seq == seq && p.k == k && decide (p.due ≤ cyc)
    match (roleOf s.sys core role).queue.find? fun e => e.seq == seq with
    | none => s.sys
    | some e =>
      let op := opAt tab s core role e
      let c := coreOf s.sys core
      let ls := (c.pends.filter fun p => mine p && !p.done).flatMap fun p => op.access (if op.indexed then p.from e.start else p)
      let y := setCore s.sys { c with pends := c.pends.filter fun p => !mine p }
      retire tab s (addLandings y core ls) core role

/-- ROW_LANDING (R24): a landing that is due lands; its entry may retire, of a reinstated one that belongs to no entry
(R137) those of every role. -/
def landOne (tab : Instr → Option Back) (s : State) (core lid : Nat) : Sys :=
  let s := guarded tab s core
  let d := domOfCore s.sys core
  let cyc := d.ttc s.gtc
  let c := coreOf s.sys core
  match c.landings.find? fun l => l.lid == lid with
  | none => s.sys
  | some l =>
    if d.st != .run || cyc < l.due then s.sys
    else
      let y := setCore s.sys { c with landings := c.landings.filter fun x => x.lid != lid }
      let y := if l.done then y else makeLanding y core l
      if l.useq = 2 ^ 64 then (List.range 3).foldl (fun y r => retire tab { s with sys := y } y core r) y
      else retire tab s y core l.urole

/-! ## Scalar accesses (R115) -/

/-- The banks that the timetable uses on a core in this cycle. -/
def timetabled (tab : Instr → Option Back) (s : State) (d : Domain) (cyc core : Nat) : Nat :=
  let ls := livesOf tab s d cyc
  let banks := (ls.map (Live.occupies s cyc) ++ d.cores.map (heldOccupancy s cyc)).flatMap Occupancy.banks
  banks.foldl (fun m p => if p.1 = core then m ||| p.2 else m) 0

/-- The banks of a core that transfer units use in this tick (R76). -/
def transferBanks (s : State) (core : Nat) : Nat :=
  let c := coreOf s.sys core
  if c.xused.1 = s.gtc then c.xused.2 else 0

/-- The banks of a core that no scalar access takes in this cycle of a domain: timetabled ones, those found when the cycle was
checked or what is in use while it was not, of which a frozen domain has none, and those of transfers (R76, R115). -/
def takenBanks (tab : Instr → Option Back) (s : State) (d : Domain) (cyc core : Nat) : Nat :=
  let c := coreOf s.sys core
  (if d.st ≠ .run then 0
   else if d.checked = some cyc && c.tused.1 == s.gtc then c.tused.2 else timetabled tab s d cyc core) ||| transferBanks s core

/-- Whether a waiting scalar access may be made in this cycle, if its banks are free: its earliest cycle has come, and in a
frozen domain, in which no cycle passes, its role is in handler mode (R87, R115; log entry 92). -/
def ScalarAccess.mayGo (a : ScalarAccess) (d : Domain) (cyc : Nat) (handler : Bool) : Bool :=
  if d.st = .run then decide (a.after ≤ cyc) else handler

/-- SCALAR_ACCESS_SERVICE (R115): the waiting access of a role is made in this bank-cycle if its banks are free of timetabled
use and of transfers; then the role goes on, a load with its data, which it has in the next cycle (log entry 77). -/
def serveScalar (tab : Instr → Option Back) (s : State) (core role : Nat) : Sys :=
  let s := guarded tab s core
  let d := domOfCore s.sys core
  let cyc := d.ttc s.gtc
  let r := roleOf s.sys core role
  match r.sacc with
  | none => s.sys
  | some a =>
    let n := 2 ^ a.wd
    if !a.mayGo d cyc r.handler || takenBanks tab s d cyc a.core &&& banksOf a.off n ≠ 0 then s.sys
    else
      let y := setRole s.sys core role { r with sacc := none, pc := r.pc + 4 }
      if a.isLoad then
        let x := (coreOf y a.core).snat a.off n
        let y := countSoft y a.core a.off n
        setRole y core role ((roleOf y core role).setS a.rd (d64 (wrap 64 (sx (8 * n) x))))
      else setCore y ((coreOf y a.core).sput a.off (toBytes n a.data))

end Sys2Proof.Machine
end

