-- ==== Sys2Proof/Machine/Operands.lean ====
section
/-! DEFINITION. Operand forms of the front end: immediates (R44), branch targets (R36), scalar scratchpad addresses
(R114), and the control registers with their Access codes (R6, R88, R120 to R125). -/

namespace Sys2Proof.Machine

/-! ## Immediates and targets -/

/-- imm15, sign-extended to 64 bits (R44). -/
def imm15s (i : Nat) : Dword := d64 (wrap 64 (sx 15 i))

/-- imm15, zero-extended (R44). -/
def imm15z (i : Nat) : Dword := d64 i

/-- The target of a B-format word at p (R36). -/
def branchTarget (p : Dword) (off : Nat) : Dword := p + d64 (wrap 64 (4 * sx 17 off))

/-- The address of a scalar access: s[sa] + sext(OFF13), modulo 2^64 (R114). -/
def scalarAddr (r : RoleSt) (a off : Nat) : Nat := (r.s a + d64 (wrap 64 (sx 13 off))).toNat

/-- What a scalar access of n = 2^wd bytes at an address finds (R27, R114): the trap it raises, or core and offset. -/
def scalarPlace (y : Sys) (core addr wd : Nat) (load : Bool) : Except Nat (Nat × Nat) :=
  if 4294967296 ≤ addr then .error causeSpaddr
  else
    match spAddr y core addr with
    | none => .error causeSpaddr
    | some (t, o) =>
      if o % 2 ^ wd ≠ 0 then .error causeAlign
      else if load && (coreOf y t).poisoned o then .error causePoison
      else .ok (t, o)

/-! ## VSTART (R88, R293) -/

/-- The progress index of an entry (R88): W × rows started, and the start index that a handler gave it. -/
def progress (c : Core) (role : Nat) (e : Entry) : Nat := max (c.lanes * (e.prog - unstartedPends c role e)) e.start

/-- The oldest partially issued entry of a role (R88). -/
def oldestPartial (c : Core) (role : Nat) : Option Entry :=
  (c.role role).queue.find? fun e => e.issued.isSome && decide (e.prog - unstartedPends c role e < rowsOf c e)

/-- VSTART as it reads (R88, R123). -/
def readVstart (c : Core) (role : Nat) : Nat :=
  match oldestPartial c role with
  | some e => progress c role e
  | none => 0

/-- A handler's write to VSTART sets the start index of the oldest partially issued entry, to no less than its progress
index (R293). -/
def writeVstart (c : Core) (role v : Nat) : Core :=
  match oldestPartial c role with
  | some e => c.setRole role ((c.role role).setEntry { e with start := max (c.lanes * (e.prog - unstartedPends c role e)) v })
  | none => c

/-! ## Control registers (R123) -/

/-- A register of the transfer shadow set, by CSRNO − 0x010. -/
def Shadow.get (x : Shadow) (n : Nat) : Dword :=
  if n = 0 then x.xsrc else if n = 1 then x.xdst else if n = 2 then x.xstride0 else if n = 3 then x.xstride1
  else if n = 4 then x.xcount0 else if n = 5 then x.xcount1 else if n = 6 then x.xchan else x.xopt

/-- The bits of XOPT that no field reserves (R169). -/
def xoptMask : Dword := 0x003F00003FFFFF3F

/-- A write to the shadow set: the Reserved fields of XCHAN and XOPT stay zero (R6, R123, R169). -/
def Shadow.put (x : Shadow) (n : Nat) (v : Dword) : Shadow :=
  if n = 0 then { x with xsrc := v } else if n = 1 then { x with xdst := v }
  else if n = 2 then { x with xstride0 := v } else if n = 3 then { x with xstride1 := v }
  else if n = 4 then { x with xcount0 := v } else if n = 5 then { x with xcount1 := v }
  else if n = 6 then { x with xchan := v &&& 7 } else { x with xopt := v &&& xoptMask }

/-- The value of a control register as csrr reads it (R123). -/
def readCsr (s : State) (core role csr : Nat) : Dword :=
  let c := coreOf s.sys core
  let r := c.role role
  let d := domOfCore s.sys core
  if csr = 0x000 then d64 r.csrs.vl
  else if csr = 0x001 then d64 (readVstart c role)
  else if csr = 0x002 then d64 r.vcp
  else if csr = 0x003 then d64 r.csrs.vtype
  else if csr = 0x004 then r.csrs.seed
  else if csr = 0x005 then r.csrs.strip
  else if csr = 0x006 then r.csrs.binbase
  else if csr = 0x007 then r.csrs.flagcause
  else if csr = 0x008 then r.csrs.wgen
  else if csr = 0x009 then r.csrs.xdue
  else if 0x010 ≤ csr ∧ csr < 0x018 then r.csrs.shadow.get (csr - 0x010)
  else if csr = 0x020 then d64 r.trapcause
  else if csr = 0x021 then r.trappc
  else if csr = 0x022 then r.trapelem
  else if csr = 0x040 then c.part
  else if csr = 0x041 then c.cfg
  else if csr = 0x042 then c.dirty
  else if csr = 0x043 then c.dirtya
  else if csr = 0x044 then c.vdid
  else if csr = 0x045 then c.lease
  else if csr = 0x046 then c.streamend
  else if csr = 0x047 then c.tsm
  else if csr = 0x048 then c.tsn
  else if csr = 0x049 then c.tsk
  else if csr = 0x060 then d64 (d.ttc s.gtc)
  else if csr = 0x061 then d64 d.ttbase
  else if csr = 0x062 then d64 s.gtc
  else 0

/-- SLICES from a written value: bits [2:0], 3 where those are 0, 1 or 2 (R125). -/
def slicesOf (v : Dword) : Nat := max (v.toNat % 8) 3

/-- A write of the role-scope registers under their Access codes (R123, R125). -/
def RoleSt.putCsrs (r : RoleSt) (vlmax csr : Nat) (v : Dword) : RoleSt :=
  if csr = 0x000 then { r with csrs := { r.csrs with vl := min v.toNat vlmax } }
  else if csr = 0x003 then { r with csrs := { r.csrs with vtype := slicesOf v } }
  else if csr = 0x004 then { r with csrs := { r.csrs with seed := v } }
  else if csr = 0x005 then { r with csrs := { r.csrs with strip := v } }
  else if csr = 0x006 then { r with csrs := { r.csrs with binbase := v &&& 0xFFFF } }
  else if csr = 0x007 then { r with csrs := { r.csrs with flagcause := v &&& 0xFFFF0003 } }
  else if 0x010 ≤ csr ∧ csr < 0x018 then { r with csrs := { r.csrs with shadow := r.csrs.shadow.put (csr - 0x010) v } }
  else if csr = 0x021 then (if r.handler then { r with trappc := v } else r)
  else r

/-- A write of a control register under its Access code (R6, R120, R123): RO registers and fields ignore it. -/
def writeCsr (c : Core) (role csr : Nat) (v : Dword) : Core :=
  if csr = 0x001 then (if (c.role role).handler then writeVstart c role v.toNat else c)
  else if csr = 0x041 then { c with cfg := (c.cfg &&& ~~~1#64) ||| (v &&& 1) }
  else if csr = 0x042 then { c with dirty := v }
  else if csr = 0x043 then { c with dirtya := v &&& 0xFF }
  else if csr = 0x046 then { c with streamend := c.streamend &&& ~~~v }
  else c.setRole role ((c.role role).putCsrs c.vlmax csr v)

end Sys2Proof.Machine
end

