-- ==== Sys2Proof/Machine/Scalar.lean ====
section
/-! DEFINITION. The front end's scalar instructions: register and immediate operations (R112, R113), scalar access to the
scratchpad (R114), branches and jumps (R117, R118). An instruction that reads a register which an earlier
back-end instruction has yet to write waits: the state stays as it is (R12). -/

namespace Sys2Proof.Machine

/-- A scalar operation: wait for the sources, write s[d], go on at p + 4 (R12, R111). -/
def alu (d : Nat) (srcs : List Nat) (f : RoleSt → Dword) : State → Result :=
  lift fun s =>
    let r := me s.sys
    if srcs.any s.sys.waits then s.sys else setMe s.sys { (r.setS d (f r)) with pc := r.pc + 4 }

/-- Signed quotient, truncated; divisor 0 gives all ones (R112). -/
def sdivR (a b : Dword) : Dword := if b = 0 then BitVec.allOnes 64 else BitVec.sdiv a b

/-- Signed remainder, with the dividend's sign; divisor 0 gives the dividend (R112). -/
def sremR (a b : Dword) : Dword := if b = 0 then a else BitVec.srem a b

/-- Bits [127:64] of the signed product (R112). -/
def mulhR (a b : Dword) : Dword := BitVec.ofInt 64 ((a.toInt * b.toInt) / (2 ^ 64 : Nat))

/-! ## Register operations (R112) -/

/-- ADD. -/
def execAdd (d a b : Nat) : State → Result := alu d [a, b] fun r => r.s a + r.s b
/-- SUB. -/
def execSub (d a b : Nat) : State → Result := alu d [a, b] fun r => r.s a - r.s b
/-- AND. -/
def execAnd (d a b : Nat) : State → Result := alu d [a, b] fun r => r.s a &&& r.s b
/-- OR. -/
def execOr (d a b : Nat) : State → Result := alu d [a, b] fun r => r.s a ||| r.s b
/-- XOR. -/
def execXor (d a b : Nat) : State → Result := alu d [a, b] fun r => r.s a ^^^ r.s b
/-- SLL. -/
def execSll (d a b : Nat) : State → Result := alu d [a, b] fun r => r.s a <<< ((r.s b).toNat % 64)
/-- SRL. -/
def execSrl (d a b : Nat) : State → Result := alu d [a, b] fun r => r.s a >>> ((r.s b).toNat % 64)
/-- SRA. -/
def execSra (d a b : Nat) : State → Result := alu d [a, b] fun r => (r.s a).sshiftRight ((r.s b).toNat % 64)
/-- MUL. -/
def execMul (d a b : Nat) : State → Result := alu d [a, b] fun r => r.s a * r.s b
/-- MULH. -/
def execMulh (d a b : Nat) : State → Result := alu d [a, b] fun r => mulhR (r.s a) (r.s b)
/-- DIV. -/
def execDiv (d a b : Nat) : State → Result := alu d [a, b] fun r => sdivR (r.s a) (r.s b)
/-- REM. -/
def execRem (d a b : Nat) : State → Result := alu d [a, b] fun r => sremR (r.s a) (r.s b)
/-- SLT. -/
def execSlt (d a b : Nat) : State → Result := alu d [a, b] fun r => d64 (b01 ((r.s a).slt (r.s b)))
/-- SLTU. -/
def execSltu (d a b : Nat) : State → Result := alu d [a, b] fun r => d64 (b01 ((r.s a).ult (r.s b)))
/-- MIN. -/
def execMin (d a b : Nat) : State → Result := alu d [a, b] fun r => if (r.s a).slt (r.s b) then r.s a else r.s b
/-- MAX. -/
def execMax (d a b : Nat) : State → Result := alu d [a, b] fun r => if (r.s a).slt (r.s b) then r.s b else r.s a
/-- CLZ. -/
def execClz (d a : Nat) : State → Result := alu d [a] fun r => d64 (clz 64 (r.s a).toNat)
/-- POPC. -/
def execPopc (d a : Nat) : State → Result := alu d [a] fun r => d64 (popcount 64 (r.s a).toNat)

/-! ## Immediate operations (R113) -/

/-- ADDI. -/
def execAddi (d a i : Nat) : State → Result := alu d [a] fun r => r.s a + imm15s i
/-- ANDI. -/
def execAndi (d a i : Nat) : State → Result := alu d [a] fun r => r.s a &&& imm15z i
/-- ORI. -/
def execOri (d a i : Nat) : State → Result := alu d [a] fun r => r.s a ||| imm15z i
/-- XORI. -/
def execXori (d a i : Nat) : State → Result := alu d [a] fun r => r.s a ^^^ imm15z i
/-- SLLI. -/
def execSlli (d a i : Nat) : State → Result := alu d [a] fun r => r.s a <<< (i % 64)
/-- SRLI. -/
def execSrli (d a i : Nat) : State → Result := alu d [a] fun r => r.s a >>> (i % 64)
/-- SRAI. -/
def execSrai (d a i : Nat) : State → Result := alu d [a] fun r => (r.s a).sshiftRight (i % 64)
/-- SLTI. -/
def execSlti (d a i : Nat) : State → Result := alu d [a] fun r => d64 (b01 ((r.s a).slt (imm15s i)))
/-- LUI. -/
def execLui (d i : Nat) : State → Result := alu d [] fun _ => d64 (wrap 64 (sx 15 i * 32768))
/-- PCREL. -/
def execPcrel (d i : Nat) : State → Result := alu d [] fun r => r.pc + d64 (wrap 64 (4 * sx 15 i))

/-! ## Scalar access to the scratchpad (R114, R115) -/

/-- A scalar load that traps POISON has met the struck lines it reads (R378). -/
def markScalar (y : Sys) (g core addr wd k : Nat) : Sys :=
  if k = causePoison then match spAddr y core addr with | some (t, o) => markStruck y g t o (2 ^ wd) | none => y else y

/-- A scalar access: the checks, then the access waits for its bank-cycle, and the role with it. -/
def scalarAccess (load : Bool) (wd d a off : Nat) : State → Result :=
  lift fun s =>
    let y := s.sys
    let core := y.curCore
    let r := me y
    if r.sacc.isSome || y.waits a || (!load && y.waits d) then y
    else
      match scalarPlace y core (scalarAddr r a off) wd load with
      | .error k => raise s (markScalar y s.gtc core (scalarAddr r a off) wd k) core y.curRole (frontCause k 0 r.pc)
      | .ok (t, o) =>
        let acc : ScalarAccess := {
          isLoad := load, wd := wd, core := t, off := o, rd := d
          data := (r.s d).toNat % 256 ^ (2 ^ wd)
          after := (domOfCore y core).ttc s.gtc + 1 + crossDelay core t / 2 }
        setMe y { r with sacc := some acc }

/-- SLB. -/
def execSlb (d a o : Nat) : State → Result := scalarAccess true 0 d a o
/-- SLH. -/
def execSlh (d a o : Nat) : State → Result := scalarAccess true 1 d a o
/-- SLW. -/
def execSlw (d a o : Nat) : State → Result := scalarAccess true 2 d a o
/-- SLD. -/
def execSld (d a o : Nat) : State → Result := scalarAccess true 3 d a o
/-- SSB. -/
def execSsb (d a o : Nat) : State → Result := scalarAccess false 0 d a o
/-- SSH. -/
def execSsh (d a o : Nat) : State → Result := scalarAccess false 1 d a o
/-- SSW. -/
def execSsw (d a o : Nat) : State → Result := scalarAccess false 2 d a o
/-- SSD. -/
def execSsd (d a o : Nat) : State → Result := scalarAccess false 3 d a o

/-! ## Branches and jumps (R117, R118) -/

/-- A conditional branch. -/
def branch (srcs : List Nat) (off : Nat) (cond : RoleSt → Bool) : State → Result :=
  lift fun s =>
    let r := me s.sys
    if srcs.any s.sys.waits then s.sys
    else setMe s.sys { r with pc := if cond r then branchTarget r.pc off else r.pc + 4 }

/-- BEQ. -/
def execBeq (a o : Nat) : State → Result := branch [a] o fun r => r.s a == 0
/-- BNE. -/
def execBne (a o : Nat) : State → Result := branch [a] o fun r => r.s a != 0
/-- BLT. -/
def execBlt (a o : Nat) : State → Result := branch [a] o fun r => (r.s a).slt 0
/-- BGE. -/
def execBge (a o : Nat) : State → Result := branch [a] o fun r => !(r.s a).slt 0
/-- BLTU. -/
def execBltu (a o : Nat) : State → Result := branch [a, a + 1] o fun r => (r.s a).ult (r.s (a + 1))
/-- BGEU. -/
def execBgeu (a o : Nat) : State → Result := branch [a, a + 1] o fun r => !(r.s a).ult (r.s (a + 1))

/-- JAL: s31 := p + 4, on at the target. -/
def execJal (o : Nat) : State → Result :=
  lift fun s =>
    let r := me s.sys
    setMe s.sys { (r.setS 31 (r.pc + 4)) with pc := branchTarget r.pc o }

/-- JALR: the target from s[sa] before the write; a target that is not a multiple of 4 raises ALIGN, with no register
written and TRAPPC = p. -/
def execJalr (d a i : Nat) : State → Result :=
  lift fun s =>
    let y := s.sys
    let r := me y
    let target := r.s a + d64 (wrap 64 (4 * sx 15 i))
    if y.waits a then y
    else if target.toNat % 4 ≠ 0 then raise s y y.curCore y.curRole (frontCause causeAlign 0 r.pc)
    else setMe y { (r.setS d (r.pc + 4)) with pc := target }

end Sys2Proof.Machine
end

