-- ==== Sys2Proof/Machine/Control.lean ====
section
/-! DEFINITION. MODE, ttsync, ttmark (R37, R66, R68, R69), control-register access (R120), traps and the way back
(R119, R128 to R132), and illegal encodings at decode (R57). -/

namespace Sys2Proof.Machine

/-- The element type of a code (R38); codes of no type are refused at decode. -/
def etyOf (c : Nat) : ETy :=
  match c with
  | 0 => .b32 | 1 => .i32 | 2 => .uint32 | 3 => .i16x2 | 4 => .uint16x2 | 5 => .i8x4 | 6 => .uint8x4 | 7 => .i4x8
  | 8 => .i64 | 9 => .uint64 | 10 => .f32 | 11 => .f64 | 12 => .bf16x2 | 13 => .f16x2 | 14 => .f8ax4 | 15 => .f8bx4
  | 16 => .w2px4 | 17 => .sc12x2 | _ => .bin

/-- The code of an element type (R38). -/
def etyCode : ETy → Nat
  | .b32 => 0 | .i32 => 1 | .uint32 => 2 | .i16x2 => 3 | .uint16x2 => 4 | .i8x4 => 5 | .uint8x4 => 6 | .i4x8 => 7
  | .i64 => 8 | .uint64 => 9 | .f32 => 10 | .f64 => 11 | .bf16x2 => 12 | .f16x2 => 13 | .f8ax4 => 14 | .f8bx4 => 15
  | .w2px4 => 16 | .sc12x2 => 17 | .bin => 18

/-- The rounding mode of a code (R39). -/
def rmOf (c : Nat) : RMode :=
  match c with
  | 0 => .rne | 1 => .rtz | 2 => .rdn | 3 => .rup | 4 => .rna | 5 => .srnd | _ => .rodd

/-- The code of a rounding mode (R39). -/
def rmCode : RMode → Nat
  | .rne => 0 | .rtz => 1 | .rdn => 2 | .rup => 3 | .rna => 4 | .srnd => 5 | .rodd => 6

/-- The group mode that a MODE word sets (R37). -/
def modeOf (g p e r : Nat) : Mode := { guard := g, gpol := p == 1, ety := etyOf e, rm := rmOf r }

/-- MODE: the group mode, and a DELTA of 1 or more as the pending delta; in handler mode the delta is ignored (R37, R66,
R91). -/
def execMode (g p e rm t : Nat) : State → Result :=
  lift fun s =>
    let r := me s.sys
    setMe s.sys { r with mode := modeOf g p e rm, d := if 1 ≤ t && !r.handler then t else r.d, pc := r.pc + 4 }

/-- TTSYNC (R68): P := T − 1, D := 0; a target at or before P or below c + 2 is the passed-sync fault. -/
def execTtsync (a i : Nat) : State → Result :=
  lift fun s =>
    let y := s.sys
    let r := me y
    let t := (r.s a + imm15z i).toNat
    let c := (domOfCore y y.curCore).ttc s.gtc
    if y.waits a then y
    else if r.handler then setMe y { r with pc := r.pc + 4 }
    else if (t : Int) ≤ r.p ∨ t < c + 2 then raise s y y.curCore y.curRole (domainCause 3 r.pc 255)
    else setMe y { r with p := (t : Int) - 1, d := 0, pWord := r.pc, pc := r.pc + 4 }

/-- TTMARK (R69): s[sd] := NS. -/
def execTtmark (d : Nat) : State → Result := alu d [] fun r => d64 (wrap 64 r.ns)

/-! ## Control registers (R120, R122) -/

/-- A control-register instruction: s[sd] takes the old value x, and the register the value g makes of x and s[sa]. -/
def csrOp (d : Nat) (srcs : List Nat) (csr : Nat) (g : Dword → RoleSt → Option Dword) : State → Result :=
  lift fun s =>
    let y := s.sys
    let core := y.curCore
    let role := y.curRole
    let r := me y
    if srcs.any y.waits || y.waitsCsr csr then y
    else
      let x := readCsr s core role csr
      let y := match g x r with
        | some v => setCore y (writeCsr (coreOf y core) role csr v)
        | none => y
      let r := me y
      setMe y { (r.setS d x) with pc := r.pc + 4 }

/-- CSRR. -/
def execCsrr (d c : Nat) : State → Result := csrOp d [] c fun _ _ => none
/-- CSRW. -/
def execCsrw (d a c : Nat) : State → Result := csrOp d [a] c fun _ r => some (r.s a)
/-- CSRS. -/
def execCsrs (d a c : Nat) : State → Result := csrOp d [a] c fun x r => some (x ||| r.s a)
/-- CSRC. -/
def execCsrc (d a c : Nat) : State → Result := csrOp d [a] c fun x r => some (x &&& ~~~(r.s a))

/-! ## Traps -/

/-- TRAP and SVC: the program trap with code s[sa]; TRAPPC is p + 4 (R126 to R128, R132). -/
def softTrap (code a : Nat) : State → Result :=
  lift fun s =>
    let y := s.sys
    let r := me y
    if y.waits a then y
    else raise s y y.curCore y.curRole (frontCause code (r.s a).toNat (r.pc + 4))

/-- TRAP. -/
def execTrap (a : Nat) : State → Result := softTrap causeSoft a
/-- SVC. -/
def execSvc (a : Nat) : State → Result := softTrap causeSvc a

/-- TRET (R129): outside handler mode it raises CONTEXT. In it, it waits for the handler's last back-end instruction
(log entry 4); after a domain fault it ends the launch FAULTED; otherwise the set-aside state returns, the front
end goes on at TRAPPC for a cause of the front end or the push point and at the set-aside PC otherwise, and the
role's cause is gone: a pre-emption is withdrawn for this core, and a role L that still carries one enters its
PREEMPT handler (R89). -/
def execTret : State → Result :=
  lift fun s =>
    let y := s.sys
    let core := y.curCore
    let role := y.curRole
    let r := me y
    let d := domOfCore y core
    match r.aside with
    | none => raise s y core role (frontCause causeContext 0 r.pc)
    | some a =>
      if r.hop.isSome then y
      else if r.trapcause = causeDomain then endDomain s y d statusFaulted
      else
        let y := setMe y (r.leave a (if a.front then r.trappc else a.pc))
        if r.trapcause = causePreempt then
          tryResume (setDom y { d with preempt := d.preempt.filter fun i => i != d.indexOf core }) s.gtc d.id
        else if role = 0 && d.preempt.contains (d.indexOf core) then enterPreempt y s.gtc core
        else tryResume y s.gtc d.id

/-- HALT (R71, R130, R131): outside handler mode the front end stops, and the role counts once its queue has retired;
in a PREEMPT handler it reports the core's save complete; in any other handler it ends the launch FAULTED. -/
def execHalt : State → Result :=
  lift fun s =>
    let y := s.sys
    let core := y.curCore
    let role := y.curRole
    let r := me y
    let d := domOfCore y core
    match r.aside with
    | none => countHalt (setMe y { r with halted := true, armed := false, pc := r.pc + 4 }) s.gtc core role
    | some _ =>
      if r.trapcause = causePreempt then
        setDom (setMe y { r with halted := true, pc := r.pc + 4 })
          { d with saved := putBy (fun x : Nat => x) (d.indexOf core) d.saved }
      else endDomain s y d statusFaulted

/-- DECODE_ILLEGAL_ENCODING (R57): the illegal-instruction trap with the reason of the first line that matches. -/
def execDecodeIllegalEncoding (w : Nat) : State → Result :=
  lift fun s =>
    let y := s.sys
    match decodeNat w with
    | .error k => raise s y y.curCore y.curRole (frontCause causeIllegal k (me y).pc)
    | .ok _ => y

/-- FETCH (R119): the PC lies outside the role's TEXT section. -/
def fetchFault (s : State) : Sys :=
  let y := s.sys
  raise s y y.curCore y.curRole (frontCause causeFetch 0 (me y).pc)

end Sys2Proof.Machine
end

