-- ==== Sys2Proof/Machine/Crypto.lean ====
section
/-! DEFINITION. AES-256-GCM as decrypt transfers use it (R172): no additional data, a 96-bit IV, a 128-bit tag; and SHA-384. The
manual names them and does not define them; these are the published standards (PRESUMED, log entry 31). Blocks are 128-bit
numbers, first byte highest. -/

namespace Sys2Proof.Machine

/-- The product of two bytes modulo x^8 + x^4 + x^3 + x + 1. -/
def gfMul : Nat → Nat → Nat → Nat
  | 0, _, _ => 0
  | n + 1, a, b => (if b % 2 = 1 then a else 0) ^^^ gfMul n (if 128 ≤ a then (2 * a) ^^^ 0x11B else 2 * a) (b / 2)

/-- The product of two field bytes. -/
def gf (a b : Nat) : Nat := gfMul 8 a b

/-- The inverse of a field byte, 0 for 0: its 254th power. -/
def gfInv (a : Nat) : Nat :=
  let a2 := gf a a
  let a4 := gf a2 a2
  let a8 := gf a4 a4
  let a16 := gf a8 a8
  let a32 := gf a16 a16
  let a64 := gf a32 a32
  let a128 := gf a64 a64
  gf a2 (gf a4 (gf a8 (gf a16 (gf a32 (gf a64 a128)))))

/-- A byte rotated left. -/
def rotByte (x n : Nat) : Nat := (x * 2 ^ n ||| x / 2 ^ (8 - n)) % 256

/-- The S-box. -/
def sbox (x : Nat) : Nat :=
  let i := gfInv x
  i ^^^ rotByte i 1 ^^^ rotByte i 2 ^^^ rotByte i 3 ^^^ rotByte i 4 ^^^ 0x63

/-- The S-box as a table. -/
def sboxTable : List Nat := (List.range 256).map sbox

/-- A byte through the S-box. -/
def sub (t : List Nat) (x : Nat) : Nat := (t[x]?).getD 0

/-- A list of bytes, exclusive-or by place. -/
def xorBytes (a b : List Nat) : List Nat := (a.zip b).map fun p => p.1 ^^^ p.2

/-- The expanded key from its last words, newest first: n more words. -/
def expandKey (t : List Nat) : Nat → Nat → List (List Nat) → List (List Nat)
  | 0, _, ws => ws
  | n + 1, i, ws =>
    let prev := (ws[0]?).getD []
    let base := (ws[7]?).getD []
    let w :=
      if i % 8 = 0 then
        match prev.map (sub t) with
        | [a, b, c, d] => [b ^^^ 2 ^ (i / 8 - 1), c, d, a]
        | l => l
      else if i % 8 = 4 then prev.map (sub t) else prev
    expandKey t n (i + 1) (xorBytes w base :: ws)

/-- The words of a list of bytes. -/
def wordsOf : Nat → List Nat → List (List Nat)
  | 0, _ => []
  | n + 1, l => l.take 4 :: wordsOf n (l.drop 4)

/-- The fifteen round keys, each 16 bytes. -/
def roundKeys (t : List Nat) (key : List Nat) : List (List Nat) :=
  let ws := (expandKey t 52 8 (wordsOf 8 key).reverse).reverse
  (List.range 15).map fun r => ((ws.drop (4 * r)).take 4).flatten

/-- SubBytes and ShiftRows. -/
def subShift (t : List Nat) (st : List Nat) : List Nat :=
  (List.range 16).map fun i => sub t ((st[(i + 4 * (i % 4)) % 16]?).getD 0)

/-- MixColumns. -/
def mixColumns (st : List Nat) : List Nat :=
  (List.range 16).map fun i =>
    let at_ := fun k => (st[i / 4 * 4 + (i + k) % 4]?).getD 0
    gf (at_ 0) 2 ^^^ gf (at_ 1) 3 ^^^ at_ 2 ^^^ at_ 3

/-- One block enciphered under expanded keys. -/
def aesBlock (t : List Nat) (ks : List (List Nat)) (blk : List Nat) : List Nat :=
  match ks with
  | [] => blk
  | k0 :: rest =>
    let mid := rest.dropLast.foldl (fun st k => xorBytes (mixColumns (subShift t st)) k) (xorBytes blk k0)
    xorBytes (subShift t mid) (rest.getLastD [])

/-- The number of bytes, highest first. -/
def beNat (l : List Nat) : Nat := l.foldl (fun a b => 256 * a + b) 0

/-- The n bytes of a number, highest first. -/
def beBytes (n x : Nat) : List Nat := (List.range n).map fun i => x / 256 ^ (n - 1 - i) % 256

/-- The product in GF(2^128) as GHASH has it: bits of x from the highest. -/
def ghMul : Nat → Nat → Nat → Nat
  | 0, _, _ => 0
  | n + 1, x, v =>
    (if x.testBit n then v else 0) ^^^ ghMul n x (if v % 2 = 1 then (v / 2) ^^^ (0xE1 * 2 ^ 120) else v / 2)

/-- Bytes in blocks of sixteen, the last filled up with zeros. -/
def blocks16 : Nat → List Nat → List Nat
  | 0, _ => []
  | _, [] => []
  | n + 1, l => beNat ((l.take 16) ++ List.replicate (16 - (l.take 16).length) 0) :: blocks16 n (l.drop 16)

/-- GHASH of a ciphertext without additional data. -/
def ghash (h : Nat) (c : List Nat) : Nat :=
  let y := (blocks16 c.length c).foldl (fun y b => ghMul 128 (y ^^^ b) h) 0
  ghMul 128 (y ^^^ (8 * c.length)) h

/-- What a decrypt gives: the plaintext, if the tag verifies. -/
def gcmDecrypt (key iv cipher tag : List Byte) : Option (List Byte) :=
  let t := sboxTable
  let ks := roundKeys t (key.map BitVec.toNat)
  let enc := fun (blk : List Nat) => aesBlock t ks blk
  let c := cipher.map BitVec.toNat
  let ivn := iv.map BitVec.toNat
  let h := beNat (enc (List.replicate 16 0))
  let mask := beNat (enc (ivn ++ beBytes 4 1))
  if beNat (tag.map BitVec.toNat) ≠ (ghash h c ^^^ mask) then none
  else
    let stream := (List.range (ceilDiv c.length 16)).flatMap fun i => enc (ivn ++ beBytes 4 (i + 2))
    some ((xorBytes c stream).map fun b => BitVec.ofNat 8 b)

/-! ## SHA-384 (R110, R394, R407): the published standard (PRESUMED, log entry 31) -/

/-- Round constants 0 to 19. -/
def shaRounds0 : List Nat :=
  [0x428A2F98D728AE22, 0x7137449123EF65CD, 0xB5C0FBCFEC4D3B2F, 0xE9B5DBA58189DBBC, 0x3956C25BF348B538,
   0x59F111F1B605D019, 0x923F82A4AF194F9B, 0xAB1C5ED5DA6D8118, 0xD807AA98A3030242, 0x12835B0145706FBE,
   0x243185BE4EE4B28C, 0x550C7DC3D5FFB4E2, 0x72BE5D74F27B896F, 0x80DEB1FE3B1696B1, 0x9BDC06A725C71235,
   0xC19BF174CF692694, 0xE49B69C19EF14AD2, 0xEFBE4786384F25E3, 0x0FC19DC68B8CD5B5, 0x240CA1CC77AC9C65]

/-- Round constants 20 to 39. -/
def shaRounds1 : List Nat :=
  [0x2DE92C6F592B0275, 0x4A7484AA6EA6E483, 0x5CB0A9DCBD41FBD4, 0x76F988DA831153B5, 0x983E5152EE66DFAB,
   0xA831C66D2DB43210, 0xB00327C898FB213F, 0xBF597FC7BEEF0EE4, 0xC6E00BF33DA88FC2, 0xD5A79147930AA725,
   0x06CA6351E003826F, 0x142929670A0E6E70, 0x27B70A8546D22FFC, 0x2E1B21385C26C926, 0x4D2C6DFC5AC42AED,
   0x53380D139D95B3DF, 0x650A73548BAF63DE, 0x766A0ABB3C77B2A8, 0x81C2C92E47EDAEE6, 0x92722C851482353B]

/-- Round constants 40 to 59. -/
def shaRounds2 : List Nat :=
  [0xA2BFE8A14CF10364, 0xA81A664BBC423001, 0xC24B8B70D0F89791, 0xC76C51A30654BE30, 0xD192E819D6EF5218,
   0xD69906245565A910, 0xF40E35855771202A, 0x106AA07032BBD1B8, 0x19A4C116B8D2D0C8, 0x1E376C085141AB53,
   0x2748774CDF8EEB99, 0x34B0BCB5E19B48A8, 0x391C0CB3C5C95A63, 0x4ED8AA4AE3418ACB, 0x5B9CCA4F7763E373,
   0x682E6FF3D6B2B8A3, 0x748F82EE5DEFB2FC, 0x78A5636F43172F60, 0x84C87814A1F0AB72, 0x8CC702081A6439EC]

/-- Round constants 60 to 79. -/
def shaRounds3 : List Nat :=
  [0x90BEFFFA23631E28, 0xA4506CEBDE82BDE9, 0xBEF9A3F7B2C67915, 0xC67178F2E372532B, 0xCA273ECEEA26619C,
   0xD186B8C721C0C207, 0xEADA7DD6CDE0EB1E, 0xF57D4F7FEE6ED178, 0x06F067AA72176FBA, 0x0A637DC5A2C898A6,
   0x113F9804BEF90DAE, 0x1B710B35131C471B, 0x28DB77F523047D84, 0x32CAAB7B40C72493, 0x3C9EBE0A15C9BEBC,
   0x431D67C49C100D4C, 0x4CC5D4BECB3E42B6, 0x597F299CFC657E2A, 0x5FCB6FAB3AD6FAEC, 0x6C44198C4A475817]

/-- The initial value of the chain. -/
def shaStart : List Nat :=
  [0xCBBB9D5DC1059ED8, 0x629A292A367CD507, 0x9159015A3070DD17, 0x152FECD8F70E5939, 0x67332667FFC00B31,
   0x8EB44A8768581511, 0xDB0C2E0D64F98FA7, 0x47B5481DBEFA4FA4]

/-- A 64-bit word rotated right. -/
def rot64 (x n : Nat) : Nat := (x / 2 ^ n ||| x * 2 ^ (64 - n)) % 2 ^ 64

/-- The message schedule from its last words, newest first: n more words. -/
def shaSchedule : Nat → List Nat → List Nat
  | 0, ws => ws
  | n + 1, ws =>
    let word := fun (i : Nat) => (ws[i]?).getD 0
    let a := word 14
    let b := word 1
    let s0 := rot64 a 1 ^^^ rot64 a 8 ^^^ a / 2 ^ 7
    let s1 := rot64 b 19 ^^^ rot64 b 61 ^^^ b / 2 ^ 6
    shaSchedule n ((word 15 + s0 + word 6 + s1) % 2 ^ 64 :: ws)

/-- One round over the eight working variables, with its constant and its word. -/
def shaRound (v : List Nat) (k w : Nat) : List Nat :=
  match v with
  | [a, b, c, d, e, f, g, h] =>
    let s1 := rot64 e 14 ^^^ rot64 e 18 ^^^ rot64 e 41
    let ch := (e &&& f) ^^^ ((2 ^ 64 - 1 - e) &&& g)
    let t1 := h + s1 + ch + k + w
    let s0 := rot64 a 28 ^^^ rot64 a 34 ^^^ rot64 a 39
    let maj := (a &&& b) ^^^ (a &&& c) ^^^ (b &&& c)
    [(t1 + s0 + maj) % 2 ^ 64, a, b, c, (d + t1) % 2 ^ 64, e, f, g]
  | _ => v

/-- A block of 128 bytes into the chain. -/
def shaBlock (h : List Nat) (block : List Byte) : List Nat :=
  let ws := (List.range 16).map fun i => (((block.drop (8 * i)).take 8).foldl (fun acc b => 256 * acc + b.toNat) 0)
  let ks := shaRounds0 ++ shaRounds1 ++ shaRounds2 ++ shaRounds3
  let v := (ks.zip (shaSchedule 64 ws.reverse).reverse).foldl (fun v q => shaRound v q.1 q.2) h
  (h.zip v).map fun q => (q.1 + q.2) % 2 ^ 64

/-- The SHA-384 digest of bytes. -/
def sha384 (msg : List Byte) : List Byte :=
  let n := msg.length
  let padded := msg ++ [0x80] ++ List.replicate ((239 - n % 128) % 128) 0 ++ toBytesBE 16 (8 * n)
  let h := (List.range (padded.length / 128)).foldl (fun h i => shaBlock h ((padded.drop (128 * i)).take 128)) shaStart
  (h.take 6).flatMap fun w => toBytesBE 8 w

end Sys2Proof.Machine
end

