-- ==== Sys2Proof/Machine/Moves.lean ====
section
/-! DEFINITION. What a transfer moves (R168, R169, R172, R173): its pieces, each with source, destination and size, and
the memory it writes. -/

namespace Sys2Proof.Machine

/-- XOPT.MODE. -/
def Shadow.mode (x : Shadow) : Nat := field x.xopt.toNat 2 0
/-- XOPT.SRCSP. -/
def Shadow.srcsp (x : Shadow) : Bool := x.xopt.toNat.testBit 3
/-- XOPT.DSTSP. -/
def Shadow.dstsp (x : Shadow) : Bool := x.xopt.toNat.testBit 4
/-- XOPT.GANG. -/
def Shadow.gang (x : Shadow) : Bool := x.xopt.toNat.testBit 5
/-- XOPT.TAG. -/
def Shadow.tag (x : Shadow) : Nat := field x.xopt.toNat 23 8
/-- XOPT.KEYSLOT. -/
def Shadow.keyslot (x : Shadow) : Nat := field x.xopt.toNat 29 24
/-- XOPT.RING. -/
def Shadow.ring (x : Shadow) : Nat := field x.xopt.toNat 53 48

/-- A base moved by a signed displacement, modulo 2^64. -/
def movedBy (a : Dword) (d : Int) : Nat := wrap 64 ((a.toNat : Int) + d)

/-- One piece of a transfer: n bytes from a source address to a destination address, each a scratchpad or a virtual
address by the transfer's mode. -/
structure Piece where
  src : Nat
  dst : Nat
  n   : Nat
  deriving DecidableEq, Repr

/-- Index j of a gather or scatter: a 32-bit word of the scratchpad (R168). -/
def indexAt (y : Sys) (core : Nat) (x : Shadow) (j : Nat) : Nat :=
  match spAddr y core (x.xstride0.toNat + 4 * j) with
  | some (t, o) => (coreOf y t).snat o 4
  | none => 0

/-- The pieces of a transfer with its indices, in the order in which their bytes count (R148, R168, R173). A decrypt has its
ciphertext and tag as one source piece; a gang delivery has its strip. The address of a run or element is taken modulo
2^64; bytes of one that run past 2^64 lie on no resident page, as all from 2^57 on (R139; log entry 80). -/
def piecesWith (idx : Nat → Nat) (vl : Nat) (x : Shadow) : List Piece :=
  if x.gang then [⟨x.xsrc.toNat, 0, 4 * vl⟩]
  else if x.mode = 0 then
    (List.range x.xcount1.toNat).map fun j : Nat =>
      ⟨movedBy x.xsrc ((j : Int) * x.xstride0.toInt), movedBy x.xdst ((j : Int) * x.xstride1.toInt), x.xcount0.toNat⟩
  else if x.mode = 1 then
    (List.range x.xcount1.toNat).map fun j : Nat =>
      ⟨movedBy x.xsrc (x.xstride1.toInt * (idx j : Int)), movedBy x.xdst ((x.xcount0.toNat * j : Nat) : Int), x.xcount0.toNat⟩
  else if x.mode = 2 then
    (List.range x.xcount1.toNat).map fun j : Nat =>
      ⟨movedBy x.xsrc ((x.xcount0.toNat * j : Nat) : Int), movedBy x.xdst (x.xstride1.toInt * (idx j : Int)), x.xcount0.toNat⟩
  else [⟨x.xsrc.toNat, x.xdst.toNat, x.xcount0.toNat + 16⟩]

/-- The pieces of a transfer as its indices stand now. -/
def pieces (y : Sys) (core vl : Nat) (x : Shadow) : List Piece := piecesWith (indexAt y core x) vl x

/-- The pieces of a transfer-unit entry: with the indices that it has read, once it has. -/
def Xfer.pieces (y : Sys) (x : Xfer) : List Piece :=
  if x.stage = 0 then Machine.pieces y x.core x.vl x.shadow else piecesWith (fun j => (x.idx[j]?).getD 0) x.vl x.shadow

/-- Whether the destination is memory. -/
def Shadow.toMemory (x : Shadow) : Bool := !x.gang && (x.mode == 2 || !x.dstsp)

/-- Whether the source is memory. -/
def Shadow.fromMemory (x : Shadow) : Bool := x.mode == 1 || !x.srcsp

/-- The virtual ranges that a transfer writes: address and bytes. -/
def destRanges (y : Sys) (x : Xfer) : List (Nat × Nat) :=
  if 4 ≤ x.kind || !x.shadow.toMemory then []
  else (x.pieces y).map fun p => (p.dst, if x.kind = 3 then p.n - 16 else p.n)

end Sys2Proof.Machine
end

