-- ==== Sys2Proof/Machine/Home.lean ====
section
/-! DEFINITION. Homes: how an event reaches one and its answer comes back (R275, R279, R298), and the state machines of
barriers (R280 to R285), locks (R286 to R288, R186), region tables (R277, R304), queues (R289, R290), proxy shadows
(R307, R334, R335) and counters (R291, R311 to R313), with the queueing of launches (R308). Each event serves the
message `Sys.msg` at its registration tick. -/

namespace Sys2Proof.Machine

/-! ## The way there and back (R275) -/

/-- HOME of a handle. -/
def homeField (h : Nat) : Nat := field h 16 14

/-- CHIP of a handle. -/
def chipField (h : Nat) : Nat := field h 35 17

/-- Whether a handle names the Tulle of another chip than the core's. -/
def isRemote (core h : Nat) : Bool := homeField h == 4 && chipField h != chipOf core % 524288

/-- λ of an event from a core to a home (R275). -/
def lambdaOf (y : Sys) (core h : Nat) : Nat :=
  if homeField h < 4 then (if homeField h = dieOf core then 8 else 56)
  else if isRemote core h then 40 + 2 * (vdOf y (vdKeyOf y core)).rlat else 40

/-- A port as it stands. -/
def portAt (y : Sys) (p : Nat) : Port :=
  (y.mgmt.ports[p]?).getD { up := false, spare := false, stall := 0, len := 0, lost := none }

/-- The port that traffic to a chip takes: that of its route or, once that is lost, the alternate's if it is up (R382). -/
def viaPort (y : Sys) (chip : Nat) : Nat :=
  let p := Config.routePort chip % 24
  if (portAt y p).lost.isSome && (portAt y (Config.altPort chip)).up then Config.altPort chip else p

/-- Traffic to another chip does not cross its link in a tick: GTC is not in step, its port is not up, or that port or the one that it
moved from stalls (R381 to R383, R392; log entry 68). -/
def linkDown (y : Sys) (g chip : Nat) : Bool :=
  let v := portAt y (Config.routePort chip % 24)
  let w := portAt y (viaPort y chip)
  !y.mgmt.ready.getLsbD 6 || !w.up || decide (g < max v.stall w.stall)

/-- The other chip of traffic between a core and the Tulle of another chip. -/
def farChip (y : Sys) (core h : Nat) : Nat := if chipField h = y.mgmt.chip % 524288 then chipOf core else chipField h

/-- Accesses do not cross the link to another chip in this tick (R382, R383, R392). -/
def linkShut (s : State) (vk chip : Nat) : Bool := !chipRemoved s.sys vk chip && linkDown s.sys s.gtc chip

/-- The latest registration among the events that a core has under way to a home: a later one registers no earlier. -/
def lastReg (y : Sys) (core h : Nat) : Nat :=
  y.sched.foldl (fun m e =>
    if e.2.2.core = core && e.2.2.obj / 16384 = h / 16384 && e.2.2 != noMsg then max m e.1 else m) 0

/-- The registration tick of an event issued at tick g, unless a link that it crosses stalls. -/
def regTick (y : Sys) (g core h : Nat) : Nat × Sys :=
  if homeField h < 4 then (g + (if homeField h = dieOf core then 6 else 30), y)
  else if isRemote core h then
    let (n, y) := takeFree y
    let r := g + 4 + Config.regDelay n % (33 + (vdOf y (vdKeyOf y core)).rlat)
    (max r (lastReg y core h), y)
  else (g + 20, y)

/-- Send an event to the home of its object; nothing reaches the Tulle of a removed chip (R388). -/
def sendHome (y : Sys) (g : Nat) (i : Instr) (m : HomeMsg) : Sys :=
  if homeField m.obj = 4 && chipRemoved y (vdKeyOf y m.core) (chipField m.obj) then y
  else
    let (r, y) := regTick y g m.core m.obj
    schedule y r i m

/-- Send an event to the Tulle of the core's own chip (R299, R307). -/
def sendTulle (y : Sys) (g : Nat) (i : Instr) (m : HomeMsg) : Sys := schedule y (g + 20) i m

/-- An event that a role has sent to a home (R299). -/
def isHomeEvent : Instr → Bool
  | .homeArrive | .homeBarjoin | .homeRel | .homeQpush | .homeBind | .homeLaunch | .homeCancel | .homeColl | .homeCollabort
  | .shadowQproxy | .homeBarshed | .homeBwait | .homeAcq | .homeQrecv | .homeCwait | .homeCollwait => true
  | _ => false

/-- The home that serves an event: of a launch and of a push to a proxy shadow the own chip's Tulle (R299, R307). -/
def servedAt (i : Instr) (m : HomeMsg) : Nat × Nat :=
  match i with
  | .homeLaunch | .shadowQproxy => (4, chipOf m.core % 524288)
  | _ => (homeField m.obj, chipField m.obj)

/-- A host push under way. -/
def isHostPush (m : HomeMsg) (i : Instr) : Bool := i == .homeQpush && m.role == 3

/-- The number under which the host stands among the far ends of links. -/
def hostEnd : Nat := 1048576

/-- The far end of the link of this chip that traffic between two chips crosses. -/
def linkBetween (y : Sys) (a b : Nat) : Option Nat :=
  if a = b then none else if a = y.mgmt.chip % 524288 then some b else if b = y.mgmt.chip % 524288 then some a else none

/-- The far end of the link that an event under way has to cross: a sync event or a proxy batch to another chip's Tulle, a push of the
host (R383, R384). -/
def eventFar (y : Sys) (i : Instr) (m : HomeMsg) : Option Nat :=
  match i with
  | .proxyBatchArrival chip h _ => if homeField h = 4 then linkBetween y (chip % 524288) (chipField h) else none
  | _ =>
    if isHostPush m i then some hostEnd
    else if isHomeEvent i && (servedAt i m).1 == 4 then linkBetween y (chipOf m.core % 524288) (servedAt i m).2
    else none

/-- The status codes of R279. -/
def stOk : Nat := 0
/-- LATE. -/
def stLate : Nat := 1
/-- ABSENT. -/
def stAbsent : Nat := 2
/-- AHEAD. -/
def stAhead : Nat := 3
/-- STALE. -/
def stStale : Nat := 4
/-- MISMATCH. -/
def stMismatch : Nat := 5
/-- NOTMEMBER. -/
def stNotmember : Nat := 6
/-- BUSY. -/
def stBusy : Nat := 7
/-- MENDED. -/
def stMended : Nat := 8
/-- EMPTY. -/
def stEmpty : Nat := 9
/-- FULL. -/
def stFull : Nat := 10
/-- NOREPLY. -/
def stNoreply : Nat := 13
/-- PENDING. -/
def stPending : Nat := 11
/-- CANCELLED. -/
def stCancelled : Nat := 12

/-- The status word of R298. -/
def statusWord (status who value : Nat) : Nat := value % 4294967296 * 4294967296 + who * 256 + status

/-- The answer to a message on its way back (R275, R298): from a home of the chip it is there at once, from another
chip's Tulle after the route's delay. A message without a ticket wants none. -/
def reply (y : Sys) (g : Nat) (m : HomeMsg) (first status who value : Nat) : Sys :=
  if m.ticket = 0 then y
  else if isRemote m.core m.obj then
    let (n, y) := takeFree y
    let t := g + 4 + Config.regDelay n % ((vdOf y (vdKeyOf y m.core)).rlat + 1)
    { y with answers := y.answers ++ [⟨m.ticket, t, first, statusWord status who value, some (farChip y m.core m.obj)⟩] }
  else { y with answers := y.answers ++ [⟨m.ticket, g, first, statusWord status who value, none⟩] }

/-! ## Generations (R280, R321) -/

/-- How a generation stands to the open one. -/
inductive GenClass where
  | opened
  | resolved (back : Nat)
  | ahead
  | stale
  deriving DecidableEq, Repr

/-- The class of generation g when GEN is open and some generations have resolved. -/
def genClass (gen resolved g : Nat) : GenClass :=
  let back := (gen + 4294967296 - g % 4294967296) % 4294967296
  if back = 0 then .opened
  else if back ≤ 2 && back ≤ resolved then .resolved back
  else if 2147483648 < back then .ahead
  else .stale

/-! ## Barriers (R280 to R285) -/

/-- The bit of a party. -/
def partyBit (p : Nat) : BitVec 64 := 1#64 <<< (p % 64)

/-- Whether a party is in a set. -/
def inSet (m : BitVec 64) (p : Nat) : Bool := m.getLsbD p

/-- abs(g) of a resolved generation. -/
def Barrier.absent (b : Barrier) (back : Nat) : BitVec 64 := if back = 1 then b.abs1 else b.abs2

/-- The resolution of the open generation (R282). -/
def resolveBarrier (o : Obj) (b : Barrier) : Obj :=
  { o with
    gen := (o.gen + 1) % 4294967296, resolved := min (o.resolved + 1) 2
    body := .barrier { b with
      arrived := 0, chips := [], deadline := 0, abs2 := b.abs1, abs1 := b.expect &&& ~~~b.arrived } }

/-- Set the deadline of the open generation at registration tick r; one already past resolves it at once (R281). -/
def setDeadline (y : Sys) (r d : Nat) (o : Obj) (b : Barrier) : Sys × Obj :=
  let o1 : Obj := { o with body := .barrier { b with deadline := d } }
  if b.deadline ≠ 0 then (y, o)
  else if d < r then (y, resolveBarrier o b)
  else (schedule y d (.barrierResolution o.key) noMsg, o1)

/-- The answer to an arrive about a resolved generation or none: LATE, AHEAD or STALE. -/
def arriveLate (o : Obj) (b : Barrier) (g : Nat) : Nat × Nat :=
  match genClass o.gen o.resolved g with
  | .resolved k => (stLate, (b.absent k).toNat)
  | .ahead => (stAhead, 0)
  | _ => (stStale, 0)

/-- The chip of a party that arrives from another one. -/
def arrivedFrom (y : Sys) (m : HomeMsg) : List (Nat × Nat) :=
  if chipOf m.core = y.mgmt.chip then [] else [(m.party, chipOf m.core)]

/-- arrive (R281, R283). -/
def serveArrive (y : Sys) (r : Nat) (m : HomeMsg) (o : Obj) (b : Barrier) : Sys :=
  if !inSet b.expect m.party then reply y r m 0 stNotmember 255 o.gen
  else
    match genClass o.gen o.resolved m.gen with
    | .opened =>
      if b.deadline ≠ 0 && b.deadline ≠ m.dl then reply y r m 0 stMismatch 255 o.gen
      else
        let (y, o) := setDeadline y r m.dl o b
        match o.body with
        | .barrier b =>
          if genClass o.gen o.resolved m.gen = .opened then
            reply (setObj y { o with body := .barrier { b with
              arrived := b.arrived ||| partyBit m.party, chips := arrivedFrom y m ++ b.chips } }) r m 0 stOk 255 o.gen
          else reply (setObj y o) r m (arriveLate o b m.gen).2 (arriveLate o b m.gen).1 255 o.gen
        | _ => y
    | _ => reply y r m (arriveLate o b m.gen).2 (arriveLate o b m.gen).1 255 o.gen

/-- The answer to a bwait (R283). -/
def bwaitAnswer (o : Obj) (b : Barrier) (p g : Nat) : Nat × Nat :=
  match genClass o.gen o.resolved g with
  | .resolved k =>
    if inSet (b.absent k) p then (stAbsent, (b.absent k).toNat)
    else if inSet b.expect p then (stOk, (b.absent k).toNat)
    else (stNotmember, (b.absent k).toNat)
  | .opened => (stAhead, 0)
  | .ahead => (stAhead, 0)
  | .stale => (stStale, 0)

/-- bwait (R281, R283). -/
def serveBwait (y : Sys) (r : Nat) (m : HomeMsg) (o : Obj) (b : Barrier) : Sys :=
  if genClass o.gen o.resolved m.gen = .opened && b.deadline ≠ 0 && b.deadline ≠ m.dl then
    reply y r m 0 stMismatch 255 o.gen
  else
    let (y, o) := if genClass o.gen o.resolved m.gen = .opened then setDeadline y r m.dl o b else (y, o)
    match o.body with
    | .barrier b =>
      let a := bwaitAnswer o b m.party m.gen
      reply (setObj y o) r m a.2 a.1 255 o.gen
    | _ => y

/-- barshed (R283, R285). -/
def serveBarshed (y : Sys) (r : Nat) (m : HomeMsg) (o : Obj) (b : Barrier) : Sys :=
  match genClass o.gen o.resolved m.gen with
  | .resolved k =>
    let x := b.absent k &&& ~~~b.arrived
    reply (setObj y { o with body := .barrier { b with expect := b.expect &&& ~~~x } }) r m x.toNat stOk 255 o.gen
  | .stale => reply y r m 0 stStale 255 o.gen
  | _ => reply y r m 0 stAhead 255 o.gen

/-- barjoin (R283). -/
def serveBarjoin (y : Sys) (r : Nat) (m : HomeMsg) (o : Obj) (b : Barrier) : Sys :=
  reply (setObj y { o with body := .barrier { b with expect := b.expect ||| partyBit m.party } }) r m 0 stOk 255 o.gen

/-- The object that the message names, with its barrier. -/
def withBarrier (s : State) (f : Sys → Nat → HomeMsg → Obj → Barrier → Sys) : Sys :=
  match objOf s.sys s.sys.msg.obj with
  | some o => match o.body with
    | .barrier b => f s.sys s.gtc s.sys.msg o b
    | _ => s.sys
  | none => s.sys

/-- HOME_ARRIVE. -/
def execHomeArrive : State → Result := lift fun s => withBarrier s serveArrive
/-- HOME_BWAIT. -/
def execHomeBwait : State → Result := lift fun s => withBarrier s serveBwait
/-- HOME_BARSHED. -/
def execHomeBarshed : State → Result := lift fun s => withBarrier s serveBarshed
/-- HOME_BARJOIN. -/
def execHomeBarjoin : State → Result := lift fun s => withBarrier s serveBarjoin

/-- BARRIER_RESOLUTION (R282): the deadline of the open generation is reached. -/
def execBarrierResolution (h : Nat) : State → Result := lift fun s =>
  match objOf s.sys h with
  | some o => match o.body with
    | .barrier b => if b.deadline ≠ 0 && b.deadline ≤ s.gtc then setObj s.sys (resolveBarrier o b) else s.sys
    | _ => s.sys
  | none => s.sys

/-! ## Locks (R286 to R288) -/

/-- EXPIRY of a grant at r under a lease (R286). -/
def expiryOf (r lease : Nat) : Nat := if lease = 0 then 0xFFFFFFFFFFFFFFFF else r + lease

/-- The units of the window of an object. -/
def WinUnit.belongs (y : Sys) (h : Nat) (w : WinUnit) : Bool := (keySlot y w.chip w.slot).wobj == h

/-- A core of a virtual device sees from now on what releases of a window's object have published (R193). -/
def acquireWindow (y : Sys) (h vk core : Nat) : Sys :=
  { y with window := y.window.map fun w : WinUnit =>
      if !w.belongs y h then w
      else { w with evs := w.evs.map fun e : WinEvent =>
        if e.released && !e.got.contains (vk, core) then { e with got := (vk, core) :: e.got } else e } }

/-- The same of an acquisition of a window's object; another object carries no bytes of a window. -/
def acquired (y : Sys) (o : Obj) (core : Nat) : Sys := if o.window then acquireWindow y o.key (vdKeyOf y core) core else y

/-- The units noted under an object that is gone or written anew. -/
def dropUnits (y : Sys) (h : Nat) : Sys := { y with torn := y.torn.filter fun t => t.obj != h }

/-- A release publishes what its holder wrote; a unit that it did not repair stays torn (R187). -/
def publishUnits (y : Sys) (h : Nat) : Sys :=
  { y with torn := y.torn.filter fun t => t.obj != h || t.reader.isSome }

/-- Whether two ranges of bytes meet. -/
def rangesMeet (a n b k : Nat) : Bool := decide (a < b + k) && decide (b < a + n) && decide (0 < n) && decide (0 < k)

/-- Whether a range lies in one of some regions of an object, or on a page keyed by the window's slot. -/
def regionMeets (s : State) (vk : Nat) (o : Obj) (l : List Region) (a n : Nat) : Bool :=
  (l.any fun q => rangesMeet q.base q.len a n) ||
  (o.window && match xlate s vk a with
    | some x => (keySlot s.sys (vk / 32) x.slot).kind == 2 && (keySlot s.sys (vk / 32) x.slot).wobj == o.key
    | none => false)

/-- A lock is taken over: the units that its abandoned holder's core wrote in its tenure and that lie in a region bound now, for
whatever party, are torn for the new holder, whose core holds the lock from r (R187, R277, R288). -/
def tearUnits (s : State) (y : Sys) (o : Obj) (hcore core r : Nat) : Sys :=
  { y with torn := y.torn.filterMap fun t : TornUnit =>
      if t.obj != o.key then some t
      else if t.reader.isNone && !t.vas.any (fun a => regionMeets s (vdKeyOf y hcore) o o.regions a 8) then none
      else some { t with reader := some (core, r) } }

/-- A lock granted or taken over by the message's sender at r. -/
def grantLock (o : Obj) (l : Lock) (r : Nat) (m : HomeMsg) : Obj :=
  { o with
    gen := (o.gen + 1) % 4294967296
    body := .lock { l with
      holder := m.party, acqtick := r, expiry := expiryOf r m.aux, hcore := m.core, hrole := m.role, since := r } }

/-- acq and acq.m (R287, R303); the mend bit stands in DL's place. -/
def serveAcq (s : State) (m : HomeMsg) (o : Obj) (l : Lock) : Sys :=
  let y := s.sys
  let r := s.gtc
  if !inSet l.parties m.party then reply y r m 0 stNotmember 255 o.gen
  else if l.holder = 255 then
    if l.reltick ≠ 0 then reply y r m 0 stBusy 255 o.gen
    else
      let o' := grantLock o l r m
      reply (acquired (setObj y o') o m.core) r m 0 stOk 255 o'.gen
  else if l.holder = m.party then
    let y := setObj y { o with body := .lock { l with
      acqtick := r, expiry := expiryOf r m.aux, hcore := m.core, hrole := m.role } }
    reply (acquired y o m.core) r m 0 stOk 255 o.gen
  else if r < l.expiry || m.dl = 0 then reply y r m (2 ^ (l.holder % 64)) stBusy l.holder o.gen
  else
    let o' := grantLock { o with torn := true } { l with
      prev := l.holder, pcore := l.hcore, psince := l.since, mended := o.regions } r m
    reply (acquired (tearUnits s (setObj y o') o l.hcore m.core r) o m.core) r m (2 ^ (l.holder % 64)) stMended l.holder o'.gen

/-- Whether a release of an object by a party covers a write of a range (R186, R304, R361): the range lies in a region bound for
the party or for all, or in the window. -/
def regionCovers (s : State) (vk : Nat) (o : Obj) (party a n : Nat) : Bool :=
  regionMeets s vk o (o.regions.filter fun q => q.party == party || q.party == 255) a n

/-- The unit noted under a lock. -/
def tornAt (y : Sys) (h unit : Nat) : Option TornUnit := y.torn.find? fun t => t.obj == h && t.unit == unit

/-- Keep a noted unit in the place of the one noted before. -/
def keepTorn (y : Sys) (t : TornUnit) : Sys := { y with torn := (y.torn.filter fun u => !(u.obj == t.obj && u.unit == t.unit)) ++ [t] }

/-- Note that a core's write at a virtual address puts bytes into a unit in the tenure of a lock (R187): after the value published
before; a new holder's write repairs a torn unit; a late write of the abandoned holder is one more that may be read. -/
def noteUnit (s : State) (y : Sys) (o : Obj) (l : Lock) (late : Bool) (core va unit : Nat) (ws : List (Nat × Byte)) : Sys :=
  let present := (List.range 8).map fun i => Mem.read s.mem.bytes (8 * unit + i)
  let put := fun (b : List Byte) => ws.foldl (fun b w => b.set w.1 w.2) b
  match tornAt y o.key unit with
  | none => keepTorn y ⟨unit, o.key, [va], [present, put present], if late then some (l.hcore, l.since) else none⟩
  | some t =>
    let vas := if t.vas.contains va then t.vas else va :: t.vas
    match t.reader with
    | none => if late then y else keepTorn y { t with vas := vas, vals := t.vals ++ [put (t.vals.getLast?.getD present)] }
    | some r =>
      if late then keepTorn y { t with vals := t.vals ++ [put present] }
      else keepTorn y { t with
        vas := [va], reader := none, vals := [if r.1 = core then t.vals.headD present else present, put present] }

/-- The locks in whose tenure a core makes a write issued at a tick: those it holds, and those that were taken over from
it. -/
def tenures (y : Sys) (core issue : Nat) : List (Obj × Lock × Bool) :=
  y.objs.filterMap fun o => match o.body with
    | .lock l =>
      if l.holder != 255 && l.hcore == core && decide (l.since ≤ issue) then some (o, l, false)
      else if o.torn && l.pcore == core && decide (l.psince ≤ issue) then some (o, l, true)
      else none
    | _ => none

/-- Note a core's write of bytes at a virtual address in its units, under each lock in whose tenure it is made; a late write only where
a region bound at the mend lies (R187, R277). -/
def noteHeld (s : State) (y : Sys) (core issue va : Nat) (bs : List Byte) : Sys :=
  let vk := vdKeyOf y core
  (tenures y core issue).foldl (fun y q =>
    (List.range (bs.length / 8 + 2)).foldl (fun y i =>
      let a := if i = 0 then va else (va / 8 + i) * 8
      let n := min (8 - a % 8) (va + bs.length - a)
      if n = 0 || (q.2.2 && !regionMeets s vk q.1 q.2.1.mended a n) then y
      else
        match xlate s vk a with
        | some x =>
          let key := storeKey s vk x.pa
          let ws := (List.range n).map fun k => (key % 8 + k, (bs[a - va + k]?).getD 0)
          noteUnit s y q.1 q.2.1 q.2.2 core (a / 8 * 8) (key / 8) ws
        | none => y) y) y

/-- The transfers of the releasing core, issued before the release and not visible yet, that write to a bound region (R186). -/
def coveredXfers (s : State) (m : HomeMsg) (o : Obj) : List Xfer :=
  s.sys.xfers.filter fun x => x.core == m.core && decide (x.stage < 3) && decide (x.issue < m.gen) &&
    (destRanges s.sys x).any fun q => regionCovers s (vdKeyOf s.sys m.core) o m.party q.1 q.2

/-- The tick by which every covered write of the releasing core is visible: the largest XDUE among them (R186). -/
def coveredTick (s : State) (m : HomeMsg) (o : Obj) (r : Nat) : Nat := (coveredXfers s m o).foldl (fun t x => max t x.due) r

/-- rel (R287, R303): of the holder alone. The release takes effect when its covered writes are visible; until that tick is known
RELTICK is the last one possible, the largest XDUE (R186; log entry 81). -/
def serveRel (s : State) (m : HomeMsg) (o : Obj) (l : Lock) : Sys :=
  if l.holder = 255 || l.hcore ≠ m.core || l.hrole ≠ m.role then s.sys
  else
    let m := { m with party := l.holder }
    schedule (setObj s.sys { o with torn := false, body := .lock { l with
        holder := 255, reltick := coveredTick s m o s.gtc, covers := (coveredXfers s m o).map Xfer.xid, relat := m.gen } })
      s.gtc (.lockReleaseEffect o.key) noMsg

/-- The object that the message names, with its lock. -/
def withLock (s : State) (f : Obj → Lock → Sys) : Sys :=
  match objOf s.sys s.sys.msg.obj with
  | some o => match o.body with
    | .lock l => f o l
    | _ => s.sys
  | none => s.sys

/-- HOME_ACQ. -/
def execHomeAcq : State → Result := lift fun s => withLock s (serveAcq s s.sys.msg)
/-- HOME_REL. -/
def execHomeRel : State → Result := lift fun s => withLock s (serveRel s s.sys.msg)

/-- A release of a window's object, issued by a core at a tick, publishes what that core wrote there before; whether a write of another
core of its device came before the release is free (R193, R361; log entry 18). -/
def publishWindow (y : Sys) (h core before : Nat) : Sys :=
  let vk := vdKeyOf y core
  { y with
    free := y.free + 1
    window := y.window.map fun w : WinUnit =>
      if !w.belongs y h then w
      else { w with evs := w.evs.map fun e : WinEvent =>
        if e.writer == vk && (if e.wcore = some core then decide (e.issue < before) else Config.cameBefore y.free w.unit)
        then { e with released := true } else e } }

/-- LOCK_RELEASE_EFFECT (R186, R287): until every covered write is visible it is looked at again in the next tick; the tick at which
they are is RELTICK, and when that is reached the lock is FREE and the release has published them (R187, R193). -/
def execLockReleaseEffect (h : Nat) : State → Result := lift fun s =>
  match objOf s.sys h with
  | some o => match o.body with
    | .lock l =>
      if l.reltick = 0 then s.sys
      else if l.covers.any fun n => s.sys.xfers.any fun x => x.xid == n && decide (x.stage < 3) then
        schedule s.sys (s.gtc + 1) (.lockReleaseEffect h) noMsg
      else if l.covers ≠ [] then
        schedule (setObj s.sys { o with body := .lock { l with reltick := s.gtc, covers := [] } }) s.gtc (.lockReleaseEffect h) noMsg
      else if s.gtc < l.reltick then schedule s.sys l.reltick (.lockReleaseEffect h) noMsg
      else
        let y := publishUnits (setObj s.sys { o with body := .lock { l with reltick := 0 } }) h
        if o.window then publishWindow y h l.hcore l.relat else y
    | _ => s.sys
  | none => s.sys

/-- The four entries of a region table (R277). -/
def regionAt (o : Obj) (e : Nat) : Region := (o.regions[e]?).getD ⟨0, 0, 255⟩

/-- HOME_BIND (R304): entry e of the region table is replaced; NREG counts the entries with a length. -/
def execHomeBind : State → Result := lift fun s =>
  let m := s.sys.msg
  match objOf s.sys m.obj with
  | some o =>
    let e := field m.aux 49 48
    setObj s.sys { o with regions := (List.range 4).map fun k =>
      if k = e then ⟨m.dl, field m.aux 39 0, field m.aux 47 40⟩ else regionAt o k }
  | none => s.sys

/-! ## Queues (R289, R290) -/

/-- COUNT: committed entries. -/
def Queue.committed (q : Queue) : List QSlot := q.slots.filter fun x => x.st == 2

/-- What a push by p does (R290): the queue after it, GEN after it, and the status. The commit order counts without end, so that the
order of commits is never lost (R289; log entry 95). -/
def pushQueue (o : Obj) (q : Queue) (core p payload launch : Nat) (close : Bool) : Obj × Nat :=
  if !inSet q.producers p then (o, stNotmember)
  else if q.cap ≤ q.slots.length then (o, stFull)
  else
    let slots := q.slots ++ [{ core := core, payload := payload, prod := p, st := 1, order := 0, launch := launch }]
    if !close then ({ o with body := .queue { q with slots := slots } }, stOk)
    else
      let step := fun (a : List QSlot × Nat) (x : QSlot) =>
        if x.st == 1 && x.prod == p then (a.1 ++ [{ x with st := 2, order := a.2 }], a.2 + 1) else (a.1 ++ [x], a.2)
      let (slots, next) := slots.foldl step ([], q.nextOrder)
      ({ o with
          gen := (o.gen + 1) % 4294967296
          body := .queue { q with slots := slots, nextOrder := next, since := q.since.map fun w => w ||| partyBit p } }, stOk)

/-- A receive by c (R290): the object after it, status, first word, producer. -/
def recvQueue (o : Obj) (q : Queue) (c : Nat) : Obj × Nat × Nat × Nat :=
  if q.consumers ≤ c then (o, stNotmember, 0, 255)
  else
    let since := q.since.set c 0
    match q.committed.foldl (fun (best : Option QSlot) x =>
        match best with
        | some b => if x.order < b.order then some x else some b
        | none => some x) none with
    | some x => ({ o with body := .queue { q with since := since, slots := q.slots.erase x } }, stOk, x.payload, x.prod)
    | none =>
      ({ o with body := .queue { q with since := since } }, stEmpty,
        (q.producers &&& ~~~((q.since[c]?).getD 0)).toNat, 255)

/-- The queue of a handle. -/
def queueOf (y : Sys) (h : Nat) : Option (Obj × Queue) :=
  match objOf y h with
  | some o => match o.body with
    | .queue q => some (o, q)
    | _ => none
  | none => none

/-- JOBSTAT after a push of the host has registered with a status (R404). -/
def jobDone (y : Sys) (vk st : Nat) : Sys :=
  let v := vdOf y vk
  setVd y { v with
    jobLast := st, jobPending := v.jobPending - 1
    jobAccepted := if st = stOk then (v.jobAccepted + 1) % 4294967296 else v.jobAccepted
    jobRefused := if st = stFull ∨ st = stNotmember then min (v.jobRefused + 1) 65535 else v.jobRefused }

/-- The shadow of a queue on a chip. -/
def shadowOf (y : Sys) (chip h : Nat) : ProxyShadow :=
  (y.shadows.find? fun w => w.chip == chip && w.obj == h).getD {
    chip := chip, obj := h, waiting := [], flying := [], refused := [], nextBatch := 0 }

/-- Replace a shadow. -/
def setShadow (y : Sys) (w : ProxyShadow) : Sys :=
  { y with shadows := w :: y.shadows.filter fun x => !(x.chip == w.chip && x.obj == w.obj) }

/-- The end of a proxied push with a status (R335): a refused one is counted at its shadow, and an open one whose launch was
abandoned meanwhile is freed. -/
def proxyDone (y : Sys) (m : HomeMsg) (st : Nat) : Sys :=
  if st ≠ stOk then
    let w := shadowOf y (chipOf m.core) m.obj
    let n := ((w.refused.find? fun p => p.1 == m.party).map Prod.snd).getD 0
    setShadow y { w with refused := putBy Prod.fst (m.party, n + 1) w.refused }
  else if m.gen = 0 then y
  else match queueOf y m.obj with
    | some (o, q) =>
      let stays := fun (x : QSlot) => x.st != 1 || x.launch != m.launch || chipOf x.core != chipOf m.core
      setObj y { o with body := .queue { q with slots := q.slots.filter stays } }
    | none => y

/-- HOME_QPUSH: AUX is CLOSE, DL the payload. A push of the host (ROLE 3) for the virtual device in GEN counts in its
JOBSTAT (R405); one of a proxy batch has ROLE 4 (R334). -/
def execHomeQpush : State → Result := lift fun s =>
  let m := s.sys.msg
  if m.role = 3 && homeField m.obj = 4 && chipRemoved s.sys m.gen (chipField m.obj) then jobDone s.sys m.gen stNoreply
  else match queueOf s.sys m.obj with
  | some (o, q) =>
    let (o', st) := pushQueue o q m.core m.party m.dl m.launch (m.aux == 1)
    let y := setObj s.sys o'
    if m.role = 3 then jobDone y m.gen st
    else if m.role = 4 then proxyDone y m st
    else reply y s.gtc m 0 st 255 (if st = stOk then o'.gen else 0)
  | none =>
    if m.role = 3 then
      let v := vdOf s.sys m.gen
      setVd s.sys { v with jobPending := v.jobPending - 1 }
    else s.sys

/-- HOME_QRECV. -/
def execHomeQrecv : State → Result := lift fun s =>
  let m := s.sys.msg
  match queueOf s.sys m.obj with
  | some (o, q) =>
    let (o', st, first, who) := recvQueue o q m.party
    reply (setObj s.sys o') s.gtc m first st who 0
  | none => s.sys

/-- QUEUE_ABANDONMENT (R290): the open entries of a launch are freed. -/
def execQueueAbandonment (h launch : Nat) : State → Result := lift fun s =>
  match queueOf s.sys h with
  | some (o, q) => setObj s.sys { o with body := .queue { q with
      slots := q.slots.filter fun x => x.st != 1 || x.launch != launch } }
  | none => s.sys

/-! ## Proxy shadows (R307, R334, R335) -/

/-- Entries that a shadow holds, those under way included. -/
def ProxyShadow.held (w : ProxyShadow) : Nat :=
  w.waiting.length + (w.flying.map fun b => b.2.length).foldl (· + ·) 0

/-- The route bound of a shadow to its queue's home: 0 on one chip. -/
def shadowRlat (y : Sys) (vk chip h : Nat) : Nat :=
  if homeField h < 4 || chipField h = chip % 524288 then 0 else (vdOf y vk).rlat

/-- SHADOW_QPROXY (R307, R335). -/
def execShadowQproxy : State → Result := lift fun s =>
  let y := s.sys
  let m := y.msg
  let chip := chipOf m.core
  let w := shadowOf y chip m.obj
  let back := { m with obj := chip % 524288 * 131072 + 65536 }
  match w.refused.find? fun p => p.1 == m.party && p.2 != 0 with
  | some p =>
    reply (setShadow y { w with refused := w.refused.filter fun q => q.1 != m.party }) s.gtc back p.2 stFull 255 w.held
  | none =>
    if 32 ≤ w.held then reply y s.gtc back 0 stFull 255 w.held
    else
      let w := { w with waiting := w.waiting ++ [(s.gtc, { m with gen := 0 })] }
      let y := setShadow y w
      let y := if 8 ≤ w.waiting.length then schedule y s.gtc (.proxyBatchSend chip m.obj) noMsg
        else schedule y (s.gtc + 256) (.proxyBatchSend chip m.obj) noMsg
      reply y s.gtc back (s.gtc + 292 + shadowRlat y (vdKeyOf y m.core) chip m.obj) stOk 255 w.held

/-- PROXY_BATCH_SEND (R334): when the shadow holds 8 entries, or its oldest is 256 ticks old. -/
def execProxyBatchSend (chip h : Nat) : State → Result := lift fun s =>
  let y := s.sys
  let w := shadowOf y chip h
  match w.waiting with
  | [] => y
  | (t, m) :: _ =>
    if w.waiting.length < 8 && s.gtc < t + 256 then y
    else
      let (n, y) := takeFree y
      let y := setShadow y { w with
        waiting := [], flying := w.flying ++ [(w.nextBatch, w.waiting.map Prod.snd)], nextBatch := w.nextBatch + 1 }
      if homeField h = 4 && chipRemoved y (vdKeyOf y m.core) (chipField h) then y
      else
        let r := s.gtc + 4 + Config.proxyDelay n % (33 + shadowRlat y (vdKeyOf y m.core) chip h)
        let last := y.sched.foldl (fun a e => match e.2.1 with
          | .proxyBatchArrival c k _ => if c = chip && k = h then max a e.1 else a
          | _ => a) 0
        schedule y (max r last) (.proxyBatchArrival chip h w.nextBatch) noMsg

/-- PROXY_BATCH_ARRIVAL (R334): each entry of the batch registers in this tick as a push by its producer, so that R278 serves it
among the others of the tick. -/
def execProxyBatchArrival (chip h n : Nat) : State → Result := lift fun s =>
  let w := shadowOf s.sys chip h
  let batch := ((w.flying.find? fun b => b.1 == n).map Prod.snd).getD []
  let y := setShadow s.sys { w with flying := w.flying.filter fun b => b.1 != n }
  batch.foldl (fun y m => schedule y s.gtc .homeQpush { m with role := 4, ticket := 0 }) y

/-! ## Counters and launches (R291, R308, R311 to R313) -/

/-- A counter fresh for its contributors (R291, R308). -/
def Counter.fresh (target vd : Nat) : Counter := {
  count := 0, target := target, bitmap := 0, state := 0, donetick := 0, hasParent := false, parent := 0, ppos := 0
  msix := 65535, vd := vd }

/-- PENDMAP (R291). -/
def Counter.pendmap (c : Counter) : Nat :=
  maskOf 64 fun b => (List.range ((c.target + 63 - b) / 64)).any fun k => !c.bitmap.testBit (64 * k + b)

/-- The counter of a handle. -/
def counterOf (y : Sys) (h : Nat) : Option (Obj × Counter) :=
  match objOf y h with
  | some o => match o.body with
    | .counter c => some (o, c)
    | _ => none
  | none => none

/-- The running launches that count in a counter. -/
def countersLaunches (y : Sys) (h : Nat) : List Domain :=
  y.doms.filter fun d => !d.control && d.launch.counter == h && d.st != .ended

/-- The vectors that a counter raises when it is DONE: its list entry's and its launch's (R309, R363). -/
def doneVectors (ds : List Domain) (c : Counter) : List Nat :=
  ((c.msix :: ds.map fun d => d.launch.msix).filter fun v => decide (v < 64)).eraseDups

/-- The parents at which a counter that is DONE registers, with its number there: its list entry's and its launch's (R311). -/
def doneParents (ds : List Domain) (c : Counter) : List (Nat × Nat) :=
  ((if c.hasParent then [(c.parent, c.ppos)] else []) ++
    (ds.filter fun d => d.launch.hasParent).map fun d => (d.launch.parent, d.launch.ppos)).eraseDups

/-- A counter is DONE: the launch that counts in it ends COMPLETED with its status written, then its vectors are raised, and its
parents register its completion in the same tick (R291, R311, R363; log entry 96). -/
def counterDone (s : State) (y : Sys) (h : Nat) (c : Counter) : Sys :=
  let ds := countersLaunches y h
  let y := ds.foldl (fun y d => endDomain s y d statusCompleted) y
  let y := (doneVectors ds c).foldl (fun y v => raiseMsix y (c.vd % 32) v) y
  (doneParents ds c).foldl (fun y p => schedule y s.gtc (.counterCompletion p.1 p.2) noMsg) y

/-- COUNTER_COMPLETION (R291). -/
def execCounterCompletion (h c : Nat) : State → Result := lift fun s =>
  match counterOf s.sys h with
  | some (o, k) =>
    if k.state ≠ 0 || k.target ≤ c || k.bitmap.testBit c then s.sys
    else
      let k := { k with count := k.count + 1, bitmap := setBit k.bitmap c }
      if k.count = k.target then
        let k := { k with state := 1, donetick := s.gtc }
        counterDone s (setObj s.sys { o with body := .counter k }) h k
      else setObj s.sys { o with body := .counter k }
  | none => s.sys

/-- HOME_CWAIT (R312). -/
def execHomeCwait : State → Result := lift fun s =>
  let m := s.sys.msg
  match counterOf s.sys m.obj with
  | some (_, c) =>
    reply s.sys s.gtc m c.pendmap (if c.state = 0 then stPending else if c.state = 1 then stOk else stCancelled) 255 c.count
  | none => s.sys

/-- Whether a counter lies at or below a level: its chain of parents reaches it (R313). -/
def below (y : Sys) (top : Nat) : Nat → Nat → Bool
  | 0, h => h == top
  | n + 1, h => h == top || (match counterOf y h with
    | some (_, c) => c.hasParent && below y top n c.parent
    | none => false)

/-- Whether a launch lies at or below a level. -/
def launchBelow (y : Sys) (top : Nat) (l : Launch) : Bool :=
  below y top y.objs.length l.counter || (l.hasParent && below y top y.objs.length l.parent)

/-- Let the launch unit reach its next entry after some work (R310). -/
def wakeLaunchUnit (y : Sys) (g vk : Nat) : Sys :=
  let (n, y) := takeFree y
  schedule y (g + 1 + Config.launchWork n) (.launchUnitServe vk) noMsg

/-- The little-endian number of n bytes from an offset of a record. -/
def at' (bs : List Byte) (off n : Nat) : Nat := ofBytes ((bs.drop off).take n)

/-- The launch filled in from its descriptor. -/
def describe (b : List Byte) (l : Launch) : Launch :=
  { l with
    image := at' b 0 8, args := at' b 8 8, start := at' b 16 8, hasParent := (at' b 46 1).testBit 0
    parent := at' b 32 8, ppos := at' b 40 4, msix := at' b 44 2 }

/-- A launch of a FIFO as its level is known: one that the unit has not reached yet names its parent in its descriptor. -/
def parented (s : State) (vk : Nat) (l : Launch) : Launch :=
  if l.served then l else match loadVa s vk l.desc 64 with | some b => describe b l | none => l

/-- Take a launch out of its device's FIFO; where the unit had reached it, it goes on to the next entry. -/
def dropQueued (y : Sys) (g vk seq : Nat) : Sys :=
  let v := vdOf y vk
  let y := setVd y { v with fifo := v.fifo.filter fun l => l.seq != seq }
  if (v.fifo.head?.any fun l => l.served && l.seq == seq) && (vdOf y vk).fifo != [] then wakeLaunchUnit y g vk else y

/-- Cancel what lies below a level: running launches end, queued ones never start, counters are CANCELLED (R313). -/
def cancelBelow (s : State) (y : Sys) (top : Nat) : Sys :=
  let running := y.doms.filter fun d => !d.control && d.st != .ended && launchBelow y top d.launch
  let counters := y.objs.filter fun o => match o.body with
    | .counter _ => below y top y.objs.length o.key
    | _ => false
  let queued := y.vds.flatMap fun v => (v.fifo.filter fun l => launchBelow y top (parented s v.key l)).map fun l => (v.key, l)
  let y := running.foldl (fun y d => endDomain s y d (if d.faulted then statusFaulted else statusCancelled)) y
  let y := queued.foldl (fun y p => launchEnd s (dropQueued y s.gtc p.1 p.2.seq) p.1 p.2 statusCancelled 0) y
  counters.foldl (fun y o => cancelCounter y s.gtc o.key) y

/-- HOME_CANCEL (R313). -/
def execHomeCancel : State → Result := lift fun s =>
  let m := s.sys.msg
  match counterOf s.sys m.obj with
  | some (_, c) =>
    let y := if c.state = 0 then cancelBelow s s.sys m.obj else s.sys
    reply y s.gtc m c.state stOk 255 c.count
  | none => s.sys

/-- HOME_LAUNCH (R308): queued with the next sequence number and a RUNNING counter, its STATUS 0 QUEUED (R309; log entry 82), or FULL. DL is the descriptor's
address, PARTY the first core, AUX the count. -/
def execHomeLaunch : State → Result := lift fun s =>
  let y := s.sys
  let m := y.msg
  let vk := vdKeyOf y m.core
  let v := vdOf y vk
  let back := { m with obj := chipOf m.core % 524288 * 131072 + 65536 }
  if 16 ≤ v.fifo.length then reply y s.gtc back 0 stFull 255 0
  else
    let seq := v.launchSeq + 1
    let l : Launch := { Launch.none with seq := seq, desc := m.dl, counter := m.obj, first := m.party, count := m.aux }
    let y := setVd y { v with launchSeq := seq, fifo := v.fifo ++ [l] }
    let y := match objOf y m.obj with
      | some o => setObj y { o with
          gen := 0, resolved := 0, torn := false, body := .counter (.fresh (3 * m.aux) vk) }
      | none => y
    let y := postVa s y vk (m.dl + 0x30) (toBytes 4 0)
    let y := if v.fifo = [] then wakeLaunchUnit y s.gtc vk else y
    reply y s.gtc back 0 stOk 255 seq

end Sys2Proof.Machine
end

