-- ==== Sys2Proof/Machine/Arith.lean ====
section
/-! DEFINITION. Numbers of the arithmetic promise: the formats bit by bit (R195 to R202), RoundTo (R203, R204), Mix64 and
the stochastic draw (R205, R206), ordered sums (R207), the binned accumulator (R208 to R212) and the canonical
tree (R215, R216). -/

namespace Sys2Proof.Machine

/-! ## Formats -/

/-- A number format: an IEEE-like one by exponent and fraction bits (f64, f32, f16, bf16 and F8B, R196, R199), F8A,
W2P, SC12, and integers. -/
inductive Fmt where
  | ieee (eb fb : Nat)
  | f8a | w2p | sc12
  | int (w : Nat) (signed : Bool)
  deriving DecidableEq, Repr

/-- An exact value: NaN, an infinity, or ± m × 2^e; with `st` the magnitude lies strictly between m and m + 1 units. -/
inductive Num where
  | nan
  | inf (neg : Bool)
  | fin (neg : Bool) (m : Nat) (e : Int) (st : Bool)
  deriving DecidableEq, Repr

/-- Sub-elements of a container or pair (R38). -/
def subsOf : ETy → Nat
  | .i16x2 | .uint16x2 | .bf16x2 | .f16x2 | .sc12x2 => 2
  | .i8x4 | .uint8x4 | .f8ax4 | .f8bx4 | .w2px4 => 4
  | .i4x8 => 8
  | _ => 1

/-- A 64-bit type, held in a register pair (R23). -/
def wideOf : ETy → Bool
  | .i64 | .uint64 | .f64 => true
  | _ => false

/-- The width w of a sub-element (R220). -/
def widthOf (t : ETy) : Nat := if wideOf t then 64 else 32 / subsOf t

/-- The bits of a sub-element that an instruction writes: all w of them, or the 12 of an SC12 (R38). -/
def writtenBits (t : ETy) : Nat := if t = .sc12x2 then 12 else widthOf t

/-- The number format of an element type; b32 and bin are read as unsigned words. -/
def fmtOf : ETy → Fmt
  | .i32 => .int 32 true
  | .i16x2 => .int 16 true
  | .uint16x2 => .int 16 false
  | .i8x4 => .int 8 true
  | .uint8x4 => .int 8 false
  | .i4x8 => .int 4 true
  | .i64 => .int 64 true
  | .uint64 => .int 64 false
  | .f32 => .ieee 8 23
  | .f64 => .ieee 11 52
  | .bf16x2 => .ieee 8 7
  | .f16x2 => .ieee 5 10
  | .f8ax4 => .f8a
  | .f8bx4 => .ieee 5 2
  | .w2px4 => .w2p
  | .sc12x2 => .sc12
  | .b32 | .uint32 | .bin => .int 32 false

/-- Whether a type is floating-point for the sums of R216. -/
def isFp : ETy → Bool
  | .f32 | .f64 | .bf16x2 | .f16x2 | .f8ax4 | .f8bx4 => true
  | _ => false

/-- Signed integer types (R220 SINT). -/
def isSigned : ETy → Bool
  | .i32 | .i16x2 | .i8x4 | .i4x8 | .i64 => true
  | _ => false

/-- INT of R220. -/
def isInt : ETy → Bool
  | .i32 | .uint32 | .i16x2 | .uint16x2 | .i8x4 | .uint8x4 | .i4x8 | .i64 | .uint64 => true
  | _ => false

/-- FSUM of R220. -/
def isFsum : ETy → Bool
  | .f32 | .f64 | .bf16x2 | .f16x2 => true
  | _ => false

/-- MOVE of R220: every type but bin (codes 0x00 to 0x11). -/
def isMove : ETy → Bool
  | .bin => false
  | _ => true

/-- Sub-element j of a container or pair value (R23). -/
def subOf (t : ETy) (x j : Nat) : Nat := x / 2 ^ (widthOf t * j) % 2 ^ widthOf t

/-- A container or pair value from its sub-elements. -/
def packSubs (t : ETy) (f : Nat → Nat) : Nat :=
  (List.range (subsOf t)).foldl (fun x j => x + f j % 2 ^ widthOf t * 2 ^ (widthOf t * j)) 0

/-- The 32-bit containers of a value: one, or two for a pair. -/
def split (wide : Bool) (x : Nat) : List Nat := if wide then [x % 4294967296, x / 4294967296 % 4294967296] else [x]

/-! ## Reading bits -/

/-- An integer as an exact value. -/
def Num.ofInt (x : Int) : Num := .fin (decide (x < 0)) x.natAbs 0 false

/-- The term t(k) of a W2P byte in units of 2^−6 (R200). -/
def w2pTerm (k : Nat) : Nat := if k = 7 then 0 else 2 ^ (6 - k)

/-- The value of a W2P byte in units of 2^−6 (R200). -/
def w2pUnits (b : Nat) : Int :=
  (if b.testBit 7 then -(w2pTerm (field b 6 4) : Int) else w2pTerm (field b 6 4)) +
  (if b.testBit 3 then -(w2pTerm (field b 2 0) : Int) else w2pTerm (field b 2 0))

/-- The bias of an IEEE-like exponent (R196, R199). -/
def biasOf (eb : Nat) : Int := (2 ^ (eb - 1) : Nat) - 1

/-- The exact value of a bit pattern (R195 to R202). -/
def Fmt.val (f : Fmt) (x : Nat) : Num :=
  match f with
  | .ieee eb fb =>
    let s := x.testBit (eb + fb)
    let e := x / 2 ^ fb % 2 ^ eb
    let m := x % 2 ^ fb
    if e = 2 ^ eb - 1 then (if m = 0 then .inf s else .nan)
    else if e = 0 then .fin s m (1 - biasOf eb - fb) false
    else .fin s (2 ^ fb + m) (e - biasOf eb - fb) false
  | .f8a =>
    if x % 128 = 127 then .nan
    else if field x 6 3 = 0 then .fin (x.testBit 7) (x % 8) (-9) false
    else .fin (x.testBit 7) (8 + x % 8) (field x 6 3 - 10) false
  | .w2p => .fin (decide (w2pUnits (x % 256) < 0)) (w2pUnits (x % 256)).natAbs (-6) false
  | .sc12 =>
    if x % 4096 = 4095 then .nan
    else if field x 11 4 = 0 then .fin false 0 0 false
    else .fin false (16 + x % 16) (field x 11 4 - 131) false
  | .int w signed => .ofInt (if signed then sx w x else (x % 2 ^ w : Nat))

/-! ## RoundTo (R203, R204) -/

/-- The random bits of a rounding: how many, and their value (R206). -/
structure Draw where
  b : Nat
  r : Nat
  deriving DecidableEq, Repr

/-- No draw: for roundings whose mode is not srnd. -/
def Draw.none : Draw := ⟨32, 0⟩

/-- Whether the neighbour hi is chosen for a value that lies num / den (and, with st, a little more) of the way from lo
to hi (R203); `odd` says that lo is the odd one of the two. -/
def picksHi (rm : RMode) (dr : Draw) (neg odd : Bool) (num den : Nat) (st : Bool) : Bool :=
  match rm with
  | .rne => decide (den < 2 * num) || (decide (den = 2 * num) && (st || odd))
  | .rtz => false
  | .rdn => neg
  | .rup => !neg
  | .rna => decide (den ≤ 2 * num)
  | .srnd => decide (dr.r < num * 2 ^ dr.b / den)
  | .rodd => !odd

/-- m × 2^e in whole units of 2^q, with the remainder and what it is a fraction of. -/
def toUnits (m : Nat) (e q : Int) : Nat × Nat × Nat :=
  if q ≤ e then (m * 2 ^ (e - q).toNat, 0, 1)
  else (m / 2 ^ (q - e).toNat, m % 2 ^ (q - e).toNat, 2 ^ (q - e).toNat)

/-- A magnitude rounded to whole units of 2^q, lo even where its number of units is. -/
def roundUnits (rm : RMode) (dr : Draw) (neg : Bool) (m : Nat) (e q : Int) (st : Bool) : Nat :=
  let u := toUnits m e q
  if u.2.1 = 0 && !st then u.1
  else if picksHi rm dr neg (u.1 % 2 == 1) u.2.1 u.2.2 st then u.1 + 1 else u.1

/-- The exponent of the greatest power of two that is at most m × 2^e, for m ≠ 0. -/
def topExp (m : Nat) (e : Int) : Int := Nat.log2 m + e

/-- The result for a finite magnitude beyond the greatest (R204): whether it becomes infinite. -/
def overflowsToInf (rm : RMode) (neg : Bool) : Bool :=
  match rm with
  | .rne | .rna => true
  | .rtz | .rodd | .srnd => false
  | .rdn => neg
  | .rup => !neg

/-- An integer clipped to a width and signedness, as its bits (R195). -/
def clip (w : Nat) (signed : Bool) (x : Int) : Nat :=
  let lo : Int := if signed then -((2 ^ (w - 1) : Nat) : Int) else 0
  let hi : Int := if signed then ((2 ^ (w - 1) : Nat) : Int) - 1 else ((2 ^ w : Nat) : Int) - 1
  wrap w (if x < lo then lo else if hi < x then hi else x)

/-- The magnitudes, in units of 2^−6, that W2P represents (R200). -/
def w2pMags : List Nat := (List.range 129).filter fun n => (List.range 256).any fun b => w2pUnits b == (n : Int)

/-- The canonical W2P pattern of a value in units of 2^−6 (R201). -/
def w2pBits (v : Int) : Nat :=
  if v = 0 then 0x77 else ((List.range 256).find? fun b => w2pUnits b == v).getD 0x77

/-- The W2P magnitude chosen for m × 2^e (R203, R204). -/
def roundW2p (rm : RMode) (dr : Draw) (neg : Bool) (m : Nat) (e : Int) (st : Bool) : Nat :=
  let u := toUnits m e (-6)
  if 128 ≤ u.1 then 128
  else
    let lo := ((w2pMags.filter fun n => decide (n ≤ u.1)).getLast?).getD 0
    let hi := (w2pMags.find? fun n => decide (u.1 < n)).getD 128
    if lo = u.1 && u.2.1 = 0 && !st then lo
    else
      let rm := if rm = .rodd then .rtz else rm
      if picksHi rm dr neg false ((u.1 - lo) * u.2.2 + u.2.1) ((hi - lo) * u.2.2) st then hi else lo

/-- The bits of the canonical NaN, and what NaN gives in formats without one (R196, R199, R202, R241). -/
def Fmt.nan : Fmt → Nat
  | .ieee eb fb => (2 ^ eb - 1) * 2 ^ fb + 2 ^ (fb - 1)
  | .f8a => 0x7F
  | .w2p => 0x77
  | .sc12 => 0xFFF
  | .int _ _ => 0

/-- What an infinity gives (R199, R202, R241). -/
def Fmt.inf (f : Fmt) (neg : Bool) : Nat :=
  match f with
  | .ieee eb fb => (2 ^ eb - 1) * 2 ^ fb + b01 neg * 2 ^ (eb + fb)
  | .f8a => 0x7F
  | .w2p => if neg then 0x88 else 0x00
  | .sc12 => 0xFFF
  | .int w signed => if neg then clip w signed (-((2 ^ 64 : Nat) : Int)) else clip w signed ((2 ^ 64 : Nat) : Int)

/-- The magnitude bits of a finite magnitude in an IEEE-like layout of fb fraction bits and least exponent qmin: one
quantum in the subnormal range, fb + 1 significant bits above; the exponent is not bounded above. -/
def roundMag (rm : RMode) (dr : Draw) (fb : Nat) (qmin : Int) (neg : Bool) (m : Nat) (e : Int) (st : Bool) : Nat :=
  let q : Int := if m = 0 then qmin else max qmin (topExp m e - fb)
  roundUnits rm dr neg m e q st + (q - qmin).toNat * 2 ^ fb

/-- RoundTo (R203, R204), with what R241 gives for NaN and infinities: the bits of the result. -/
def roundTo (f : Fmt) (rm : RMode) (dr : Draw) (x : Num) : Nat :=
  match x with
  | .nan => f.nan
  | .inf s => f.inf s
  | .fin neg m e st =>
    match f with
    | .ieee eb fb =>
      let b := roundMag rm dr fb (1 - biasOf eb - fb) neg m e st
      let top := (2 ^ eb - 1) * 2 ^ fb
      let b := if b < top then b else if overflowsToInf rm neg then top else top - 1
      b + b01 neg * 2 ^ (eb + fb)
    | .f8a => min (roundMag rm dr 3 (-9) neg m e st) 0x7E + b01 neg * 128
    | .w2p =>
      let v := roundW2p rm dr neg m e st
      w2pBits (if neg then -(v : Int) else v)
    | .sc12 =>
      if m = 0 && !st then 0
      else if neg then 0xFFF
      else if m = 0 || topExp m e < -126 then 16 * roundUnits rm dr neg m e (-126) st
      else min (roundMag rm dr 4 (-130) neg m e st) 0xFFE
    | .int w signed =>
      let v := roundUnits rm dr neg m e 0 st
      clip w signed (if neg then -(v : Int) else v)

/-! ## Stochastic bits (R205, R206) -/

/-- Mix64 (R205). -/
def mix64 (key n : Dword) : Dword :=
  let z := n + key * 0x9E3779B97F4A7C15
  let z := (z ^^^ (z >>> 32)) * 0xD6E8FEB86659FD93
  let z := (z ^^^ (z >>> 29)) * 0xA0761D6478BD642F
  z ^^^ (z >>> 32)

/-- The bits drawn for element i, sub-element j of n, under a SEED and STRIPBASE (R206). -/
def drawFor (seed strip : Dword) (n i j : Nat) : Draw :=
  let b := min 32 (64 / n)
  ⟨b, (mix64 seed (strip + d64 i)).toNat / 2 ^ (b * j) % 2 ^ b⟩

/-- The draw of an entry for element i, sub-element j under its type (R121, R206). -/
def Entry.draw (e : Entry) (n i j : Nat) : Draw := drawFor e.seed e.strip n i j

/-! ## Exact operations -/

/-- The value with its sign changed. -/
def Num.neg : Num → Num
  | .nan => .nan
  | .inf s => .inf (!s)
  | .fin s m e st => .fin (!s) m e st

/-- The magnitude. -/
def Num.abs : Num → Num
  | .nan => .nan
  | .inf _ => .inf false
  | .fin _ m e st => .fin false m e st

/-- NaN. -/
def Num.isNan : Num → Bool
  | .nan => true
  | _ => false

/-- Zero of either sign. -/
def Num.isZero : Num → Bool
  | .fin _ m _ st => m == 0 && !st
  | _ => false

/-- The exact sum, with the sign of an exact zero sum under a mode (R197, R198; of two +0 under rdn: log entry 34). -/
def Num.add (rm : RMode) (a b : Num) : Num :=
  match a, b with
  | .nan, _ => .nan
  | _, .nan => .nan
  | .inf s, .inf t => if s = t then .inf s else .nan
  | .inf s, _ => .inf s
  | _, .inf t => .inf t
  | .fin s m e _, .fin t n f _ =>
    let q := min e f
    let x : Int := m * 2 ^ (e - q).toNat
    let y : Int := n * 2 ^ (f - q).toNat
    let z := (if s then -x else x) + (if t then -y else y)
    if z = 0 then .fin ((s && t) || decide (rm = .rdn)) 0 q false
    else .fin (decide (z < 0)) z.natAbs q false

/-- The exact product (R236, R238): 0 × ∞ is NaN. -/
def Num.mul (a b : Num) : Num :=
  match a, b with
  | .nan, _ => .nan
  | _, .nan => .nan
  | .inf s, .inf t => .inf (s != t)
  | .inf s, .fin t n _ _ => if n = 0 then .nan else .inf (s != t)
  | .fin s m _ _, .inf t => if m = 0 then .nan else .inf (s != t)
  | .fin s m e _, .fin t n f _ => .fin (s != t) (m * n) (e + f) false

/-- The quotient (R238), with 128 bits and the rest. -/
def Num.div (a b : Num) : Num :=
  match a, b with
  | .nan, _ => .nan
  | _, .nan => .nan
  | .inf _, .inf _ => .nan
  | .inf s, .fin t _ _ _ => .inf (s != t)
  | .fin s _ _ _, .inf t => .fin (s != t) 0 0 false
  | .fin s m e _, .fin t n f _ =>
    if n = 0 then (if m = 0 then .nan else .inf (s != t))
    else
      let sh := 128 + Nat.log2 n
      .fin (s != t) (m * 2 ^ sh / n) (e - f - sh) (m * 2 ^ sh % n != 0)

/-- Integer square root from above by Newton's steps. -/
def isqrtFrom : Nat → Nat → Nat → Nat
  | 0, _, g => g
  | k + 1, n, g => if g = 0 then 0 else if (g + n / g) / 2 < g then isqrtFrom k n ((g + n / g) / 2) else g

/-- Integer square root. -/
def isqrt (n : Nat) : Nat := isqrtFrom 4096 n (2 ^ (Nat.log2 n / 2 + 1))

/-- The square root (R238), with at least 128 bits and the rest. -/
def Num.sqrt : Num → Num
  | .nan => .nan
  | .inf s => if s then .nan else .inf false
  | .fin s m e _ =>
    if m = 0 then .fin s 0 0 false
    else if s then .nan
    else
      let sh := 256 + (e % 2).toNat
      let n := m * 2 ^ sh
      let r := isqrt n
      .fin false r ((e - sh) / 2) (r * r != n)

/-- a < b as reals, for values that are neither NaN nor inexact; infinities count. -/
def Num.lt (a b : Num) : Bool :=
  match a, b with
  | .nan, _ => false
  | _, .nan => false
  | .inf s, .inf t => s && !t
  | .inf s, _ => s
  | _, .inf t => !t
  | .fin s m e _, .fin t n f _ =>
    let q := min e f
    let x : Int := m * 2 ^ (e - q).toNat
    let y : Int := n * 2 ^ (f - q).toNat
    decide ((if s then -x else x) < (if t then -y else y))

/-- a = b as reals (+0 equals −0, a NaN equals nothing). -/
def Num.eq (a b : Num) : Bool := !a.isNan && !b.isNan && !a.lt b && !b.lt a

/-- The sign bit of a value. -/
def Num.sign : Num → Bool
  | .nan => false
  | .inf s => s
  | .fin s _ _ _ => s

/-- a before b in the order of R216: −0 below +0. -/
def Num.below (a b : Num) : Bool := a.lt b || (a.isZero && b.isZero && a.sign && !b.sign)

/-! ## Exponential and logarithm -/

/-- ln 2 in units of 2^−p, from below, to within p units: Σ 1 / (k 2^k). -/
def ln2 (p : Nat) : Nat := (List.range p).foldl (fun s k => s + 2 ^ p / ((k + 1) * 2 ^ (k + 1))) 0

/-- e^x in units of 2^−p for x in the same units below 2^p, from below. -/
def expUnits (p x : Nat) : Nat :=
  ((List.range p).foldl (fun (s : Nat × Nat) k => (s.1 + s.2, s.2 * x / 2 ^ p / (k + 1))) (0, 2 ^ p)).1

/-- ln of a number from 1 to 2 given in units of 2^−p, from below: 2 atanh ((m − 1) / (m + 1)). -/
def lnUnits (p m : Nat) : Nat :=
  let y := (m - 2 ^ p) * 2 ^ p / (m + 2 ^ p)
  let sq := y * y / 2 ^ p
  2 * ((List.range p).foldl (fun (s : Nat × Nat) k => (s.1 + s.2 / (2 * k + 1), s.2 * sq / 2 ^ p)) (0, y)).1

/-- The value between two bounds in units of 2^−p, cut to 2^−(p − 64), where both cut alike. -/
def agreed (p : Nat) (neg : Bool) (lo hi : Nat) : Option Num :=
  if lo / 2 ^ 64 = hi / 2 ^ 64 then some (.fin neg (lo / 2 ^ 64) (64 - (p : Int)) true) else none

/-- The first precision at which the bounds agree. -/
def refine (f : Nat → Option Num) : List Nat → Num
  | [] => .nan
  | p :: ps => match f p with | some x => x | none => refine f ps

/-- The precisions tried, in bits; the results are irrational, so that bounds agree at some precision. -/
def precisions : List Nat := [256, 512, 1024, 2048, 4096]

/-- 2^a (R237, R238). -/
def Num.exp2 : Num → Num
  | .nan => .nan
  | .inf s => if s then .fin false 0 0 false else .inf false
  | .fin s m e _ =>
    if m = 0 then .fin false 1 0 false
    else if 2 ^ 15 ≤ (toUnits m e 0).1 then .fin false 1 (if s then -32768 else 32768) false
    else
      let u := toUnits m e 0
      if u.2.1 = 0 then .fin false 1 (if s then -(u.1 : Int) else u.1) false
      else
        let k : Int := if s then -(u.1 : Int) - 1 else u.1
        let num := if s then u.2.2 - u.2.1 else u.2.1
        match refine (fun p =>
          let x := num * ln2 p / u.2.2
          agreed p false (expUnits p x) (expUnits p x + 2 ^ 16)) precisions with
        | .fin n m e st => .fin n m (e + k) st
        | r => r

/-- log2 a (R237, R238). -/
def Num.log2 : Num → Num
  | .nan => .nan
  | .inf s => if s then .nan else .inf false
  | .fin s m e _ =>
    if m = 0 then .inf true
    else if s then .nan
    else
      let k := topExp m e
      if m = 2 ^ Nat.log2 m then (if k = 0 then .fin false 0 0 false else .ofInt k)
      else
        refine (fun p =>
          let x := m * 2 ^ p / 2 ^ Nat.log2 m
          let lo := lnUnits p x * 2 ^ p / (ln2 p + 2 ^ 16)
          let hi := (lnUnits p x + 2 ^ 16) * 2 ^ p / ln2 p + 1
          if 0 ≤ k then agreed p false (k.toNat * 2 ^ p + lo) (k.toNat * 2 ^ p + hi)
          else agreed p true ((-k).toNat * 2 ^ p - hi) ((-k).toNat * 2 ^ p - lo)) precisions

/-! ## Sums, minimum, maximum (R207, R216) -/

/-- One addition of a sum under a type: wrapping for integers, RoundTo for the others (of −0 and +0 under rdn: log entry 34). -/
def addStep (t : ETy) (rm : RMode) (dr : Draw) (a b : Nat) : Nat :=
  if isFp t then roundTo (fmtOf t) rm dr (((fmtOf t).val a).add rm ((fmtOf t).val b))
  else (a + b) % 2 ^ widthOf t

/-- Where a sum starts: −0, or 0 for integers (R207, R234). -/
def sumStart (t : ETy) : Nat := if isFp t then 2 ^ (widthOf t - 1) else 0

/-- OrderedSum (R207) over addends that bring their draws. -/
def orderedSum (t : ETy) (rm : RMode) (xs : List (Draw × Nat)) : Nat :=
  xs.foldl (fun s x => addStep t rm x.1 s x.2) (sumStart t)

/-- The greater under a type (R216, R224): signed or unsigned; −0 below +0; any NaN gives the canonical NaN. -/
def maxOf (t : ETy) (a b : Nat) : Nat :=
  let x := (fmtOf t).val a
  let y := (fmtOf t).val b
  if x.isNan || y.isNan then (fmtOf t).nan else if x.below y then b else a

/-- The lesser under a type. -/
def minOf (t : ETy) (a b : Nat) : Nat :=
  let x := (fmtOf t).val a
  let y := (fmtOf t).val b
  if x.isNan || y.isNan then (fmtOf t).nan else if y.below x then b else a

/-- The identity of a maximum: the least value, or −∞ (R216, R234). -/
def leastOf (t : ETy) : Nat := (fmtOf t).inf true

/-- The identity of a minimum: the greatest value, or +∞ (R216, R234). -/
def greatestOf (t : ETy) : Nat := (fmtOf t).inf false

/-! ## The canonical tree (R215) -/

/-- One level of the tree: neighbours combined, an odd last one carried. -/
def treeLevel {α : Type} (op : α → α → α) : List α → List α
  | a :: b :: l => op a b :: treeLevel op l
  | l => l

/-- The canonical tree over leaves in rank order (R215), with a bound on its levels. -/
def canonical {α : Type} (op : α → α → α) : Nat → List α → List α
  | 0, l => l
  | n + 1, l => canonical op n (treeLevel op l)

/-! ## The binned accumulator (R208 to R212) -/

/-- A record of a binned accumulator: six bins, COUNT, FLAGS. -/
structure Binned where
  bins  : List Int
  count : Nat
  flags : Nat
  deriving DecidableEq, Repr

/-- The record in sixteen containers (R208, R209). -/
def Binned.ofWords (w : Nat → Nat) : Binned := {
  bins := (List.range 6).map fun j => sx 64 (w (2 * j) + 4294967296 * w (2 * j + 1))
  count := w 12, flags := w 13 % 32 }

/-- The containers of a record. -/
def Binned.words (r : Binned) : List Nat :=
  (r.bins.flatMap fun b => split true (wrap 64 b)) ++ [r.count, r.flags, 0, 0]

/-- The base B of a BINBASE value (R208). -/
def binBase (b : Dword) : Int := sx 16 b.toNat

/-- A bin with an integer added: wrapped, and whether the addition overflowed. -/
def binPlus (a b : Int) : Int × Bool := (sx 64 (wrap 64 (a + b)), sx 64 (wrap 64 (a + b)) != a + b)

/-- Add a list of integers to the bins. -/
def Binned.plus (r : Binned) (ps : List Int) : Binned :=
  let l := (r.bins.zip ps).map fun p => binPlus p.1 p.2
  { r with bins := l.map Prod.fst, flags := if l.any Prod.snd then setBit r.flags 3 else r.flags }

/-- BinAdd (R210). -/
def Binned.add (r : Binned) (x : Num) (B : Int) : Binned :=
  let r := { r with count := min (r.count + 1) 4294967295 }
  match x with
  | .nan => { r with flags := setBit r.flags 0 }
  | .inf s => { r with flags := setBit r.flags (if s then 2 else 1) }
  | .fin s m e _ =>
    let sh := e + 240 - B
    if m ≠ 0 && 240 < sh then { r with flags := setBit r.flags 3 }
    else
      let a := if m = 0 then 0 else if 0 ≤ sh then m * 2 ^ sh.toNat else m / 2 ^ (-sh).toNat
      let exact := m = 0 || 0 ≤ sh || m % 2 ^ (-sh).toNat = 0
      if 2 ^ 240 ≤ a then { r with flags := setBit r.flags 3 }
      else
        let r := if exact then r else { r with flags := setBit r.flags 4 }
        r.plus ((List.range 6).map fun j =>
          let p : Int := (a / 2 ^ (40 * (5 - j)) % 2 ^ 40 : Nat)
          if s then -p else p)

/-- The merge of two records (R211). -/
def Binned.merge (a b : Binned) : Binned :=
  let r := a.plus b.bins
  { r with count := min (a.count + b.count) 4294967295, flags := r.flags ||| b.flags }

/-- BinFold to f64 (R212). -/
def Binned.fold (r : Binned) (B : Int) : Nat :=
  let f := Fmt.ieee 11 52
  if r.flags.testBit 0 || r.flags.testBit 3 || (r.flags.testBit 1 && r.flags.testBit 2) then f.nan
  else if r.flags.testBit 1 then f.inf false
  else if r.flags.testBit 2 then f.inf true
  else ((List.range 6).zip r.bins).foldl (fun s p =>
    roundTo f .rne .none ((f.val s).add .rne (.fin (decide (p.2 < 0)) p.2.natAbs (B - 40 * (p.1 + 1)) false))) 0

end Sys2Proof.Machine
end

