-- ==== Sys2Proof/Machine/Flags.lean ====
section
/-! DEFINITION. Every flag computation: the compare conditions that set mask bits (R225, R239), mask-bit logic (R226,
R227), the guard bits of a row, and the residency flags of a word (R151). The FLAGS of a binned record are set
in Arith.lean (R210, R211). -/

namespace Sys2Proof.Machine

/-- A comparison of two integer elements under a type (R225): equality of bits, order signed or unsigned. -/
def intLt (t : ETy) (a b : Nat) : Bool :=
  if isSigned t then decide (sx (widthOf t) a < sx (widthOf t) b) else decide (a < b)

/-- vcmpeq. -/
def condEq (_ : ETy) (a b : Nat) : Bool := a == b
/-- vcmpne. -/
def condNe (_ : ETy) (a b : Nat) : Bool := a != b
/-- vcmplt. -/
def condLt (t : ETy) (a b : Nat) : Bool := intLt t a b
/-- vcmple. -/
def condLe (t : ETy) (a b : Nat) : Bool := !intLt t b a
/-- vfcmpeq: +0 equals −0, a NaN equals nothing (R239). -/
def condFeq (t : ETy) (a b : Nat) : Bool := ((fmtOf t).val a).eq ((fmtOf t).val b)
/-- vfcmplt. -/
def condFlt (t : ETy) (a b : Nat) : Bool := ((fmtOf t).val a).lt ((fmtOf t).val b)
/-- vfcmple. -/
def condFle (t : ETy) (a b : Nat) : Bool := condFlt t a b || condFeq t a b
/-- vfcmpun. -/
def condFun (t : ETy) (a b : Nat) : Bool := ((fmtOf t).val a).isNan || ((fmtOf t).val b).isNan

/-- The guard and start conditions of the elements of row k, as a mask over working lanes (R219). -/
def Env.activeRow (v : Env) (e : Entry) (k : Nat) : Nat :=
  maskOf v.c.lanes fun l => v.active e (k * v.c.lanes + l)

/-- How many elements of row k are active with their bit of a mask set (R227). -/
def Env.countRow (v : Env) (e : Entry) (m k : Nat) : Nat :=
  ((v.rowElems e k).filter fun i => v.active e i && v.c.mbit m i).length

/-- The least active element of row k with its bit of a mask set (R227). -/
def Env.firstRow (v : Env) (e : Entry) (m k : Nat) : Option Nat :=
  (v.rowElems e k).find? fun i => v.active e i && v.c.mbit m i

end Sys2Proof.Machine
end

