-- ==== Sys2Proof/Machine/VectorInt.lean ====
section
/-! DEFINITION. Vector integer, compare, mask, broadcast, extract, index and select instructions (R224 to R228): what each
names at the push point, and its rows. -/

namespace Sys2Proof.Machine

/-! ## Shared shapes -/

/-- Value number n of an element's operands. -/
def arg (xs : List Nat) (n : Nat) : Nat := (xs[n]?).getD 0

/-- What a vector instruction names: its destination (also read if `acc`) and its sources, pairs under a 64-bit type
(R17, R58). -/
def vecNames (ok : ETy → Bool) (d : Nat) (acc : Bool) (srcs : List Nat) (t : ETy) : Names :=
  let w := wideOf t
  { typeOk := ok t
    aligned := if w then (d :: srcs).map fun r => (r, 2) else []
    pairs := if w then d :: srcs else []
    regs := ((pairOf w d).map fun r => (r, true)) ++ (if acc then (pairOf w d).map fun r => (r, false) else []) ++
      srcs.flatMap fun s => (pairOf w s).map fun r => (r, false) }

/-- What an instruction with a mask destination and vector sources names. -/
def cmpNames (ok : ETy → Bool) (srcs : List Nat) (t : ETy) : Names :=
  let w := wideOf t
  { typeOk := ok t
    aligned := if w then srcs.map fun r => (r, 2) else []
    pairs := if w then srcs else []
    regs := srcs.flatMap fun s => (pairOf w s).map fun r => (r, false) }

/-- An instruction of one or two sources on each sub-element (R219, R220), by its unit and latency. -/
def eachOp (unit : UnitId) (lam : Nat) (d : Nat) (srcs : List Nat) (f : ETy → List Nat → Nat) (v : Env) (e : Entry) :
    BackOp :=
  let t := e.mode.ety
  let w := wideOf t
  laneOp unit lam 1 (srcs.map (pairOf w)) (pairOf w d) [] w Env.active
    (fun _ _ _ xs => split w (packSubs t fun j => f t (xs.map fun x => subOf t x j))) v e

/-- An integer instruction vd, va, vb. -/
def intBack (unit : UnitId) (lam : Nat) (ok : ETy → Bool) (f : ETy → Nat → Nat → Nat) (d a b : Nat) : Back := {
  names := vecNames ok d false [a, b]
  op := eachOp unit lam d [a, b] fun t xs => f t (arg xs 0) (arg xs 1) }

/-- An integer instruction vd, va. -/
def intUnary (ok : ETy → Bool) (f : ETy → Nat → Nat) (d a : Nat) : Back := {
  names := vecNames ok d false [a]
  op := eachOp .ialu 3 d [a] fun t xs => f t (arg xs 0) }

/-- BITS of R220. -/
def isBits (t : ETy) : Bool := decide (t = .b32) || isInt t

/-- An integer sub-element as a number (R195). -/
def intOf (t : ETy) (x : Nat) : Int := if isSigned t then sx (widthOf t) x else (x : Int)

/-! ## Integer and logic (R224) -/

/-- VADD. -/
def backVadd (d a b : Nat) : Back := intBack .ialu 3 isInt (fun _ x y => x + y) d a b
/-- VSUB. -/
def backVsub (d a b : Nat) : Back := intBack .ialu 3 isInt (fun t x y => wrap (widthOf t) ((x : Int) - y)) d a b
/-- VMUL. -/
def backVmul (d a b : Nat) : Back := intBack .imul 5 isInt (fun _ x y => x * y) d a b
/-- VMULH. -/
def backVmulh (d a b : Nat) : Back :=
  intBack .imul 5 isInt (fun t x y => wrap (widthOf t) (intOf t x * intOf t y / (2 ^ widthOf t : Nat))) d a b
/-- VMACC. -/
def backVmacc (d a b : Nat) : Back := {
  names := vecNames isInt d true [a, b]
  op := eachOp .imul 5 d [d, a, b] fun _ xs => arg xs 0 + arg xs 1 * arg xs 2 }
/-- VMIN. -/
def backVmin (d a b : Nat) : Back := intBack .ialu 3 isInt (fun t x y => if intLt t y x then y else x) d a b
/-- VMAX. -/
def backVmax (d a b : Nat) : Back := intBack .ialu 3 isInt (fun t x y => if intLt t x y then y else x) d a b
/-- VAND. -/
def backVand (d a b : Nat) : Back := intBack .ialu 3 isBits (fun _ x y => x &&& y) d a b
/-- VOR. -/
def backVor (d a b : Nat) : Back := intBack .ialu 3 isBits (fun _ x y => x ||| y) d a b
/-- VXOR. -/
def backVxor (d a b : Nat) : Back := intBack .ialu 3 isBits (fun _ x y => x ^^^ y) d a b
/-- VSLL. -/
def backVsll (d a b : Nat) : Back := intBack .ialu 3 isBits (fun t x y => x <<< (y % widthOf t)) d a b
/-- VSRL. -/
def backVsrl (d a b : Nat) : Back := intBack .ialu 3 isBits (fun t x y => x >>> (y % widthOf t)) d a b
/-- VSRA: copies of the top bit enter, whatever the type's signedness. -/
def backVsra (d a b : Nat) : Back :=
  intBack .ialu 3 isBits (fun t x y => wrap (widthOf t) (sx (widthOf t) x / (2 ^ (y % widthOf t) : Nat))) d a b
/-- VABS. -/
def backVabs (d a : Nat) : Back := intUnary isSigned (fun t x => (sx (widthOf t) x).natAbs) d a
/-- VADDSAT. -/
def backVaddsat (d a b : Nat) : Back :=
  intBack .ialu 3 isInt (fun t x y => clip (widthOf t) (isSigned t) (intOf t x + intOf t y)) d a b
/-- VSUBSAT. -/
def backVsubsat (d a b : Nat) : Back :=
  intBack .ialu 3 isInt (fun t x y => clip (widthOf t) (isSigned t) (intOf t x - intOf t y)) d a b
/-- VCLZ. -/
def backVclz (d a : Nat) : Back := intUnary isBits (fun t x => clz (widthOf t) x) d a
/-- VPOPC. -/
def backVpopc (d a : Nat) : Back := intUnary isBits (fun t x => popcount (widthOf t) x) d a

/-- VADD. -/
def execVadd (d a b : Nat) : State → Result := back (backVadd d a b) (.vadd d a b)
/-- VSUB. -/
def execVsub (d a b : Nat) : State → Result := back (backVsub d a b) (.vsub d a b)
/-- VMUL. -/
def execVmul (d a b : Nat) : State → Result := back (backVmul d a b) (.vmul d a b)
/-- VMULH. -/
def execVmulh (d a b : Nat) : State → Result := back (backVmulh d a b) (.vmulh d a b)
/-- VMACC. -/
def execVmacc (d a b : Nat) : State → Result := back (backVmacc d a b) (.vmacc d a b)
/-- VMIN. -/
def execVmin (d a b : Nat) : State → Result := back (backVmin d a b) (.vmin d a b)
/-- VMAX. -/
def execVmax (d a b : Nat) : State → Result := back (backVmax d a b) (.vmax d a b)
/-- VAND. -/
def execVand (d a b : Nat) : State → Result := back (backVand d a b) (.vand d a b)
/-- VOR. -/
def execVor (d a b : Nat) : State → Result := back (backVor d a b) (.vor d a b)
/-- VXOR. -/
def execVxor (d a b : Nat) : State → Result := back (backVxor d a b) (.vxor d a b)
/-- VSLL. -/
def execVsll (d a b : Nat) : State → Result := back (backVsll d a b) (.vsll d a b)
/-- VSRL. -/
def execVsrl (d a b : Nat) : State → Result := back (backVsrl d a b) (.vsrl d a b)
/-- VSRA. -/
def execVsra (d a b : Nat) : State → Result := back (backVsra d a b) (.vsra d a b)
/-- VABS. -/
def execVabs (d a : Nat) : State → Result := back (backVabs d a) (.vabs d a)
/-- VADDSAT. -/
def execVaddsat (d a b : Nat) : State → Result := back (backVaddsat d a b) (.vaddsat d a b)
/-- VSUBSAT. -/
def execVsubsat (d a b : Nat) : State → Result := back (backVsubsat d a b) (.vsubsat d a b)
/-- VCLZ. -/
def execVclz (d a : Nat) : State → Result := back (backVclz d a) (.vclz d a)
/-- VPOPC. -/
def execVpopc (d a : Nat) : State → Result := back (backVpopc d a) (.vpopc d a)

/-! ## Compares to mask (R225) -/

/-- The types of vcmpeq and vcmpne. -/
def cmpEqTypes : ETy → Bool
  | .i32 | .uint32 | .i64 | .uint64 | .b32 => true
  | _ => false

/-- The types of vcmplt, vcmple and vid (R225, R228). -/
def cmpLtTypes : ETy → Bool
  | .i32 | .uint32 | .i64 | .uint64 => true
  | _ => false

/-- A compare of va and vb into mask md. -/
def cmpBack (ok : ETy → Bool) (cond : ETy → Nat → Nat → Bool) (d a b : Nat) : Back := {
  names := cmpNames ok [a, b]
  op := fun v e =>
    let w := wideOf e.mode.ety
    laneMaskOp .ialu 3 1 [pairOf w a, pairOf w b] d [] w (fun _ e _ xs => cond e.mode.ety (arg xs 0) (arg xs 1)) v e }

/-- VCMPEQ. -/
def backVcmpeq (d a b : Nat) : Back := cmpBack cmpEqTypes condEq d a b
/-- VCMPNE. -/
def backVcmpne (d a b : Nat) : Back := cmpBack cmpEqTypes condNe d a b
/-- VCMPLT. -/
def backVcmplt (d a b : Nat) : Back := cmpBack cmpLtTypes condLt d a b
/-- VCMPLE. -/
def backVcmple (d a b : Nat) : Back := cmpBack cmpLtTypes condLe d a b

/-- VCMPEQ. -/
def execVcmpeq (d a b : Nat) : State → Result := back (backVcmpeq d a b) (.vcmpeq d a b)
/-- VCMPNE. -/
def execVcmpne (d a b : Nat) : State → Result := back (backVcmpne d a b) (.vcmpne d a b)
/-- VCMPLT. -/
def execVcmplt (d a b : Nat) : State → Result := back (backVcmplt d a b) (.vcmplt d a b)
/-- VCMPLE. -/
def execVcmple (d a b : Nat) : State → Result := back (backVcmple d a b) (.vcmple d a b)

/-! ## Mask operations (R226, R227) -/

/-- A mask operation md := f of the bits of masks a and b. -/
def maskBack (f : Bool → Bool → Bool) (d a b : Nat) : Back := {
  names := fun _ => {}
  op := fun v e => laneMaskOp .ialu 3 1 [] d [a, b] false (fun v _ i _ => f (v.c.mbit a i) (v.c.mbit b i)) v e }

/-- MAND. -/
def backMand (d a b : Nat) : Back := maskBack (fun x y => x && y) d a b
/-- MOR. -/
def backMor (d a b : Nat) : Back := maskBack (fun x y => x || y) d a b
/-- MXOR. -/
def backMxor (d a b : Nat) : Back := maskBack (fun x y => x != y) d a b
/-- MNOT. -/
def backMnot (d a : Nat) : Back := maskBack (fun x _ => !x) d a a

/-- What mask rows before row k gave, kept in the entry as one number that starts at `start`; after a restore, which
keeps no such number, it is formed from the masks as they stand. -/
def keptOr (e : Entry) (k start : Nat) (step : Nat → Nat → Nat) : Nat :=
  match e.acc with
  | x :: _ => x
  | [] => (List.range k).foldl step start

/-- A mask instruction with a scalar result at t + 3 + n, formed row by row (R227). -/
def maskScalar (d a start : Nat) (step : Env → Entry → Nat → Nat → Nat) : Back := {
  names := fun _ => {}
  op := fun v e =>
    let n := v.c.rows e.vl
    let due := e.t v + 3 + n
    let upTo := fun k => step v e (keptOr e k start (step v e)) k
    { unit := .ialu, rows := n, busy := max n 1, cost := rowCost n 1
      uses := fun dl => if dl < n then [.mask e.mode.guard, .mask a] else []
      issue := fun _ => (if n = 0 then [landScalar v e due d start] else [], [])
      sample := fun k => .ok (if k + 1 = n then [landScalar v e due d (upTo k)] else [], [])
      keep := fun k => some [upTo k] } }

/-- MCOUNT. -/
def backMcount (d a : Nat) : Back := maskScalar d a 0 fun v e acc k => acc + v.countRow e a k
/-- MFIRST: all ones if no bit is set. -/
def backMfirst (d a : Nat) : Back :=
  maskScalar d a (2 ^ 64 - 1) fun v e acc k => if acc = 2 ^ 64 - 1 then (v.firstRow e a k).getD acc else acc

/-- MAND. -/
def execMand (d a b : Nat) : State → Result := back (backMand d a b) (.mand d a b)
/-- MOR. -/
def execMor (d a b : Nat) : State → Result := back (backMor d a b) (.mor d a b)
/-- MXOR. -/
def execMxor (d a b : Nat) : State → Result := back (backMxor d a b) (.mxor d a b)
/-- MNOT. -/
def execMnot (d a : Nat) : State → Result := back (backMnot d a) (.mnot d a)
/-- MCOUNT. -/
def execMcount (d a : Nat) : State → Result := back (backMcount d a) (.mcount d a)
/-- MFIRST. -/
def execMfirst (d a : Nat) : State → Result := back (backMfirst d a) (.mfirst d a)

/-! ## Broadcast, extract, index, select (R228) -/

/-- The scalar operand value number n that an entry carries. -/
def Entry.op (e : Entry) (n : Nat) : Nat := ((e.ops[n]?).getD 0).toNat

/-- VBCAST: the scalar's low bits in every sub-element, those past an SC12's zero (R38), or its 64 bits in a pair. -/
def backVbcast (d a : Nat) : Back := {
  names := fun t => { vecNames isMove d false [] t with sregs := [a] }
  op := fun v e =>
    let t := e.mode.ety
    let w := wideOf t
    laneOp .ialu 2 1 [] (pairOf w d) [] w Env.active
      (fun _ e _ _ => split w (packSubs t fun _ => e.op 0 % 2 ^ writtenBits t)) v e }

/-- The scalar that vextract makes of an element: sign-extended under i32, whole under a 64-bit type, else
zero-extended. -/
def extractVal (t : ETy) (x : Nat) : Nat := if t = .i32 then wrap 64 (sx 32 x) else x

/-- An entry whose every element below VL and from its start index on is active (R228: the guard is ignored). -/
def Entry.unguarded (e : Entry) : Entry := { e with mode := { e.mode with guard := 0, gpol := false } }

/-- VEXTRACT: the row of the element gives the scalar; an index at or past VL gives 0. An element below a start index that a
handler has set is not read, and the scalar keeps its value (R293; log entry 76). -/
def backVextract (d a b : Nat) : Back := {
  names := fun t => {
    typeOk := isMove t
    aligned := if wideOf t then [(a, 2)] else []
    regs := (pairOf (wideOf t) a).map fun r => (r, false)
    pairs := if wideOf t then [a] else []
    sregs := [b] }
  op := fun v e =>
    let t := e.mode.ety
    let w := wideOf t
    let n := v.c.rows e.vl
    let x := e.op 0
    let due := e.t v + 6 + n
    { unit := .slide, rows := n, busy := max n 1, cost := rowCost n 1, reads := pairOf w a
      uses := fun dl => if dl < n then (pairOf w a).map fun r => .vec r dl else []
      check := fun _ => v.streamCheck e (pairOf w a) [] w
      issue := fun _ => (if e.vl ≤ x then [landScalar v e due d 0] else [], [])
      sample := fun k =>
        match v.rowStop e.unguarded k (pairOf w a) [] with
        | some st => .error st
        | Option.none =>
          .ok (if x < e.vl && e.start ≤ x && x / v.c.lanes = k
            then [landScalar v e due d (extractVal t (v.value e (pairOf w a) x))] else [], []) } }

/-- VID: the index of each active element. -/
def backVid (d : Nat) : Back := {
  names := vecNames cmpLtTypes d false []
  op := fun v e =>
    let w := wideOf e.mode.ety
    laneOp .ialu 3 1 [] (pairOf w d) [] w Env.active (fun _ _ i _ => split w i) v e }

/-- VSEL: every element at or above the start index takes va where active, vb elsewhere; through a stream of va pass the
active ones, through one of vb the others, through one of vd all (R156). -/
def backVsel (d a b : Nat) : Back := {
  names := vecNames isMove d false [a, b]
  op := fun v e =>
    let w := wideOf e.mode.ety
    let srcs := [pairOf w a, pairOf w b]
    let takes := fun (_ : Env) (e : Entry) i => decide (e.start ≤ i)
    let f := fun (v : Env) (e : Entry) i xs => split w (if v.c.guard e.mode i then arg xs 0 else arg xs 1)
    let other := fun i => takes v e i && !v.c.guard e.mode i
    { laneOp .ialu 3 1 srcs (pairOf w d) [] w takes f v e with
      sample := fun k =>
        match v.rowStopOn e k (((pairOf w a).map fun r => (r, v.active e)) ++ (pairOf w b).map fun r => (r, other))
            ((pairOf w d).map fun r => (r, takes v e)) [] none with
        | some st => .error st
        | none => .ok (laneLands 3 1 srcs (pairOf w d) takes f v e k, []) } }

/-- VBCAST. -/
def execVbcast (d a : Nat) : State → Result := back (backVbcast d a) (.vbcast d a)
/-- VEXTRACT. -/
def execVextract (d a b : Nat) : State → Result := back (backVextract d a b) (.vextract d a b)
/-- VID. -/
def execVid (d : Nat) : State → Result := back (backVid d) (.vid d)
/-- VSEL. -/
def execVsel (d a b : Nat) : State → Result := back (backVsel d a b) (.vsel d a b)

end Sys2Proof.Machine
end

