-- ==== Sys2Proof/Machine/Permute.lean ====
section
/-! DEFINITION. Cross-row instructions: slides (R229), permute, compress and expand (R230), reductions and scans (R231 to
R234), and vgrant (R235). Their sources are held at issue (R221): row 0 is read before the landings of the issue
cycle, every other row after them. -/

namespace Sys2Proof.Machine

/-! ## Held sources (R221) -/

/-- The state with every landing of this cycle made on the core; in handler mode nothing lands (R87). -/
def Env.after (v : Env) : Env :=
  if (v.c.role v.role).handler then v
  else
    let ls := v.c.landings.filter fun l => l.due == v.now
    { v with s := { v.s with sys := ls.foldl (fun y l => makeLanding y v.core l) v.s.sys } }

/-- What a cross-row instruction reads its sources from: the core before this cycle's landings (row 0) and after them
(every other row), and the guard bits of row 0 that the entry keeps. -/
structure Held where
  now   : Core
  later : Core
  mode  : Mode
  row0  : Option Nat

/-- The held sources of an entry. -/
def Env.held (v : Env) (e : Entry) : Held := { now := v.c, later := v.after.c, mode := e.mode, row0 := e.acc.head? }

/-- Container i of register r. -/
def Held.vec (h : Held) (r i : Nat) : Nat := if i < h.now.lanes then h.now.vec r i else h.later.vec r i

/-- The value of an operand of one register or a pair. -/
def Held.val (h : Held) (regs : List Nat) (i : Nat) : Nat :=
  match regs with
  | [] => 0
  | r :: l => h.vec r i + 4294967296 * h.val l i

/-- The guard of element i. -/
def Held.guard (h : Held) (i : Nat) : Bool :=
  if i < h.now.lanes then (match h.row0 with | some m => m.testBit i | none => h.now.guard h.mode i)
  else h.later.guard h.mode i

/-- The active elements below VL, in ascending order; elements below the start index count (R230). -/
def Held.actives (h : Held) (vl : Nat) : List Nat := (List.range vl).filter h.guard

/-- The guard bits of row 0 that the entry keeps from its first sample on. -/
def Held.keepRow0 (h : Held) (k : Nat) : Option (List Nat) :=
  if k = 0 then some [maskOf h.now.lanes h.guard] else none

/-! ## Slides, permute, compress, expand (R229, R230) -/

/-- A cross-row instruction on SLIDE that lands row by row: which elements of vd it writes, and what each takes. -/
def crossOp (lam step : Nat) (srcs : List (List Nat)) (dsts : List Nat)
    (takes : Held → Entry → Nat → Bool) (f : Held → Entry → Nat → Nat) (v : Env) (e : Entry) : BackOp :=
  let n := v.c.rows e.vl
  let all := srcs.foldr (· ++ ·) []
  let h := v.held e
  { unit := .slide, rows := n, step := step, busy := max (step * n) 1, cost := rowCost n step
    uses := fun d => if d % step = 0 && d / step < n then
      (all.map fun r => .vec r (d / step)) ++ [.mask e.mode.guard] else []
    hold := (step * (n - 1), all, [e.mode.guard])
    check := fun _ => v.boundCheck e (all ++ dsts)
    sample := fun k =>
      if all.any v.ringStale then .error (.fault 8)
      else .ok ((List.range dsts.length).map fun j =>
        landRow v e (e.t v + lam + step * k) ((dsts[j]?).getD 0) k
          (fun i => decide (i < e.vl) && decide (e.start ≤ i) && takes h e i)
          (fun i => f h e i / 4294967296 ^ j % 4294967296) (k + 1 == n), [])
    keep := h.keepRow0 }

/-- What a slide names: vd must not overlap va (R59). -/
def crossNames (ok : ETy → Bool) (d : Nat) (srcs : List (Nat × Bool)) (t : ETy) : Names :=
  let w := wideOf t
  let src := srcs.flatMap fun s => pairOf (w && s.2) s.1
  { typeOk := ok t
    aligned := if w then (d, 2) :: (srcs.filter fun s => s.2).map fun s => (s.1, 2) else []
    overlap := (pairOf w d).any src.contains
    pairs := if w then d :: (srcs.filter fun s => s.2).map (·.1) else []
    regs := ((pairOf w d).map fun r => (r, true)) ++ src.map fun r => (r, false) }

/-- VSLIDEUP. -/
def backVslideup (d a i : Nat) : Back := {
  names := crossNames isMove d [(a, true)]
  op := fun v e =>
    let w := wideOf e.mode.ety
    crossOp 6 1 [pairOf w a] (pairOf w d) (fun h _ x => h.guard x && decide (i ≤ x))
      (fun h _ x => h.val (pairOf w a) (x - i)) v e }

/-- VSLIDEDN. -/
def backVslidedn (d a i : Nat) : Back := {
  names := crossNames isMove d [(a, true)]
  op := fun v e =>
    let w := wideOf e.mode.ety
    crossOp 6 1 [pairOf w a] (pairOf w d) (fun h _ x => h.guard x)
      (fun h e x => if x + i < e.vl then h.val (pairOf w a) (x + i) else 0) v e }

/-- VPERM: vb holds unsigned 32-bit indices and is never a pair. -/
def backVperm (d a b : Nat) : Back := {
  names := crossNames isMove d [(a, true), (b, false)]
  op := fun v e =>
    let w := wideOf e.mode.ety
    crossOp 10 2 [pairOf w a, [b]] (pairOf w d) (fun h _ x => h.guard x)
      (fun h e x => if h.vec b x < e.vl then h.val (pairOf w a) (h.vec b x) else 0) v e }

/-- VCOMPRESS: the guard chooses sources. -/
def backVcompress (d a : Nat) : Back := {
  names := crossNames isMove d [(a, true)]
  op := fun v e =>
    let w := wideOf e.mode.ety
    let act := (v.held e).actives e.vl
    crossOp 10 2 [pairOf w a] (pairOf w d) (fun _ _ x => decide (x < act.length))
      (fun h _ x => h.val (pairOf w a) ((act[x]?).getD 0)) v e }

/-- VEXPAND: the j-th active element takes va element j. -/
def backVexpand (d a : Nat) : Back := {
  names := crossNames isMove d [(a, true)]
  op := fun v e =>
    let w := wideOf e.mode.ety
    let act := (v.held e).actives e.vl
    crossOp 10 2 [pairOf w a] (pairOf w d) (fun h _ x => h.guard x)
      (fun h _ x => h.val (pairOf w a) ((act.findIdx? (· == x)).getD 0)) v e }

/-- VSLIDEUP. -/
def execVslideup (d a i : Nat) : State → Result := back (backVslideup d a i) (.vslideup d a i)
/-- VSLIDEDN. -/
def execVslidedn (d a i : Nat) : State → Result := back (backVslidedn d a i) (.vslidedn d a i)
/-- VPERM. -/
def execVperm (d a b : Nat) : State → Result := back (backVperm d a b) (.vperm d a b)
/-- VCOMPRESS. -/
def execVcompress (d a : Nat) : State → Result := back (backVcompress d a) (.vcompress d a)
/-- VEXPAND. -/
def execVexpand (d a : Nat) : State → Result := back (backVexpand d a) (.vexpand d a)

/-! ## Reductions (R231 to R234) -/

/-- INT and FSUM of R220. -/
def sumTypes (t : ETy) : Bool := isInt t || isFsum t

/-- The types of the index reductions. -/
def idxTypes : ETy → Bool
  | .i32 | .uint32 | .f32 => true
  | _ => false

/-- The sub-elements of some elements in ascending (i, j), each with its draw. -/
def subsWithDraws (t : ETy) (e : Entry) (val : Nat → Nat) (els : List Nat) : List (Draw × Nat) :=
  els.flatMap fun i => (List.range (subsOf t)).map fun j => (e.draw (subsOf t) i j, subOf t (val i) j)

/-- What a reduction names. -/
def redNames (ok : ETy → Bool) (idx unordered : Bool) (d a : Nat) (t : ETy) : Names :=
  let w := wideOf t
  let dst := pairOf (w || idx) d
  { typeOk := ok t
    aligned := (if w || idx then [(d, 2)] else []) ++ if w then [(a, 2)] else []
    overlap := dst.any (pairOf w a).contains
    unordered := unordered
    pairs := if w then [d, a] else []
    regs := (dst.map fun r => (r, true)) ++ (pairOf w a).map fun r => (r, false) }

/-- The landing of a reduction: element 0 of each destination register, which keeps its old contents where a handler has set a
start index at or past VL (R293). -/
def landResult (v : Env) (e : Entry) (due : Nat) (dsts : List Nat) (vals : List Nat) : List Landing :=
  (List.range dsts.length).map fun j =>
    landRow v e due ((dsts[j]?).getD 0) 0 (fun i => i == 0 && (e.start == 0 || decide (e.start < e.vl)))
      (fun _ => (vals[j]?).getD 0) true

/-- A tree reduction on SLIDE: n rows sampled one by one, one row landed at t + 8 + n. -/
def treeOp (d a : Nat) (idx : Bool) (f : Held → Entry → List Nat) (v : Env) (e : Entry) : BackOp :=
  let n := max (v.c.rows e.vl) 1
  let w := wideOf e.mode.ety
  let h := v.held e
  let dsts := pairOf (w || idx) d
  { unit := .slide, rows := n, busy := n, cost := rowCost n 1
    uses := fun dl => if dl < n then ((pairOf w a).map fun r => .vec r dl) ++ [.mask e.mode.guard] else []
    hold := (n - 1, pairOf w a, [e.mode.guard])
    check := fun _ => v.boundCheck e (pairOf w a ++ dsts)
    sample := fun k =>
      if (pairOf w a).any v.ringStale then .error (.fault 8)
      else .ok (if k + 1 = n then landResult v e (e.t v + 8 + n) dsts (f h e) else [], [])
    keep := h.keepRow0 }

/-- The leaf of working lane l of vredsum.u: the ordered sum of its active sub-elements. -/
def laneLeaf (h : Held) (e : Entry) (a l : Nat) : Nat :=
  let t := e.mode.ety
  let els := (h.actives e.vl).filter fun i => i % h.now.lanes == l
  orderedSum t e.mode.rm (subsWithDraws t e (h.val (pairOf (wideOf t) a)) els)

/-- The canonical tree over the lanes' leaves; a node draws for the lowest element of its right operand. -/
def laneTree (h : Held) (e : Entry) (a : Nat) : Nat :=
  let t := e.mode.ety
  let leaves := (List.range h.now.lanes).map fun l => (laneLeaf h e a l, l)
  let op := fun (x y : Nat × Nat) => (addStep t e.mode.rm (e.draw (subsOf t) y.2 0) x.1 y.1, x.2)
  ((canonical op 7 leaves).head?.map Prod.fst).getD 0

/-- VREDSUM_U. -/
def backVredsumU (d a : Nat) : Back := {
  names := redNames sumTypes false true d a
  op := treeOp d a false fun h e => split (wideOf e.mode.ety) (laneTree h e a) }

/-- The minimum or maximum of the active sub-elements, from its identity. -/
def extremeOf (pick : ETy → Nat → Nat → Nat) (start : ETy → Nat) (h : Held) (e : Entry) (a : Nat) : Nat :=
  let t := e.mode.ety
  ((h.actives e.vl).flatMap fun i =>
    (List.range (subsOf t)).map fun j => subOf t (h.val (pairOf (wideOf t) a) i) j).foldl (pick t) (start t)

/-- VREDMIN. -/
def backVredmin (d a : Nat) : Back := {
  names := redNames sumTypes false false d a
  op := treeOp d a false fun h e => split (wideOf e.mode.ety) (extremeOf minOf greatestOf h e a) }

/-- VREDMAX. -/
def backVredmax (d a : Nat) : Back := {
  names := redNames sumTypes false false d a
  op := treeOp d a false fun h e => split (wideOf e.mode.ety) (extremeOf maxOf leastOf h e a) }

/-- The least or greatest active element with its index (R233): among equals the lowest index; a NaN element makes the
result the canonical NaN with the lowest index of one; with none active the identity and index 0xFFFF_FFFF. -/
def extremeIdx (before : Num → Num → Bool) (start : ETy → Nat) (h : Held) (e : Entry) (a : Nat) : List Nat :=
  let t := e.mode.ety
  let act := h.actives e.vl
  let num := fun x => (fmtOf t).val x
  match act.find? fun i => (num (h.vec a i)).isNan with
  | some i => [(fmtOf t).nan, i]
  | none =>
    match act with
    | [] => [start t, 4294967295]
    | i :: l =>
      let best := l.foldl (fun (b : Nat × Nat) i =>
        if before (num (h.vec a i)) (num b.1) then (h.vec a i, i) else b) (h.vec a i, i)
      [best.1, best.2]

/-- VREDMINIDX. -/
def backVredminidx (d a : Nat) : Back := {
  names := redNames idxTypes true false d a
  op := treeOp d a true fun h e => extremeIdx Num.below greatestOf h e a }

/-- VREDMAXIDX. -/
def backVredmaxidx (d a : Nat) : Back := {
  names := redNames idxTypes true false d a
  op := treeOp d a true fun h e => extremeIdx (fun x y => y.below x) leastOf h e a }

/-- What an ordered reduction or scan occupies (R77, R221, R222): one row that starts at t, source row k sampled at
t + k, where its ring tag is compared (R80), SLIDE busy for max(VL, 1) cycles. -/
def orderedOp (a : Nat) (dsts : List Nat) (n : Nat) (land : Unit → List Landing) (v : Env) (e : Entry) : BackOp :=
  let src := pairOf (wideOf e.mode.ety) a
  { unit := .slide, busy := max e.vl 1, cost := fun dl => if dl = 0 then max e.vl 1 else 0
    uses := fun dl => if dl < n then (src.map fun r => .vec r dl) ++ [.mask e.mode.guard] else []
    hold := (n - 1, src, [e.mode.guard])
    check := fun _ => v.boundCheck e (src ++ dsts)
    late := fun dl => if dl < n && src.any v.ringStale then some (.fault 8) else none
    issue := fun _ => (land (), []) }

/-- VREDSUM_O: the ordered sum of the active elements, at t + 4 + VL. With VL = 0 it counts as one row (R77), which it
samples (log entry 75). -/
def backVredsumO (d a : Nat) : Back := {
  names := redNames sumTypes false false d a
  op := fun v e =>
    let t := e.mode.ety
    let w := wideOf t
    let h := v.held e
    orderedOp a (pairOf w d) (max (v.c.rows e.vl) 1) (fun _ =>
      landResult v e (e.t v + 4 + e.vl) (pairOf w d)
        (split w (orderedSum t e.mode.rm (subsWithDraws t e (h.val (pairOf w a)) (h.actives e.vl))))) v e }

/-- VREDSUM_O. -/
def execVredsumO (d a : Nat) : State → Result := back (backVredsumO d a) (.vredsumO d a)
/-- VREDSUM_U. -/
def execVredsumU (d a : Nat) : State → Result := back (backVredsumU d a) (.vredsumU d a)
/-- VREDMIN. -/
def execVredmin (d a : Nat) : State → Result := back (backVredmin d a) (.vredmin d a)
/-- VREDMAX. -/
def execVredmax (d a : Nat) : State → Result := back (backVredmax d a) (.vredmax d a)
/-- VREDMINIDX. -/
def execVredminidx (d a : Nat) : State → Result := back (backVredminidx d a) (.vredminidx d a)
/-- VREDMAXIDX. -/
def execVredmaxidx (d a : Nat) : State → Result := back (backVredmaxidx d a) (.vredmaxidx d a)

/-! ## Scans (R232) -/

/-- The running ordered sums of a list of addends: what each step gives. -/
def runningSums (t : ETy) (rm : RMode) : Nat → List (Draw × Nat) → List Nat
  | _, [] => []
  | s, x :: l => addStep t rm x.1 s x.2 :: runningSums t rm (addStep t rm x.1 s x.2) l

/-- The sums of one element's sub-elements: place number p of the active ones in a list of running sums. -/
def sumsAt (t : ETy) (sums : List Nat) (act : List Nat) (i : Nat) : Nat :=
  match act.findIdx? (· == i) with
  | some p => packSubs t fun j => (sums[p * subsOf t + j]?).getD 0
  | none => 0

/-- VSCAN_O: row k at t + 4 + min(VL, W × (k + 1)). -/
def backVscanO (d a : Nat) : Back := {
  names := redNames sumTypes false false d a
  op := fun v e =>
    let t := e.mode.ety
    let w := wideOf t
    let h := v.held e
    let act := h.actives e.vl
    let n := v.c.rows e.vl
    orderedOp a (pairOf w d) n (fun _ =>
      let sums := runningSums t e.mode.rm (sumStart t) (subsWithDraws t e (h.val (pairOf w a)) act)
      (List.range n).flatMap fun k => (List.range (pairOf w d).length).map fun j =>
        landRow v e (e.t v + 4 + min e.vl (v.c.lanes * (k + 1))) (d + j) k
          (fun i => decide (e.start ≤ i) && act.contains i)
          (fun i => sumsAt t sums act i / 4294967296 ^ j % 4294967296) (k + 1 == n)) v e }

/-- The sums of row k alone: those of its active sub-elements, in order. -/
def rowSums (h : Held) (e : Entry) (a k : Nat) : List Nat × List Nat :=
  let t := e.mode.ety
  let act := (h.actives e.vl).filter fun i => i / h.now.lanes == k
  (act, runningSums t e.mode.rm (sumStart t) (subsWithDraws t e (h.val (pairOf (wideOf t) a)) act))

/-- The carry into row k of vscan.f: C(0) = −0 or 0, C(k + 1) = RoundTo(C(k) + T(k)). -/
def scanCarry (h : Held) (e : Entry) (a : Nat) : Nat → Nat
  | 0 => sumStart e.mode.ety
  | k + 1 =>
    let t := e.mode.ety
    let last := min e.vl (h.now.lanes * (k + 1)) - 1
    addStep t e.mode.rm (e.draw (subsOf t) last (subsOf t - 1)) (scanCarry h e a k)
      ((rowSums h e a k).2.getLast?.getD (sumStart t))

/-- The value that vscan.f gives to element i. -/
def freeScan (h : Held) (e : Entry) (a i : Nat) : Nat :=
  let t := e.mode.ety
  let k := i / h.now.lanes
  let rs := rowSums h e a k
  let c := scanCarry h e a k
  match rs.1.findIdx? (· == i) with
  | some p => packSubs t fun j =>
    addStep t e.mode.rm (e.draw (subsOf t) i j) c ((rs.2[p * subsOf t + j]?).getD 0)
  | none => 0

/-- VSCAN_F: row k at t + 8 + n + k, SLIDE busy for 2n cycles. -/
def backVscanF (d a : Nat) : Back := {
  names := redNames sumTypes false true d a
  op := fun v e =>
    let w := wideOf e.mode.ety
    let n := v.c.rows e.vl
    let op := crossOp (8 + n) 1 [pairOf w a] (pairOf w d) (fun h _ x => h.guard x) (fun h e x => freeScan h e a x) v e
    { op with busy := max (2 * n) 1, cost := fun dl => 2 * rowCost n 1 dl - (if n = 0 then 1 else 0) } }

/-- VSCAN_O. -/
def execVscanO (d a : Nat) : State → Result := back (backVscanO d a) (.vscanO d a)
/-- VSCAN_F. -/
def execVscanF (d a : Nat) : State → Result := back (backVscanF d a) (.vscanF d a)

/-! ## Strip grants (R235) -/

/-- VGRANT: VL, STRIPBASE and the updated task pair at t + 3. -/
def backVgrant (d a : Nat) : Back := {
  names := fun _ => { aligned := [(d, 2), (a, 2)], sregs := [a, a + 1] }
  op := fun v e =>
    let r := e.op 0
    let b := e.op 1
    let g := min r v.c.vlmax
    let due := e.t v + 3
    { unit := .ialu
      issue := fun _ => ([
        landCsr v e due 0x000 g, landCsr v e due 0x005 b,
        landScalar v e due d (r - g), landScalar v e due (d + 1) (b + g)], []) } }

/-- VGRANT. -/
def execVgrant (d a : Nat) : State → Result := back (backVgrant d a) (.vgrant d a)

end Sys2Proof.Machine
end

