-- ==== Sys2Proof/Machine/VectorFp.lean ====
section
/-! DEFINITION. Vector floating-point arithmetic (R237, R238), compares (R239), conversions, packs and unpacks (R240 to
R242), block scales (R243 to R245), binned accumulation (R246) and shift-and-add products (R247). -/

namespace Sys2Proof.Machine

/-! ## Arithmetic (R237) -/

/-- An operation on each sub-element whose result is rounded, by unit, latency and cycles per row. -/
def roundedOp (unit : UnitId) (lam step : Nat) (d : Nat) (srcs : List Nat)
    (f : ETy → RMode → Draw → List Nat → Nat) (v : Env) (e : Entry) : BackOp :=
  let t := e.mode.ety
  let w := wideOf t
  laneOp unit lam step (srcs.map (pairOf w)) (pairOf w d) [] w Env.active
    (fun _ e i xs => split w (packSubs t fun j =>
      f t e.mode.rm (e.draw (subsOf t) i j) (xs.map fun x => subOf t x j))) v e

/-- The latency class of a type: FP arithmetic, or the f64 pair (R77). -/
def fpTime (lam : Nat) (t : ETy) : Nat × Nat := if t = .f64 then (8, 2) else (lam, 1)

/-- The transcendental classes (R77). -/
def xfTime (t : ETy) : Nat × Nat := if t = .f64 then (36, 8) else (20, 4)

/-- An FP instruction whose exact result of its operands is rounded once. -/
def fpBack (unit : UnitId) (time : ETy → Nat × Nat) (ok : ETy → Bool) (acc : Bool) (d : Nat) (srcs : List Nat)
    (f : RMode → List Num → Num) : Back := {
  names := vecNames ok d acc srcs
  op := fun v e =>
    let tm := time e.mode.ety
    roundedOp unit tm.1 tm.2 d (if acc then d :: srcs else srcs)
      (fun t rm dr xs => roundTo (fmtOf t) rm dr (f rm (xs.map (fmtOf t).val))) v e }

/-- Operand n of an FP instruction. -/
def argN (xs : List Num) (n : Nat) : Num := (xs[n]?).getD .nan

/-- VFADD. -/
def backVfadd (d a b : Nat) : Back :=
  fpBack .fpu (fpTime 6) isFsum false d [a, b] fun rm xs => (argN xs 0).add rm (argN xs 1)
/-- VFSUB. -/
def backVfsub (d a b : Nat) : Back :=
  fpBack .fpu (fpTime 6) isFsum false d [a, b] fun rm xs => (argN xs 0).add rm (argN xs 1).neg
/-- VFMUL. -/
def backVfmul (d a b : Nat) : Back :=
  fpBack .fpu (fpTime 6) isFsum false d [a, b] fun _ xs => (argN xs 0).mul (argN xs 1)
/-- VFMA. -/
def backVfma (d a b : Nat) : Back :=
  fpBack .fpu (fpTime 6) isFsum true d [a, b] fun rm xs => ((argN xs 1).mul (argN xs 2)).add rm (argN xs 0)
/-- VFNMA. -/
def backVfnma (d a b : Nat) : Back :=
  fpBack .fpu (fpTime 6) isFsum true d [a, b] fun rm xs => (argN xs 0).add rm ((argN xs 1).mul (argN xs 2)).neg
/-- VFDIV. -/
def backVfdiv (d a b : Nat) : Back :=
  fpBack .xfu xfTime isFsum false d [a, b] fun _ xs => (argN xs 0).div (argN xs 1)
/-- VFSQRT. -/
def backVfsqrt (d a : Nat) : Back := fpBack .xfu xfTime isFsum false d [a] fun _ xs => (argN xs 0).sqrt

/-- The types of vfexp2 and vflog2. -/
def expTypes : ETy → Bool
  | .f32 | .bf16x2 | .f16x2 => true
  | _ => false

/-- VFEXP2. -/
def backVfexp2 (d a : Nat) : Back := fpBack .xfu xfTime expTypes false d [a] fun _ xs => (argN xs 0).exp2
/-- VFLOG2. -/
def backVflog2 (d a : Nat) : Back := fpBack .xfu xfTime expTypes false d [a] fun _ xs => (argN xs 0).log2

/-- VFMIN (R216). -/
def backVfmin (d a b : Nat) : Back := {
  names := vecNames isFsum d false [a, b]
  op := fun v e =>
    let tm := fpTime 6 e.mode.ety
    roundedOp .fpu tm.1 tm.2 d [a, b] (fun t _ _ xs => minOf t (arg xs 0) (arg xs 1)) v e }
/-- VFMAX (R216). -/
def backVfmax (d a b : Nat) : Back := {
  names := vecNames isFsum d false [a, b]
  op := fun v e =>
    let tm := fpTime 6 e.mode.ety
    roundedOp .fpu tm.1 tm.2 d [a, b] (fun t _ _ xs => maxOf t (arg xs 0) (arg xs 1)) v e }

/-- The types of vfabs and vfneg. -/
def signTypes (t : ETy) : Bool := isFsum t || decide (t = .f8ax4) || decide (t = .f8bx4)

/-- A change of the sign bit of each sub-element. -/
def signBack (f : Nat → Nat → Nat) (d a : Nat) : Back := {
  names := vecNames signTypes d false [a]
  op := fun v e =>
    let tm := fpTime 3 e.mode.ety
    roundedOp .fpu tm.1 tm.2 d [a] (fun t _ _ xs => f (2 ^ (widthOf t - 1)) (arg xs 0)) v e }

/-- VFABS. -/
def backVfabs (d a : Nat) : Back := signBack (fun s x => x % s) d a
/-- VFNEG. -/
def backVfneg (d a : Nat) : Back := signBack (fun s x => x ^^^ s) d a

/-- VFADD. -/
def execVfadd (d a b : Nat) : State → Result := back (backVfadd d a b) (.vfadd d a b)
/-- VFSUB. -/
def execVfsub (d a b : Nat) : State → Result := back (backVfsub d a b) (.vfsub d a b)
/-- VFMUL. -/
def execVfmul (d a b : Nat) : State → Result := back (backVfmul d a b) (.vfmul d a b)
/-- VFMA. -/
def execVfma (d a b : Nat) : State → Result := back (backVfma d a b) (.vfma d a b)
/-- VFNMA. -/
def execVfnma (d a b : Nat) : State → Result := back (backVfnma d a b) (.vfnma d a b)
/-- VFMIN. -/
def execVfmin (d a b : Nat) : State → Result := back (backVfmin d a b) (.vfmin d a b)
/-- VFMAX. -/
def execVfmax (d a b : Nat) : State → Result := back (backVfmax d a b) (.vfmax d a b)
/-- VFDIV. -/
def execVfdiv (d a b : Nat) : State → Result := back (backVfdiv d a b) (.vfdiv d a b)
/-- VFSQRT. -/
def execVfsqrt (d a : Nat) : State → Result := back (backVfsqrt d a) (.vfsqrt d a)
/-- VFEXP2. -/
def execVfexp2 (d a : Nat) : State → Result := back (backVfexp2 d a) (.vfexp2 d a)
/-- VFLOG2. -/
def execVflog2 (d a : Nat) : State → Result := back (backVflog2 d a) (.vflog2 d a)
/-- VFABS. -/
def execVfabs (d a : Nat) : State → Result := back (backVfabs d a) (.vfabs d a)
/-- VFNEG. -/
def execVfneg (d a : Nat) : State → Result := back (backVfneg d a) (.vfneg d a)

/-! ## Compares (R239) -/

/-- The types of the FP compares. -/
def fcmpTypes (t : ETy) : Bool := decide (t = .f32) || decide (t = .f64)

/-- An FP compare of va and vb into mask md. -/
def fcmpBack (cond : ETy → Nat → Nat → Bool) (d a b : Nat) : Back := {
  names := cmpNames fcmpTypes [a, b]
  op := fun v e =>
    let tm := fpTime 4 e.mode.ety
    let w := wideOf e.mode.ety
    laneMaskOp .fpu tm.1 tm.2 [pairOf w a, pairOf w b] d [] w
      (fun _ e _ xs => cond e.mode.ety (arg xs 0) (arg xs 1)) v e }

/-- VFCMPEQ. -/
def backVfcmpeq (d a b : Nat) : Back := fcmpBack condFeq d a b
/-- VFCMPLT. -/
def backVfcmplt (d a b : Nat) : Back := fcmpBack condFlt d a b
/-- VFCMPLE. -/
def backVfcmple (d a b : Nat) : Back := fcmpBack condFle d a b
/-- VFCMPUN. -/
def backVfcmpun (d a b : Nat) : Back := fcmpBack condFun d a b

/-- VFCMPEQ. -/
def execVfcmpeq (d a b : Nat) : State → Result := back (backVfcmpeq d a b) (.vfcmpeq d a b)
/-- VFCMPLT. -/
def execVfcmplt (d a b : Nat) : State → Result := back (backVfcmplt d a b) (.vfcmplt d a b)
/-- VFCMPLE. -/
def execVfcmple (d a b : Nat) : State → Result := back (backVfcmple d a b) (.vfcmple d a b)
/-- VFCMPUN. -/
def execVfcmpun (d a b : Nat) : State → Result := back (backVfcmpun d a b) (.vfcmpun d a b)

/-! ## Conversions (R240 to R242) -/

/-- The class of a type by the values one element position holds; b32 and bin have none. -/
def classOf (t : ETy) : Option Nat := if t = .b32 || t = .bin then none else some (subsOf t)

/-- The ratio m of two classes, where it is 2 or 4. -/
def packRatio (dense sparse : ETy) : Option Nat :=
  match classOf dense, classOf sparse with
  | some x, some y => if x = 2 * y then some 2 else if x = 4 * y then some 4 else none
  | _, _ => none

/-- One value converted (R241). -/
def convert (src dst : ETy) (rm : RMode) (dr : Draw) (x : Nat) : Nat :=
  roundTo (fmtOf dst) rm dr ((fmtOf src).val x)

/-- The OPERAND check of bound registers, by list and whether the list is one of a pair, group or four (R236, R167). -/
def boundStop (v : Env) (e : Entry) (srcs dsts : List (Nat × Bool)) : Option Stop :=
  let bad := (srcs.any fun r => match v.stream e r.1 with | some st => st.write || r.2 | Option.none => false) ||
    (dsts.any fun r => match v.stream e r.1 with | some st => !st.write || r.2 | Option.none => false)
  if bad then some (.trap causeOperand 0) else none

/-- What vcvt and vcvtsr name: source and result in one class. -/
def cvtNames (d a : Nat) (src t : ETy) : Names := {
  typeOk := (classOf t).isSome && classOf t == classOf src
  aligned := (if wideOf t then [(d, 2)] else []) ++ if wideOf src then [(a, 2)] else []
  pairs := (if wideOf t then [d] else []) ++ if wideOf src then [a] else []
  regs := ((pairOf (wideOf t) d).map fun r => (r, true)) ++ (pairOf (wideOf src) a).map fun r => (r, false) }

/-- The rows of vcvt and vcvtsr. -/
def cvtOp (lam : Nat) (rm : Entry → RMode) (d a : Nat) (src : ETy) (v : Env) (e : Entry) : BackOp :=
  let t := e.mode.ety
  let ss := pairOf (wideOf src) a
  let ds := pairOf (wideOf t) d
  { laneOp .fpu lam 1 [ss] ds [] false Env.active
      (fun _ e i xs => split (wideOf t) (packSubs t fun j =>
        convert src t (rm e) (e.draw (subsOf t) i j) (subOf src (arg xs 0) j))) v e with
    check := fun _ => boundStop v e (ss.map fun r => (r, wideOf src)) (ds.map fun r => (r, wideOf t)) }

/-- VCVT. -/
def backVcvt (d a s : Nat) : Back := {
  names := cvtNames d a (etyOf s), op := cvtOp 4 (fun e => e.mode.rm) d a (etyOf s) }
/-- VCVTSR: srnd whatever RM holds. -/
def backVcvtsr (d a s : Nat) : Back := {
  names := cvtNames d a (etyOf s), op := cvtOp 5 (fun _ => .srnd) d a (etyOf s) }

/-- The sources S(q) of vpack. -/
def packSrcs (m a b : Nat) : List Nat := if m = 4 then [a, a + 1, b, b + 1] else [a, b]

/-- VPACK. -/
def backVpack (d a b s : Nat) : Back := {
  names := fun t =>
    let src := etyOf s
    let m := (packRatio t src).getD 2
    { typeOk := (packRatio t src).isSome && !wideOf src
      aligned := (if wideOf t then [(d, 2)] else []) ++
        if wideOf src || packRatio t src == some 4 then [(a, 2), (b, 2)] else []
      regs := (d, true) :: (packSrcs m a b).map fun r => (r, false) }
  op := fun v e =>
    let src := etyOf s
    let t := e.mode.ety
    let m := (packRatio t src).getD 2
    let ns := subsOf src
    let ss := packSrcs m a b
    { laneOp .fpu 4 1 (ss.map fun r => [r]) [d] [] false Env.active
        (fun _ e i xs => [packSubs t fun p =>
          convert src t e.mode.rm (e.draw (subsOf t) i p) (subOf src (arg xs (p / ns)) (p % ns))]) v e with
      check := fun _ => boundStop v e (ss.map fun r => (r, m == 4)) [(d, false)] } }

/-- VUNPACK. -/
def backVunpack (d a s : Nat) : Back := {
  names := fun t =>
    let src := etyOf s
    let m := (packRatio src t).getD 2
    { typeOk := (packRatio src t).isSome && !wideOf t
      aligned := (if (packRatio src t).isSome then [(d, m)] else if wideOf t then [(d, 2)] else []) ++
        if wideOf src then [(a, 2)] else []
      regs := ((List.range m).map fun q => (d + q, true)) ++ [(a, false)] }
  op := fun v e =>
    let src := etyOf s
    let t := e.mode.ety
    let m := (packRatio src t).getD 2
    let nr := subsOf t
    let ds := (List.range m).map fun q => d + q
    { laneOp .fpu 4 1 [[a]] ds [] false Env.active
        (fun _ e i xs => (List.range m).map fun q => packSubs t fun j =>
          convert src t e.mode.rm (e.draw (subsOf src) i (q * nr + j)) (subOf src (arg xs 0) (q * nr + j))) v e with
      check := fun _ => boundStop v e [(a, false)] (ds.map fun r => (r, m == 4)) } }

/-- VCVT. -/
def execVcvt (d a s : Nat) : State → Result := back (backVcvt d a s) (.vcvt d a s)
/-- VCVTSR. -/
def execVcvtsr (d a s : Nat) : State → Result := back (backVcvtsr d a s) (.vcvtsr d a s)
/-- VPACK. -/
def execVpack (d a b s : Nat) : State → Result := back (backVpack d a b s) (.vpack d a b s)
/-- VUNPACK. -/
def execVunpack (d a s : Nat) : State → Result := back (backVunpack d a s) (.vunpack d a s)

/-! ## Block scales (R243 to R245) -/

/-- The scale in sub-element j of an sc12x2 container (R202, R38). -/
def scaleOf (x j : Nat) : Num := Fmt.sc12.val (x / 65536 ^ j % 4096)

/-- A partial under a type: i32 or f32. -/
def partialOf (t : ETy) (x : Nat) : Num := (fmtOf t).val x

/-- Scale and accumulate (R243, R264): the exact triple product rounded to f32, then the sum rounded to f32, under one
mode and one draw. -/
def scaleAcc (rm : RMode) (dr : Draw) (p s0 s1 : Num) (acc : Nat) : Nat :=
  let f := fmtOf .f32
  let q := roundTo f rm dr ((p.mul s0).mul s1)
  roundTo f rm dr ((f.val acc).add rm (f.val q))

/-- VSCACC. -/
def backVscacc (d a b : Nat) : Back := {
  names := vecNames (fun t => decide (t = .i32) || decide (t = .f32)) d true [a, b]
  op := fun v e =>
    laneOp .fpu 6 1 [[d], [a], [b]] [d] [] false Env.active
      (fun _ e i xs => [scaleAcc e.mode.rm (e.draw 1 i 0) (partialOf e.mode.ety (arg xs 1))
        (scaleOf (arg xs 2) 0) (scaleOf (arg xs 2) 1) (arg xs 0)]) v e }

/-- Whether a value is infinite. -/
def Num.isInf : Num → Bool
  | .inf _ => true
  | _ => false

/-- The pair of scales of a block's largest magnitude a and a format's largest value g (R244). -/
def scalePair (a g : Num) : Nat × Nat :=
  if a.isNan || a.isInf || g.isNan || g.isInf || g.isZero || g.sign then (0xFFF, 0xFFF)
  else if a.isZero then (0, 0)
  else (roundTo .sc12 .rup .none (a.div g), roundTo .sc12 .rdn .none (g.div a))

/-- VSCEXT. -/
def backVscext (d a b : Nat) : Back := {
  names := vecNames (fun t => decide (t = .f32)) d false [a, b]
  op := fun v e =>
    laneOp .fpu 4 1 [[a], [b]] [d] [] false Env.active
      (fun _ _ _ xs =>
        let p := scalePair ((fmtOf .f32).val (arg xs 0)).abs ((fmtOf .f32).val (arg xs 1))
        [p.1 + 65536 * p.2]) v e }

/-- VSCSET. -/
def backVscset (d a b : Nat) : Back := {
  names := vecNames (fun t => decide (t = .f32)) d false [a, b]
  op := fun v e =>
    laneOp .fpu 4 1 [[a], [b]] [d] [] false Env.active
      (fun _ e i xs => [roundTo (fmtOf .f32) e.mode.rm (e.draw 1 i 0)
        (((fmtOf .f32).val (arg xs 0)).mul (scaleOf (arg xs 1) 1))]) v e }

/-- VSCACC. -/
def execVscacc (d a b : Nat) : State → Result := back (backVscacc d a b) (.vscacc d a b)
/-- VSCEXT. -/
def execVscext (d a b : Nat) : State → Result := back (backVscext d a b) (.vscext d a b)
/-- VSCSET. -/
def execVscset (d a b : Nat) : State → Result := back (backVscset d a b) (.vscset d a b)

/-! ## Binned accumulation (R209, R246) -/

/-- The sixteen registers of a group. -/
def groupOf (g : Nat) : List Nat := (List.range 16).map fun c => g + c

/-- The record in the containers of a group, read as one number. -/
def recordOf (x : Nat) : Binned := Binned.ofWords fun c => x / 4294967296 ^ c % 4294967296

/-- Registers with a direction. -/
def named (write : Bool) (rs : List Nat) : List (Nat × Bool) := rs.map fun r => (r, write)

/-- VBINADD. -/
def backVbinadd (d a b : Nat) : Back := {
  names := fun t => {
    typeOk := decide (t = .f32) || decide (t = .f64)
    aligned := [(d, 16), (a, 16)] ++ if t = .f64 then [(b, 2)] else []
    pairs := if t = .f64 then [b] else []
    regs := named true (groupOf d) ++ named false (groupOf a) ++ named false (pairOf (wideOf t) b) }
  op := fun v e =>
    let t := e.mode.ety
    let w := wideOf t
    let tm := fpTime 6 t
    { laneOp .fpu tm.1 tm.2 [groupOf a, pairOf w b] (groupOf d) [] false Env.active
        (fun _ e _ xs => ((recordOf (arg xs 0)).add ((fmtOf t).val (arg xs 1)) (binBase e.bin)).words) v e with
      check := fun _ => boundStop v e (named true (groupOf a) ++ named w (pairOf w b)) (named true (groupOf d)) } }

/-- VBINMERGE. -/
def backVbinmerge (d a b : Nat) : Back := {
  names := fun t => {
    typeOk := decide (t = .bin)
    aligned := [(d, 16), (a, 16), (b, 16)]
    regs := named true (groupOf d) ++ named false (groupOf a) ++ named false (groupOf b) }
  op := fun v e =>
    { laneOp .fpu 6 1 [groupOf a, groupOf b] (groupOf d) [] false Env.active
        (fun _ _ _ xs => ((recordOf (arg xs 0)).merge (recordOf (arg xs 1))).words) v e with
      check := fun _ => boundStop v e (named true (groupOf a ++ groupOf b)) (named true (groupOf d)) } }

/-- VBINFOLD: of group va alone where vb = va, else of the merge of both. -/
def backVbinfold (d a b : Nat) : Back := {
  names := fun t => {
    typeOk := decide (t = .bin)
    aligned := [(d, 2), (a, 16), (b, 16)]
    pairs := [d]
    regs := named true [d, d + 1] ++ named false (groupOf a) ++ named false (groupOf b) }
  op := fun v e =>
    { laneOp .fpu 8 2 [groupOf a, groupOf b] [d, d + 1] [] false Env.active
        (fun _ e _ xs =>
          let r := recordOf (arg xs 0)
          split true ((if b = a then r else r.merge (recordOf (arg xs 1))).fold (binBase e.bin))) v e with
      check := fun _ => boundStop v e (named true (groupOf a ++ groupOf b)) (named true [d, d + 1]) } }

/-- VBINADD. -/
def execVbinadd (d a b : Nat) : State → Result := back (backVbinadd d a b) (.vbinadd d a b)
/-- VBINFOLD. -/
def execVbinfold (d a b : Nat) : State → Result := back (backVbinfold d a b) (.vbinfold d a b)
/-- VBINMERGE. -/
def execVbinmerge (d a b : Nat) : State → Result := back (backVbinmerge d a b) (.vbinmerge d a b)

/-! ## Shift-and-add products (R247) -/

/-- The dot product of four 8-bit activations with four W2P weights, in units of 2^−6. -/
def w2pDot (t : ETy) (x y : Nat) : Int :=
  ((List.range 4).map fun j => intOf t (subOf t x j) * w2pUnits (y / 256 ^ j % 256)).foldl (· + ·) 0

/-- VW2PMUL. -/
def backVw2pmul (d a b : Nat) : Back := {
  names := vecNames (fun t => decide (t = .i8x4) || decide (t = .uint8x4)) d false [a, b]
  op := fun v e =>
    laneOp .imul 5 1 [[a], [b]] [d] [] false Env.active
      (fun _ e _ xs => [wrap 32 (w2pDot e.mode.ety (arg xs 0) (arg xs 1))]) v e }

/-- VW2PMUL. -/
def execVw2pmul (d a b : Nat) : State → Result := back (backVw2pmul d a b) (.vw2pmul d a b)

end Sys2Proof.Machine
end

