-- ==== Sys2Proof/Machine/Matrix.lean ====
section
/-! DEFINITION. The matrix array: shapes (R251 to R254), operand slots (R255, R256), products (R262, R263, R265 to R267),
scales (R264) and tile access (R268), with the checks of R257 and the cycles of R258. An instruction takes its
shape and what it reads from slots at its issue, and keeps them in its entry; tile rows are sampled later. -/

namespace Sys2Proof.Machine

/-! ## Shapes and classes (R252, R253, R254) -/

/-- The classes of R253. -/
inductive MClass where
  | block | fp | fp64 | table
  deriving DecidableEq, Repr

/-- The five BLOCK types of operand A. -/
def blockA : ETy → Bool
  | .i8x4 | .uint8x4 | .i4x8 | .f8ax4 | .f8bx4 => true
  | _ => false

/-- The class of a pair of types. -/
def mclass (a b : ETy) : Option MClass :=
  if blockA a && (blockA b || decide (b = .w2px4)) && !(decide (a = .f8bx4) && decide (b = .f8bx4)) then some .block
  else if (a = .bf16x2 ∨ a = .f16x2) ∧ b = a then some .fp
  else if a = .f64 ∧ b = .f64 then some .fp64
  else if (a = .i8x4 ∨ a = .uint8x4) ∧ b = .b32 then some .table
  else none

/-- A granted shape: M, N, K, KOFF, the types and the number of planes. -/
structure Shape where
  m    : Nat
  n    : Nat
  k    : Nat
  koff : Nat
  ta   : ETy
  tb   : ETy
  planes : Nat
  deriving DecidableEq, Repr

/-- The shape that TSM, TSN and TSK hold. -/
def Core.shape (c : Core) : Shape := {
  m := c.tsm.toNat % 256, n := c.tsn.toNat % 256, k := field c.tsk.toNat 27 16, koff := field c.tsk.toNat 43 32
  ta := etyOf (field c.tsk.toNat 52 48), tb := etyOf (field c.tsk.toNat 60 56), planes := 1 + field c.tsk.toNat 61 61 }

/-- The class of a shape. -/
def Shape.cls (s : Shape) : Option MClass := mclass s.ta s.tb

/-- The binary point of a type (R253). -/
def fracOf : ETy → Nat
  | .f8ax4 => 9
  | .f8bx4 => 16
  | .w2px4 => 6
  | _ => 0

/-- FRAC of a shape. -/
def Shape.frac (s : Shape) : Nat := fracOf s.ta + fracOf s.tb

/-- Kcap of a class. -/
def kcap : MClass → Nat
  | .block => 32
  | .fp => 128
  | .fp64 => 32
  | .table => 64

/-- The bits of one value in a slot vector. -/
def slotBits (t : ETy) : Nat := widthOf t

/-- Lcap of two types: the lesser capacity of a vector of 2,048 bits, 256 for TABLE (R250, R254). -/
def lcap (cl : MClass) (a b : ETy) : Nat :=
  if cl = .table then 256 else min (2048 / slotBits a) (2048 / slotBits b)

/-- The grant of a request word (R254): M, N, K; none where it is refused. -/
def grantOf (w : Nat) : Option (Nat × Nat × Nat) :=
  if field w 63 62 ≠ 0 ∨ field w 55 53 ≠ 0 ∨ field w 47 44 ≠ 0 ∨ field w 31 28 ≠ 0 then none
  else if 18 < field w 60 56 ∨ 18 < field w 52 48 then none
  else
    let a := etyOf (field w 52 48)
    let b := etyOf (field w 60 56)
    let koff := field w 43 32
    match mclass a b with
    | none => none
    | some cl =>
      let l := lcap cl a b
      if w.testBit 61 && cl != .table then none
      else if l ≤ koff then none
      else if cl = .table ∧ koff % 4 ≠ 0 then none
      else
        let k := min (min (max (field w 27 16) 1) (kcap cl)) (l - koff)
        some (min (max (field w 7 0) 1) 128, min (max (field w 15 8) 1) 128,
          if cl = .table then max 4 (4 * (k / 4)) else k)

/-- The core as matrix instructions that issue in this cycle see its shape: a tshape's landing of this cycle counts
(R251). -/
def Env.shape (v : Env) : Shape :=
  let ls := v.c.landings.filter fun l => l.tgt == .csr && decide (0x47 ≤ l.reg) && decide (l.due ≤ v.now) && !l.done
  (ls.foldl (fun c l => putCsr c l.urole l.reg ((l.data[0]?).getD 0)) v.c).shape

/-- TSHAPE. -/
def backTshape (d a : Nat) : Back := {
  names := fun _ => { sregs := [a] }
  op := fun v e =>
    let w := e.op 0
    { unit := .none, cost := fun _ => 0
      check := fun _ => if (grantOf w).isNone then some (.trap causeOperand 0) else none
      issue := fun _ =>
        match grantOf w with
        | none => ([], [])
        | some (m, n, k) =>
          let due := e.t v + 1
          let tsk := w - field w 27 16 * 65536 - field w 15 0 + k * 65536
          ([landCsr v e due 0x047 m, landCsr v e due 0x048 n, landCsr v e due 0x049 tsk,
            landScalar v e due d (tsk + m + 256 * n)], []) } }

/-- TSHAPE. -/
def execTshape (d a : Nat) : State → Result := back (backTshape d a) (.tshape d a)

/-! ## What an issued instruction keeps -/

/-- What an entry keeps of a shape: M, N and the number of MX cycles C, then values. -/
def keepShape (s : Shape) (c : Nat) (vals : List Nat) : List Nat := s.m :: s.n :: c :: vals

/-- M that an issued entry kept, or of the shape before it issues. -/
def keptM (v : Env) (e : Entry) : Nat := match e.acc with | m :: _ => m | [] => v.shape.m
/-- N. -/
def keptN (v : Env) (e : Entry) : Nat := match e.acc with | _ :: n :: _ => n | _ => v.shape.n
/-- C; before the issue, the given one. -/
def keptC (e : Entry) (c : Nat) : Nat := (e.acc[2]?).getD c
/-- Value number p of those kept. -/
def kept (e : Entry) (p : Nat) : Nat := (e.acc[3 + p]?).getD 0

/-! ## Slots -/

/-- Vector i of slot o as one number (R250). -/
def Core.slotVec (c : Core) (o i : Nat) : Nat := c.slotNat o (256 * i) 256

/-- Position k of a vector of values of a type. -/
def posOf (t : ETy) (vec k : Nat) : Nat := vec / 2 ^ (slotBits t * k) % 2 ^ slotBits t

/-- C of a shape's product instruction (R258); SLICES for mmad. -/
def cyclesOf (s : Shape) (cl : MClass) (slices : Nat) : Nat :=
  match cl with
  | .block => ceilDiv s.k (if s.ta = .i4x8 ∨ s.tb = .i4x8 ∨ s.tb = .w2px4 then 4 else 2)
  | .fp => s.k
  | .fp64 => ceilDiv (s.k * slices * (slices + 1)) 4
  | .table => ceilDiv (s.k * s.planes) 8

/-- The last cycle in which an issued or issuing entry reads or writes a slot (R258), as (slot, cycle). -/
def slotEnds (v : Env) (e : Entry) (t : Nat) : List (Nat × Nat) :=
  let s := v.shape
  let c := keptC e ((s.cls.map fun cl => cyclesOf s cl e.vtype).getD 0)
  match e.instr with
  | .mmabO _ a b | .mmabF _ a b | .mmad _ a b | .mmal _ a b => [(a, t + c - 1), (b, t + c - 1)]
  | .mtbl a b => [(a, t + c - 1), (b, t + c + 8)]
  | .xscacc _ a b _ => [(a, t + keptM v e - 1), (b, t + keptM v e - 1)]
  | .oload a _ => [(a, t + 1 + ceilDiv (field (e.op 0) 39 32) 4)]
  | _ => []

/-- Whether an instruction of the core that has issued, or issues in this cycle, reads or writes a slot in this cycle
or later (R255); in a frozen domain no entry of a queue issues (R87). -/
def Env.slotBusy (v : Env) (o : Nat) : Bool :=
  let now := v.now
  (List.range 3).any fun r =>
    (v.c.role r).queue.any fun e =>
      match e.issued with
      | some t => (slotEnds v e t).any fun p => p.1 == o && decide (now ≤ p.2)
      | none => v.dom.inCycle && e.stamp == now && (slotEnds v e now).any fun p => p.1 == o

/-- The claim state of a slot as the claim changes of this cycle by earlier roles leave it (R255). -/
def Env.claimBefore (v : Env) (o : Nat) : Bool :=
  if (v.c.role v.role).handler then v.c.claimed o
  else (List.range v.role).foldl (fun cl r =>
    match (v.c.role r).queue.find? fun e => e.issued.isNone with
    | some e =>
      if e.stamp ≠ v.now then cl
      else match e.instr with
        | .oclaim a => cl || a == o
        | .orelease a => if a = o && !v.slotBusy o then false else cl
        | _ => cl
    | none => cl) (v.c.claimed o)

/-- OCLAIM. -/
def backOclaim (a : Nat) : Back := {
  names := fun _ => {}
  op := fun v _ => {
    unit := .none, cost := fun _ => 0
    check := fun _ => if v.claimBefore a then some (.trap causeSlot a) else none
    fire := fun y =>
      let c := coreOf y v.core
      setCore y { c with claims := c.claims ||| (1#16 <<< a) } } }

/-- ORELEASE. -/
def backOrelease (a : Nat) : Back := {
  names := fun _ => {}
  op := fun v _ => {
    unit := .none, cost := fun _ => 0
    check := fun _ => if !v.claimBefore a || v.slotBusy a then some (.trap causeSlot a) else none
    fire := fun y =>
      let c := coreOf y v.core
      setCore y { c with claims := c.claims &&& ~~~(1#16 <<< a) } } }

/-- OCLAIM. -/
def execOclaim (a : Nat) : State → Result := back (backOclaim a) (.oclaim a)
/-- ORELEASE. -/
def execOrelease (a : Nat) : State → Result := back (backOrelease a) (.orelease a)

/-! ## Scratchpad checks of oload, aload, astore (R256, R268) -/

/-- The place of n bytes on the issuing core: SPADDR where the address is not one of this core's scratchpad or the bytes
run past its end. -/
def Env.ownBytes (v : Env) (a n : Nat) : Except Stop Nat :=
  match (if 4294967296 ≤ a then none else spAddr v.s.sys v.core a) with
  | some (t, o) =>
    if t ≠ v.core || spadSize v.c.partN < o + n then .error (.trap causeSpaddr 0) else .ok o
  | none => .error (.trap causeSpaddr 0)

/-- POISON at the first 4-byte word of n bytes that lies in a poisoned granule. -/
def Env.poisonAt (v : Env) (o n : Nat) : Option Stop :=
  ((List.range (n / 4)).find? fun w => v.c.poisoned (o + 4 * w)).map fun w => .trap causePoison w

/-- The landing of 256 bytes in a slot vector. -/
def landSlot (v : Env) (e : Entry) (due o vec enable : Nat) (data : List Nat) : Landing :=
  { Landing.of v e due .slot with reg := o, row := vec, enable := enable, data := data }

/-- The 64 containers of 256 bytes of the scratchpad. -/
def Core.spadWords (c : Core) (o : Nat) : List Nat := (List.range 64).map fun w => c.snat (o + 4 * w) 4

/-- Every container enabled. -/
def allOn : Nat := 2 ^ 64 - 1

/-- OLOAD (R256): four vectors each cycle. -/
def backOload (a s : Nat) : Back := {
  names := fun _ => { sregs := [s] }
  op := fun v e =>
    let w := e.op 0
    let first := field w 46 40
    let count := field w 39 32
    let addr := field w 31 0
    let off := field addr 21 0
    let n := ceilDiv count 4
    let bytes := fun q => 256 * min 4 (count - 4 * q)
    { unit := .lsu, rows := n, busy := max n 1, cost := fun d => if d = 0 then max n 1 else 0
      uses := fun d => if d < n then [.spad v.core (banksOf (off + 1024 * d) (bytes d))] else []
      check := fun _ =>
        if field w 63 47 ≠ 0 ∨ count = 0 ∨ 128 < first + count ∨ addr % 256 ≠ 0 then some (.trap causeOperand 0)
        else if !v.c.claimed a then some (.trap causeSlot a)
        else match v.ownBytes addr (256 * count) with
          | .error st => some st
          | .ok o => v.poisonAt o (256 * count)
      sample := fun q => .ok ((List.range (min 4 (count - 4 * q))).map fun p =>
        landSlot v e (e.t v + 2 + q) a (first + 4 * q + p) allOn (v.c.spadWords (off + 1024 * q + 256 * p)), []) } }

/-- OLOAD. -/
def execOload (a s : Nat) : State → Result := back (backOload a s) (.oload a s)

/-! ## Tile rows -/

/-- The landings of row i of tile t: two halves of 256 bytes (R260), the elements below n enabled (R257). -/
def landTileRow (v : Env) (e : Entry) (due t i n : Nat) (f : Nat → Nat) : List Landing :=
  (List.range 2).map fun h =>
    { Landing.of v e due .tile with
      reg := t, row := 2 * i + h
      enable := maskOf 64 fun l => decide (64 * h + l < n)
      data := (List.range 64).map fun l => f (64 * h + l)
      banks := half i }

/-- The landings of row i of a tile pair, from 64-bit values. -/
def landPairRow (v : Env) (e : Entry) (due t i n : Nat) (f : Nat → Nat) : List Landing :=
  landTileRow v e due t i n (fun j => f j % 4294967296) ++
  landTileRow v e due (t + 1) i n fun j => f j / 4294967296 % 4294967296

/-- Element (i, j) of a pair (R249). -/
def Core.pairElem (c : Core) (t i j : Nat) : Nat := c.tile t i j + 4294967296 * c.tile (t + 1) i j

/-- A check of R257: OPERAND, OWNER for an implied second tile (log entry 35), SLOT. -/
def matrixCheck (v : Env) (operand : Bool) (pairs : List Nat) (slots : List Nat) : Option Stop :=
  if operand then some (.trap causeOperand 0)
  else match pairs.find? fun t => decide (nacc v.c.partN ≤ t + 1) with
    | some t => some (.trap causeOwner (64 + t))
    | none => (slots.find? fun o => !v.c.claimed o).map fun o => .trap causeSlot o

/-- Whether a shape may be used by a class. -/
def Shape.serves (s : Shape) (cl : MClass) : Bool := s.cls == some cl && s.k != 0

/-- Slots read in the cycles below c, each with the number of its vectors that are read. -/
def slotReads (c : Nat) (os : List (Nat × Nat)) (d : Nat) : List Use :=
  if d < c then os.map fun o => .slot o.1 false o.2 else []

/-! ## Block and FP products (R262, R263) -/

/-- A value in whole units of 2^−f, if it is finite. -/
def unitsOf (f : Nat) : Num → Option Int
  | .fin s m e _ => some (if s then -((toUnits m e (-(f : Int))).1 : Int) else (toUnits m e (-(f : Int))).1)
  | _ => none

/-- The partial of two vectors under a BLOCK shape; the NaN partial where a value is NaN or infinite. -/
def blockPartial (s : Shape) (va vb : Nat) : Nat :=
  let terms := (List.range s.k).map fun k =>
    match unitsOf (fracOf s.ta) ((fmtOf s.ta).val (posOf s.ta va (s.koff + k))),
          unitsOf (fracOf s.tb) ((fmtOf s.tb).val (posOf s.tb vb (s.koff + k))) with
    | some x, some y => some (x * y)
    | _, _ => none
  if terms.any Option.isNone then 2 ^ 63
  else wrap 64 ((terms.map fun t => t.getD 0).foldl (· + ·) 0)

/-- The exact products of two vectors under an FP shape. -/
def fpProducts (s : Shape) (va vb : Nat) : List Num :=
  (List.range s.k).map fun k =>
    ((fmtOf s.ta).val (posOf s.ta va (s.koff + k))).mul ((fmtOf s.tb).val (posOf s.tb vb (s.koff + k)))

/-- s of R263 for element (i, j): the ordered sum, or the exact sum rounded once. -/
def fpDot (s : Shape) (ordered : Bool) (rm : RMode) (dr : Draw) (va vb : Nat) : Nat :=
  let f := fmtOf .f32
  let ps := fpProducts s va vb
  if ordered then ps.foldl (fun acc p => roundTo f rm dr ((f.val acc).add rm p)) (2 ^ 31)
  else match ps with
    | [] => 2 ^ 31
    | p :: l => roundTo f rm dr (l.foldl (Num.add rm) p)

/-- The draw for element (i, j) of a tile: index 128 × i + j (R263). -/
def tileDraw (e : Entry) (i j : Nat) : Draw := e.draw 1 (128 * i + j) 0

/-- MMAB under either class. -/
def mmabOp (ordered : Bool) (d a b : Nat) (v : Env) (e : Entry) : BackOp :=
  let s := v.shape
  let block := decide (s.cls = some .block)
  let isBlock := match e.acc with | _ :: _ :: _ :: k :: _ => k == 0 | _ => block
  let c := keptC e (if block then cyclesOf s .block 0 else s.k)
  let m := keptM v e
  let n := keptN v e
  let t := e.t v
  let rows := if isBlock then 0 else m
  { unit := .mx, rows := rows, first := c + 2, busy := max c 1, cost := fun dl => if dl = 0 then c else 0
    uses := fun dl => slotReads c [(a, m), (b, n)] dl ++ (if c + 2 ≤ dl ∧ dl < c + 2 + rows then [.tile d (dl - c - 2)] else [])
    check := fun _ =>
      matrixCheck v (!(s.serves .block || s.serves .fp) || (block && d % 2 == 1)) (if block then [d] else []) [a, b]
    issue := fun _ =>
      let vb := (List.range s.n).map fun j => v.c.slotVec b j
      if block then
        ((List.range s.m).flatMap fun i =>
          let va := v.c.slotVec a i
          let row := vb.map fun y => blockPartial s va y
          landPairRow v e (t + c + 8 + i) d i s.n fun j => (row[j]?).getD 0, keepShape s c [0])
      else
        ([], keepShape s c (1 :: (List.range s.m).flatMap fun i =>
          let va := v.c.slotVec a i
          (List.range s.n).map fun j => fpDot s ordered e.mode.rm (tileDraw e i j) va ((vb[j]?).getD 0)))
    sample := fun i => .ok (landTileRow v e (t + c + 8 + i) d i n fun j =>
      let f := fmtOf .f32
      roundTo f e.mode.rm (tileDraw e i j)
        ((f.val (v.c.tile d i j)).add e.mode.rm (f.val (kept e (1 + n * i + j)))), []) }

/-- MMAB_O. -/
def backMmabO (d a b : Nat) : Back := { names := fun _ => { tiles := [d] }, op := mmabOp true d a b }
/-- MMAB_F. -/
def backMmabF (d a b : Nat) : Back := {
  names := fun _ => { tiles := [d], unordered := true }, op := mmabOp false d a b }

/-- MMAB_O. -/
def execMmabO (d a b : Nat) : State → Result := back (backMmabO d a b) (.mmabO d a b)
/-- MMAB_F. -/
def execMmabF (d a b : Nat) : State → Result := back (backMmabF d a b) (.mmabF d a b)

/-! ## Scales (R264) -/

/-- XSCACC. -/
def backXscacc (d a b x : Nat) : Back := {
  names := fun _ => { tiles := [d, x], overlap := d == x }
  op := fun v e =>
    let s := v.shape
    let m := keptM v e
    let n := keptN v e
    let t := e.t v
    { unit := .mx, rows := m, busy := max m 1, cost := fun dl => if dl = 0 then m else 0
      uses := fun dl => slotReads m [(a, 1), (b, 1)] dl ++
        (if dl < m then [.tile d dl, .tile x dl, .tile (x + 1) dl] else [])
      check := fun _ => matrixCheck v (!s.serves .block || x % 2 == 1 || d == x + 1) [x] [a, b]
      issue := fun _ => ([], keepShape s s.m (s.frac ::
        ((List.range s.m).map fun i => v.c.slotNat a (2 * i) 2) ++
        (List.range s.n).map fun j => v.c.slotNat b (2 * j) 2))
      sample := fun i => .ok (landTileRow v e (t + 8 + i) d i n fun j =>
        let f := fmtOf .f32
        let dr := tileDraw e i j
        let p := v.c.pairElem x i j
        let sa := Fmt.sc12.val (kept e (1 + i) % 4096)
        let sb := Fmt.sc12.val (kept e (1 + m + j) % 4096)
        let q := if p = 2 ^ 63 then f.nan
          else roundTo f e.mode.rm dr
            (((Num.fin (decide (sx 64 p < 0)) (sx 64 p).natAbs (-(kept e 0 : Int)) false).mul sa).mul sb)
        roundTo f e.mode.rm dr ((f.val (v.c.tile d i j)).add e.mode.rm (f.val q)), []) } }

/-- XSCACC. -/
def execXscacc (d a b x : Nat) : State → Result := back (backXscacc d a b x) (.xscacc d a b x)

/-! ## Split-precision FP64 (R265) -/

/-- e of a row or column: 1 + the largest exponent of its finite nonzero values; 0 if there is none. -/
def sliceExp (xs : List Num) : Int :=
  let es := xs.filterMap fun x => match x with
    | .fin _ m e _ => if m = 0 then none else some (topExp m e + 1)
    | _ => none
  match es with
  | [] => 0
  | x :: l => l.foldl max x

/-- Slice m of a value scaled by 2^−e: a signed base-128 digit. -/
def sliceOf (e : Int) (m : Nat) : Num → Int
  | .fin s x f _ =>
    let u := (toUnits x (f - e) (-(7 * m : Int))).1 % 128
    if s then -(u : Int) else u
  | _ => 0

/-- D of R265 for a row and a column, rounded to f64; the canonical NaN where either holds a NaN or infinity. -/
def splitDot (slices : Nat) (xs ys : List Num) : Nat :=
  let f := fmtOf .f64
  if (xs ++ ys).any fun x => x.isNan || x.isInf then f.nan
  else
    let ea := sliceExp xs
    let eb := sliceExp ys
    let d : Int := (xs.zip ys).foldl (fun acc p =>
      (List.range slices).foldl (fun acc m => (List.range (slices - m)).foldl (fun acc n =>
        acc + sliceOf ea (m + 1) p.1 * sliceOf eb (n + 1) p.2 * (2 ^ (7 * (slices - 1 - m - n)) : Nat)) acc) acc) 0
    roundTo f .rne .none (.fin (decide (d < 0)) d.natAbs (ea + eb - 7 * (slices + 1)) false)

/-- The values of a slot vector in the granted K range. -/
def vecVals (s : Shape) (t : ETy) (vec : Nat) : List Num :=
  (List.range s.k).map fun k => (fmtOf t).val (posOf t vec (s.koff + k))

/-- MMAD. -/
def backMmad (d a b : Nat) : Back := {
  names := fun _ => { tiles := [d] }
  op := fun v e =>
    let s := v.shape
    let c := keptC e (cyclesOf s .fp64 e.vtype)
    let m := keptM v e
    let n := keptN v e
    let t := e.t v
    { unit := .mx, rows := m, first := c + 2, busy := max c 1, cost := fun dl => if dl = 0 then c else 0
      uses := fun dl => slotReads c [(a, m), (b, n)] dl ++
        (if c + 2 ≤ dl ∧ dl < c + 2 + m then [.tile d (dl - c - 2), .tile (d + 1) (dl - c - 2)] else [])
      check := fun _ => matrixCheck v (!s.serves .fp64 || d % 2 == 1) [d] [a, b]
      issue := fun _ =>
        let ys := (List.range s.n).map fun j => vecVals s .f64 (v.c.slotVec b j)
        ([], keepShape s c ((List.range s.m).flatMap fun i =>
          let xs := vecVals s .f64 (v.c.slotVec a i)
          ys.map fun y => splitDot e.vtype xs y))
      sample := fun i => .ok (landPairRow v e (t + c + 8 + i) d i n fun j =>
        let f := fmtOf .f64
        let x := kept e (n * i + j)
        if x = f.nan then f.nan
        else roundTo f .rne .none ((f.val (v.c.pairElem d i j)).add .rne (f.val x)), []) } }

/-- MMAD. -/
def execMmad (d a b : Nat) : State → Result := back (backMmad d a b) (.mmad d a b)

/-! ## Table lookup (R266, R267) -/

/-- The sum of four activations under the signs of a pattern (R266). -/
def tableSum (s : Shape) (vec g p : Nat) : Int :=
  ((List.range 4).map fun q =>
    let x := intOf s.ta (posOf s.ta vec (s.koff + 4 * g + q))
    if p.testBit q then x else -x).foldl (· + ·) 0

/-- The containers of a table vector: two 16-bit entries in each. -/
def tableWords (s : Shape) (vec : Nat) : List Nat :=
  (List.range 64).map fun w =>
    let entry := fun z : Nat => wrap 16 (tableSum s vec (z / 8) (8 + z % 8))
    entry (2 * w) + 65536 * entry (2 * w + 1)

/-- MTBL: its table goes into slot OB, as R266 says (R25 names oload alone; log entry 87). -/
def backMtbl (a b : Nat) : Back := {
  names := fun _ => {}
  op := fun v e =>
    let s := v.shape
    let c := keptC e (ceilDiv s.k 8)
    { unit := .mx, busy := max c 1, cost := fun dl => if dl = 0 then c else 0
      uses := fun dl => slotReads c [(a, keptM v e)] dl ++ (if c + 1 ≤ dl ∧ dl ≤ c + 8 then [.slot b true 0] else [])
      check := fun _ => matrixCheck v (!s.serves .table || a == b) [] [a, b]
      issue := fun _ => ((List.range s.m).map fun i =>
        landSlot v e (e.t v + c + 8) b i (2 ^ s.k - 1) (tableWords s (v.c.slotVec a i)), keepShape s c []) } }

/-- S of R267 for a table vector and a weight vector, as 32 bits. -/
def lookupSum (s : Shape) (tab w : Nat) : Nat :=
  let plane := fun h : Nat => ((List.range (s.k / 4)).map fun g =>
    let pi := ((List.range 4).map fun q => b01 (w.testBit (1024 * h + s.koff + 4 * g + q)) * 2 ^ q).foldl (· + ·) 0
    let entry := fun p : Nat => sx 16 (tab / 2 ^ (8 * (16 * g + 2 * p)))
    if 8 ≤ pi then entry (pi - 8) else -entry (7 - pi)).foldl (· + ·) (0 : Int)
  wrap 32 (if s.planes = 1 then plane 0 else 2 * plane 1 + plane 0)

/-- MMAL. -/
def backMmal (d a b : Nat) : Back := {
  names := fun _ => { tiles := [d] }
  op := fun v e =>
    let s := v.shape
    let c := keptC e (cyclesOf s .table 0)
    let m := keptM v e
    let n := keptN v e
    { unit := .mx, rows := m, first := c + 2, busy := max c 1, cost := fun dl => if dl = 0 then c else 0
      uses := fun dl => slotReads c [(a, m), (b, n)] dl ++ (if c + 2 ≤ dl ∧ dl < c + 2 + m then [.tile d (dl - c - 2)] else [])
      check := fun _ => matrixCheck v (!s.serves .table) [] [a, b]
      issue := fun _ =>
        let ws := (List.range s.n).map fun j => v.c.slotVec b j
        ([], keepShape s c ((List.range s.m).flatMap fun i =>
          let tab := v.c.slotVec a i
          ws.map fun w => lookupSum s tab w))
      sample := fun i => .ok (landTileRow v e (e.t v + c + 8 + i) d i n fun j =>
        (v.c.tile d i j + kept e (n * i + j)) % 4294967296, []) } }

/-- MTBL. -/
def execMtbl (a b : Nat) : State → Result := back (backMtbl a b) (.mtbl a b)
/-- MMAL. -/
def execMmal (d a b : Nat) : State → Result := back (backMmal d a b) (.mmal d a b)

/-! ## Clearing, loading and storing tiles (R268) -/

/-- ACLEAR: all 128 rows, whatever the shape. -/
def backAclear (d : Nat) : Back := {
  names := fun _ => { tiles := [d] }
  op := fun v e => {
    unit := .none, cost := fun _ => 0
    issue := fun _ => ((List.range 128).flatMap fun i => landTileRow v e (e.t v + 1 + i) d i 128 fun _ => 0, []) } }

/-- The issue check of aload and astore: address, then alignment. -/
def tileAddr (v : Env) (a m : Nat) : Except Stop Nat :=
  match v.ownBytes a (512 * m) with
  | .error st => .error st
  | .ok o => if o % 512 ≠ 0 then .error (.trap causeAlign 0) else .ok o

/-- ALOAD. -/
def backAload (d s : Nat) : Back := {
  names := fun _ => { tiles := [d], sregs := [s] }
  op := fun v e =>
    let m := keptM v e
    let off := field (e.op 0) 21 0
    { unit := .lsu, rows := m, busy := max m 1, cost := fun dl => if dl = 0 then max m 1 else 0
      uses := fun dl => if dl < m then [.spad v.core (banksOf (off + 512 * dl) 512)] else []
      check := fun _ =>
        match tileAddr v (e.op 0) m with
        | .error st => some st
        | .ok o => v.poisonAt o (512 * m)
      issue := fun _ => ([], keepShape v.shape 0 [])
      sample := fun i => .ok (landTileRow v e (e.t v + 6 + i) d i 128 fun j => v.c.snat (off + 512 * i + 4 * j) 4, []) } }

/-- The landing of a 256-byte block of the scratchpad, all bytes enabled. -/
def landBlock (v : Env) (e : Entry) (due addr : Nat) (data : List Nat) : Landing :=
  { Landing.of v e due .spad with
    addr := addr, enable := 2 ^ 256 - 1, data := data, banks := banksOf (field addr 21 0) 256 }

/-- ASTORE. -/
def backAstore (d s : Nat) : Back := {
  names := fun _ => { tiles := [d], sregs := [s] }
  op := fun v e =>
    let m := keptM v e
    let a := e.op 0
    { unit := .lsu, rows := m, busy := max m 1, cost := fun dl => if dl = 0 then max m 1 else 0
      uses := fun dl => if dl < m then [.tile d dl] else []
      check := fun _ => match tileAddr v a m with | .error st => some st | .ok _ => none
      issue := fun _ => ([], keepShape v.shape 0 [])
      sample := fun i => .ok ((List.range 2).map fun h =>
        landBlock v e (e.t v + 4 + i) (a + 512 * i + 256 * h)
          ((List.range 64).map fun l => v.c.tile d i (64 * h + l)), []) } }

/-- ACLEAR. -/
def execAclear (d : Nat) : State → Result := back (backAclear d) (.aclear d)
/-- ALOAD. -/
def execAload (d s : Nat) : State → Result := back (backAload d s) (.aload d s)
/-- ASTORE. -/
def execAstore (d s : Nat) : State → Result := back (backAstore d s) (.astore d s)

end Sys2Proof.Machine
end

