-- ==== Sys2Proof/Machine/Spad.lean ====
section
/-! DEFINITION. Vector access to the scratchpad (R155 to R164) and stream binding (R165 to R167): contiguous, strided,
checked, flagging, indexed and atomic access, with the checks of R156 in their order. -/

namespace Sys2Proof.Machine

/-! ## Elements of a row -/

/-- The element size (R155). -/
def elemSize (t : ETy) : Nat := if wideOf t then 8 else 4

/-- The active elements of row k. -/
def Env.activeElems (v : Env) (e : Entry) (k : Nat) : List Nat := (v.rowElems e k).filter (v.active e)

/-- The 16-byte lines of n bytes at a place. -/
def linesOf (o n : Nat) : List Nat := (List.range (ceilDiv (o % 16 + n) 16)).map fun j => o / 16 + j

/-- The bank-spread condition (R159): the first element that touches a line of a bank of which an earlier element
touches another line (log entry 36). -/
def spreadStop (n : Nat) : List (Nat × Nat) → List Nat → Option Stop
  | [], _ => none
  | (i, o) :: l, seen =>
    if (linesOf o n).any fun a => seen.any fun b => a % 64 == b % 64 && a != b then some (.trap causeOperand i)
    else if (linesOf o n).any fun a => (linesOf o n).any fun b => a % 64 == b % 64 && a != b then
      some (.trap causeOperand i)
    else spreadStop n l (seen ++ linesOf o n)

/-- How an access checks and moves its elements: element size for alignment, bytes per element, whether the
bank-spread condition applies, whether poison traps. -/
structure Access where
  size   : Nat
  bytes  : Nat
  spread : Bool
  poison : Bool

/-- The access of a row's active elements to the scratchpad as its checks see it. -/
def Access.probe (a : Access) (v : Env) (e : Entry) (place : Nat → Option (Nat × Nat)) : Probe :=
  { size := a.size, bytes := a.bytes, poison := a.poison, on := v.active e, place := place }

/-- What the bank-spread condition finds among the active elements of a row (R159). -/
def Access.spreadOf (a : Access) (els : List Nat) (place : Nat → Option (Nat × Nat)) : Option Stop :=
  if a.spread then spreadStop a.bytes (els.filterMap fun i => (place i).map fun p => (i, p.2)) [] else none

/-- The checks of row k of an access (R80, R156, R294): ring tags, the addresses of its elements and of those that pass
through streams, the bank-spread condition, poison. -/
def Access.stop (a : Access) (v : Env) (e : Entry) (k : Nat) (srcs dsts : List Nat)
    (place : Nat → Option (Nat × Nat)) : Option Stop :=
  v.rowStop e k srcs dsts [a.probe v e place] (a.spreadOf (v.activeElems e k) place)

/-- The core that a base names (R27), the issuing one where it names none, and the extra cycles of an access to it
(R78). -/
def baseCore (v : Env) (b : Nat) : Nat := (spTarget v.s.sys v.core (field b 29 0)).getD v.core

/-- The extra cycles of an access to a base's core. -/
def baseDelay (v : Env) (b : Nat) : Nat := crossDelay v.core (baseCore v b)

/-- The banks of a contiguous row: the bytes of every element below VL, whatever the mask (R156). -/
def contigBanks (v : Env) (e : Entry) (b : Nat) (d : Nat → Int) (size k : Nat) : Nat :=
  match v.rowElems e k with
  | [] => 0
  | i :: l => banksOf (((field b 21 0 : Int) + d i) % 4194304).toNat (size * (l.length + 1))

/-- Every bank. -/
def allBanks : Nat := 2 ^ 64 - 1

/-! ## Landings in the scratchpad -/

/-- Bytes to be written: offset and value, in the order of writing. -/
abbrev SpBytes := List (Nat × Byte)

/-- The landings that write bytes on the core a base names: one for each aligned 256-byte block they touch (R135); one
with nothing enabled where there are none. The first carries the banks. -/
def spadLandings (v : Env) (e : Entry) (due b banks : Nat) (ws : SpBytes) : List Landing :=
  let hi := field b 29 22 * 4194304
  let blocks := ws.foldl (fun l w => if l.contains (w.1 / 256) then l else l ++ [w.1 / 256]) ([] : List Nat)
  let blocks := if blocks = [] then [field b 21 0 / 256] else blocks
  (List.range blocks.length).map fun p =>
    let blk := (blocks[p]?).getD 0
    let mine := ws.filter fun w => w.1 / 256 == blk
    let byteAt := fun x : Nat => ((mine.reverse.find? fun w => w.1 % 256 == x).map fun w => w.2.toNat).getD 0
    { Landing.of v e due .spad with
      addr := hi + 256 * blk
      enable := mine.foldl (fun m w => setBit m (w.1 % 256)) 0
      data := (List.range 64).map fun c =>
        byteAt (4 * c) + 256 * byteAt (4 * c + 1) + 65536 * byteAt (4 * c + 2) + 16777216 * byteAt (4 * c + 3)
      banks := if p = 0 then banks else 0 }

/-- The landings of row k of a load: containers of the destination registers from the elements' values. -/
def landLoad (v : Env) (e : Entry) (due : Nat) (dsts : List Nat) (k n : Nat) (vals : List (Nat × Nat)) : List Landing :=
  (List.range dsts.length).map fun j =>
    landRow v e due ((dsts[j]?).getD 0) k (fun i => vals.any fun p => p.1 == i)
      (fun i => ((vals.find? fun p => p.1 == i).map fun p => p.2 / 4294967296 ^ j % 4294967296).getD 0) (k + 1 == n)

/-- The value of n bytes of a core's scratchpad. -/
def readAt (v : Env) (t o n : Nat) : Nat := (coreOf v.s.sys t).snat o n

/-! ## Contiguous and strided access (R157) -/

/-- A load of rows, contiguous or strided: its checks with what its form adds, and what it lands for the elements of a
row it has read. -/
def loadOp (size b : Nat) (strided : Bool) (poison : Bool) (disp : Nat → Int)
    (more : Env → Entry → Nat → Option Stop) (lands : Env → Entry → Nat → Nat → List Elem → List Landing)
    (dsts : List Nat) (v : Env) (e : Entry) : BackOp :=
  let n := v.c.rows e.vl
  let t := baseCore v b
  let x := baseDelay v b
  let banks := fun k => if strided then allBanks else contigBanks v e b disp size k
  let acc : Access := { size := size, bytes := size, spread := strided, poison := poison }
  { unit := .lsu, rows := n, busy := max n 1, cost := rowCost n 1
    uses := fun d => if d < n then .mask e.mode.guard :: (if x = 0 then [.spad t (banks d)] else []) else []
    check := fun _ => v.streamCheck e [] dsts (wideOf e.mode.ety)
    sample := fun k =>
      let place := fun i => elemAddr v.s.sys v.core b (disp i)
      match more v e k with
      | some st => .error st
      | none =>
        match acc.stop v e k [] dsts place with
        | some st => .error st
        | none =>
          let els := (v.activeElems e k).filterMap fun i => (place i).map fun p => (⟨i, p.1, p.2, 0⟩ : Elem)
          if x = 0 then .ok (lands v e k 0 els, [])
          else .ok ([], [{ due := e.t v + k + x / 2, role := v.role, seq := e.seq, k := k, core := t
                           banks := banks k, elems := els }])
    access := fun p => lands v e p.k x p.elems }

/-- The landings of a plain load's row. -/
def plainLands (size : Nat) (dsts : List Nat) (v : Env) (e : Entry) (k x : Nat) (els : List Elem) : List Landing :=
  landLoad v e (e.t v + 6 + k + x) dsts k (v.c.rows e.vl) (els.map fun p => (p.idx, readAt v p.core p.off size))

/-- A store of rows, contiguous or strided: the data register is read at t + k, the bytes written at t + 4 + k. -/
def storeOp (size b : Nat) (strided : Bool) (srcs : List Nat) (disp : Nat → Int) (v : Env) (e : Entry) : BackOp :=
  let n := v.c.rows e.vl
  let x := baseDelay v b
  let acc : Access := { size := size, bytes := size, spread := strided, poison := false }
  { unit := .lsu, rows := n, busy := max n 1, cost := rowCost n 1, reads := srcs
    uses := fun d => if d < n then .mask e.mode.guard :: srcs.map fun r => .vec r d else []
    check := fun _ => v.streamCheck e srcs [] (wideOf e.mode.ety)
    sample := fun k =>
      let place := fun i => elemAddr v.s.sys v.core b (disp i)
      match acc.stop v e k srcs [] place with
      | some st => .error st
      | none =>
        let ws := (v.activeElems e k).flatMap fun i =>
          match place i with
          | some (_, o) => (List.range size).map fun p =>
            (o + p, BitVec.ofNat 8 (v.value e srcs i / 256 ^ p))
          | none => []
        .ok (spadLandings v e (e.t v + 4 + k + x / 2) b
          (if strided then allBanks else contigBanks v e b disp size k) ws, []) }

/-- The displacement of element i of vld and vst. -/
def immDisp (imm size i : Nat) : Int := 4 * sx 13 imm + (size : Int) * i

/-- VLD. -/
def backVld (d a i : Nat) : Back := {
  names := fun t => { vecNames (fun _ => true) d false [] t with sregs := [a] }
  op := fun v e =>
    let size := elemSize e.mode.ety
    let ds := pairOf (wideOf e.mode.ety) d
    loadOp size (e.op 0) false true (immDisp i size) (fun _ _ _ => none) (plainLands size ds) ds v e }

/-- What a store names. -/
def storeNames (d : Nat) (srcs : List Nat) (t : ETy) : Names :=
  let w := wideOf t
  { aligned := if w then [(d, 2)] else []
    pairs := if w then [d] else []
    regs := (pairOf w d).map fun r => (r, false), sregs := srcs }

/-- VST. -/
def backVst (d a i : Nat) : Back := {
  names := storeNames d [a]
  op := fun v e =>
    let size := elemSize e.mode.ety
    storeOp size (e.op 0) false (pairOf (wideOf e.mode.ety) d) (immDisp i size) v e }

/-- The displacement of element i of vlds and vsts: the signed stride times i, exact. -/
def strideDisp (e : Entry) (i : Nat) : Int := sx 64 (e.op 1) * (i : Int)

/-- VLDS. -/
def backVlds (d a b : Nat) : Back := {
  names := fun t => { vecNames (fun _ => true) d false [] t with sregs := [a, b] }
  op := fun v e =>
    let size := elemSize e.mode.ety
    let ds := pairOf (wideOf e.mode.ety) d
    loadOp size (e.op 0) true true (strideDisp e) (fun _ _ _ => none) (plainLands size ds) ds v e }

/-- VSTS. -/
def backVsts (d a b : Nat) : Back := {
  names := storeNames d [a, b]
  op := fun v e =>
    let size := elemSize e.mode.ety
    storeOp size (e.op 0) true (pairOf (wideOf e.mode.ety) d) (strideDisp e) v e }

/-- The stale-tile check of vldt: the tag of every slot that the row's active elements touch (R158). -/
def tagStop (size b want : Nat) (v : Env) (e : Entry) (k : Nat) : Option Stop :=
  if (v.activeElems e k).any fun i =>
      match elemAddr v.s.sys v.core b (immDisp 0 size i) with
      | some (t, o) => (coreOf v.s.sys t).slotTag (o / 4096) != want % 65536 ||
        (coreOf v.s.sys t).slotTag ((o + size - 1) / 4096) != want % 65536
      | none => false
  then some (.fault 8) else none

/-- VLDT. -/
def backVldt (d a b : Nat) : Back := {
  names := fun t => { vecNames (fun _ => true) d false [] t with sregs := [a, b] }
  op := fun v e =>
    let size := elemSize e.mode.ety
    let ds := pairOf (wideOf e.mode.ety) d
    loadOp size (e.op 0) false true (immDisp 0 size) (tagStop size (e.op 0) (e.op 1)) (plainLands size ds) ds v e }

/-! ## Flagging loads (R160) -/

/-- Whether every word an element reads has flag 1 and lies in no poisoned granule. -/
def goodElem (c : Core) (o size : Nat) : Bool :=
  !touchesPoison c o size && (List.range (size / 4)).all fun w => c.flagCause (o / 4 + w) == 0

/-- The cause that FLAGCAUSE gives for an element (R152). -/
def elemCause (c : Core) (o size : Nat) : Nat :=
  if touchesPoison c o size then 2
  else (((List.range (size / 4)).map fun w => c.flagCause (o / 4 + w)).filter fun x => x != 0).getLast?.getD 0

/-- The landings of a flagging load's row: data, mask bits, and FLAGCAUSE in the cycle of the last row. -/
def flagLands (size : Nat) (dsts : List Nat) (m : Nat) (v : Env) (e : Entry) (k x : Nat) (els : List Elem) :
    List Landing :=
  let n := v.c.rows e.vl
  let due := e.t v + 6 + k + x
  let ok := fun p : Elem => goodElem (coreOf v.s.sys p.core) p.off size
  let vals := els.map fun p =>
    (p.idx, if touchesPoison (coreOf v.s.sys p.core) p.off size then 0 else readAt v p.core p.off size)
  let mask := landMask v e due m k (fun i => els.any fun p => p.idx == i)
    (fun i => els.any fun p => p.idx == i && ok p) (k + 1 == n)
  let cause := match (els.filter fun p => !ok p).getLast? with
    | some p => [landCsr v e (e.t v + 6 + (n - 1) + x) 0x007
        (p.idx * 65536 + elemCause (coreOf v.s.sys p.core) p.off size)]
    | none => []
  landLoad v e due dsts k n vals ++ mask :: cause

/-- VLDF. -/
def backVldf (d a b : Nat) : Back := {
  names := fun t => { vecNames (fun _ => true) d false [] t with sregs := [a] }
  op := fun v e =>
    let size := elemSize e.mode.ety
    let ds := pairOf (wideOf e.mode.ety) d
    loadOp size (e.op 0) false false (immDisp 0 size) (fun _ _ _ => none) (flagLands size ds b) ds v e }

/-- VLD. -/
def execVld (d a i : Nat) : State → Result := back (backVld d a i) (.vld d a i)
/-- VST. -/
def execVst (d a i : Nat) : State → Result := back (backVst d a i) (.vst d a i)
/-- VLDS. -/
def execVlds (d a b : Nat) : State → Result := back (backVlds d a b) (.vlds d a b)
/-- VSTS. -/
def execVsts (d a b : Nat) : State → Result := back (backVsts d a b) (.vsts d a b)
/-- VLDT. -/
def execVldt (d a b : Nat) : State → Result := back (backVldt d a b) (.vldt d a b)
/-- VLDF. -/
def execVldf (d a b : Nat) : State → Result := back (backVldf d a b) (.vldf d a b)

/-! ## Indexed access (R161 to R163) -/

/-- An indexed instruction: index, data and guard sampled at t + 4 + k, the scratchpad accessed δ cycles after. An access that is
longer than its alignment, a record's, has its place only where it fits (log entry 57). -/
def indexedOp (acc : Access) (scale idx b delay : Nat) (srcs dsts : List Nat)
    (run : Env → Entry → Nat → Nat → List Elem → List Landing) (v : Env) (e : Entry) : BackOp :=
  let n := v.c.rows e.vl
  let t := baseCore v b
  let x := baseDelay v b
  let w := wideOf e.mode.ety
  { unit := .lsu, rows := n, first := 4, busy := max n 1, cost := rowCost n 1, indexed := true, reads := idx :: srcs
    uses := fun d => if 4 ≤ d ∧ d < 4 + n then
        .vec idx (d - 4) :: .mask e.mode.guard :: (srcs.map fun r => .vec r (d - 4)) ++
        (if delay = 0 && x = 0 then [.spad t allBanks] else [])
      else []
    check := fun _ => boundStop v e ((idx, false) :: named w srcs) (named w dsts)
    sample := fun k =>
      let place := fun i => (elemAddr v.s.sys v.core b ((scale * v.elem e idx i : Nat) : Int)).filter fun p =>
        decide (acc.bytes ≤ acc.size) || decide (p.2 + acc.bytes ≤ spadSize (coreOf v.s.sys p.1).partN)
      match acc.stop v e k (idx :: srcs) dsts place with
      | some st => .error st
      | none =>
        let els := (v.activeElems e k).filterMap fun i =>
          (place i).map fun p => (⟨i, p.1, p.2, v.value e srcs i⟩ : Elem)
        if delay = 0 && x = 0 then .ok (run v e k 0 els, [])
        else .ok ([], [{ due := e.t v + 4 + k + delay + x / 2, role := v.role, seq := e.seq, k := k, core := t
                         banks := allBanks, elems := els }])
    access := fun p => run v e p.k x p.elems }

/-- VGATH: all banks read at t + 4 + k, landed at t + 12 + k. -/
def backVgath (d a b : Nat) : Back := {
  names := fun t =>
    let n := vecNames (fun _ => true) d false [] t
    { n with regs := n.regs ++ [(b, false)], sregs := [a] }
  op := fun v e =>
    let size := elemSize e.mode.ety
    let ds := pairOf (wideOf e.mode.ety) d
    indexedOp { size := size, bytes := size, spread := true, poison := true } size b (e.op 0) 0 [] ds
      (fun v e k x els => landLoad v e (e.t v + 12 + k + x) ds k (v.c.rows e.vl)
        (els.map fun p => (p.idx, readAt v p.core p.off size))) v e }

/-- VSCAT: all banks written at t + 8 + k; the higher element remains. -/
def backVscat (d a b : Nat) : Back := {
  names := fun t =>
    let n := storeNames d [a] t
    { n with regs := n.regs ++ [(b, false)] }
  op := fun v e =>
    let size := elemSize e.mode.ety
    indexedOp { size := size, bytes := size, spread := true, poison := false } size b (e.op 0) 4
      (pairOf (wideOf e.mode.ety) d) []
      (fun v e k x els => spadLandings v e (e.t v + 8 + k + x / 2) (e.op 0) 0
        (els.flatMap fun p => (List.range size).map fun j => (p.off + j, BitVec.ofNat 8 (p.data / 256 ^ j)))) v e }

/-- The bytes of the scratchpad as the rows of this instruction before row k have left them (R162, R163): with the
writes that are still on their way applied. -/
def forwarded (v : Env) (e : Entry) (k x t o n : Nat) : Nat :=
  let first := e.t v + 16 + x / 2
  let mine := if (v.c.role v.role).handler then [] else v.c.landings.filter fun l => l.tgt == .spad && (l.useq == e.seq && l.urole == v.role || l.useq == 2 ^ 64) &&
    decide (first ≤ l.due) && decide (l.due < first + k) && spTarget v.s.sys v.core l.addr == some t
  ofBytes ((List.range n).map fun b =>
    let at_ := o + b
    match mine.reverse.find? fun l => field l.addr 21 0 / 256 == at_ / 256 && l.enable.testBit (at_ % 256) with
    | some l => BitVec.ofNat 8 ((l.data[at_ % 256 / 4]?).getD 0 / 256 ^ (at_ % 4))
    | none => (coreOf v.s.sys t).sbyte at_)

/-- The writes of one row's updates: offset, bytes and new value of each distinct address, in order. -/
def updateBytes (n : Nat) (us : List (Nat × Nat)) : SpBytes :=
  us.flatMap fun u => (List.range n).map fun j => (u.1 + j, BitVec.ofNat 8 (u.2 / 256 ^ j))

/-- The types of vscadd. -/
def scaddTypes : ETy → Bool
  | .i32 | .uint32 | .i64 | .uint64 | .f32 | .f64 | .bf16x2 | .f16x2 | .f8ax4 | .f8bx4 => true
  | _ => false

/-- An addition of values of a type sub-element by sub-element, drawing for an element (R162). -/
def addSubs (e : Entry) (i a b : Nat) : Nat :=
  let t := e.mode.ety
  packSubs t fun j => addStep t e.mode.rm (e.draw (subsOf t) i j) (subOf t a j) (subOf t b j)

/-- The merges of a row: each distinct address with its lowest element and merged sum, in order of first touch. -/
def mergeRow (e : Entry) (els : List Elem) : List (Nat × Nat × Nat) :=
  els.foldl (fun l p =>
    if l.any fun g => g.1 == p.off then
      l.map fun g => if g.1 == p.off then (g.1, g.2.1, addSubs e g.2.1 g.2.2 p.data) else g
    else l ++ [(p.off, p.idx, p.data)]) []

/-- VSCADD. -/
def backVscadd (d a b : Nat) : Back := {
  names := fun t =>
    let n := storeNames d [a] t
    { n with typeOk := scaddTypes t, unordered := isFp t, regs := n.regs ++ [(b, false)] }
  op := fun v e =>
    let size := elemSize e.mode.ety
    indexedOp { size := size, bytes := size, spread := true, poison := true } size b (e.op 0) 4
      (pairOf (wideOf e.mode.ety) d) []
      (fun v e k x els => spadLandings v e (e.t v + 16 + k + x / 2) (e.op 0) allBanks
        (updateBytes size ((mergeRow e els).map fun g =>
          (g.1, addSubs e g.2.1 (forwarded v e k x (baseCore v (e.op 0)) g.1 size) g.2.2)))) v e }

/-- The records that a row of vscadd.bin updates, with their new words. -/
def binRow (e : Entry) (old : Nat → Nat) (els : List Elem) : List (Nat × Nat) :=
  let t := e.mode.ety
  els.foldl (fun l p =>
    let cur := ((l.find? fun u => u.1 == p.off).map Prod.snd).getD (old p.off)
    let new := ofBytes (((recordOf cur).add ((fmtOf t).val p.data) (binBase e.bin)).words.flatMap (toBytes 4))
    if l.any fun u => u.1 == p.off then l.map fun u => if u.1 == p.off then (u.1, new) else u
    else l ++ [(p.off, new)]) []

/-- VSCADD_BIN. -/
def backVscaddBin (d a b : Nat) : Back := {
  names := fun t =>
    let n := storeNames d [a] t
    { n with typeOk := fcmpTypes t, regs := n.regs ++ [(b, false)] }
  op := fun v e =>
    let size := elemSize e.mode.ety
    indexedOp { size := size, bytes := 64, spread := true, poison := true } 64 b (e.op 0) 4
      (pairOf (wideOf e.mode.ety) d) []
      (fun v e k x els => spadLandings v e (e.t v + 16 + k + x / 2) (e.op 0) allBanks
        (updateBytes 64 (binRow e (fun o => forwarded v e k x (baseCore v (e.op 0)) o 64) els))) v e }

/-- The operation of vamo by its code (R54, R163). -/
def amoOf (t : ETy) (op old x : Nat) : Nat :=
  if op = 0 then (old + x) % 4294967296
  else if op = 1 then (if intLt t x old then x else old)
  else if op = 2 then (if intLt t old x then x else old)
  else if op = 3 then x
  else if op = 4 then old &&& x
  else if op = 5 then old ||| x
  else old ^^^ x

/-- One row of vamo: each element in order, with what it left and the old value it took. -/
def amoRow (t : ETy) (op : Nat) (old : Nat → Nat) (els : List Elem) : List (Nat × Nat) × List (Nat × Nat) :=
  els.foldl (fun (s : List (Nat × Nat) × List (Nat × Nat)) p =>
    let cur := ((s.1.find? fun u => u.1 == p.off).map Prod.snd).getD (old p.off)
    let new := amoOf t op cur p.data
    (if s.1.any fun u => u.1 == p.off then s.1.map fun u => if u.1 == p.off then (u.1, new) else u
      else s.1 ++ [(p.off, new)], s.2 ++ [(p.idx, cur)])) ([], [])

/-- VAMO. -/
def backVamo (d a b o : Nat) : Back := {
  names := fun t => {
    typeOk := decide (t = .i32) || decide (t = .uint32)
    aligned := if wideOf t then [(d, 2)] else []
    regs := [(d, true), (d, false), (b, false)], sregs := [a] }
  op := fun v e =>
    indexedOp { size := 4, bytes := 4, spread := true, poison := true } 4 b (e.op 0) 4 [d] [d]
      (fun v e k x els =>
        let r := amoRow e.mode.ety o (fun off => forwarded v e k x (baseCore v (e.op 0)) off 4) els
        spadLandings v e (e.t v + 16 + k + x / 2) (e.op 0) allBanks (updateBytes 4 r.1) ++
        landLoad v e (e.t v + 16 + k + x) [d] k (v.c.rows e.vl) r.2) v e }

/-- VGATH. -/
def execVgath (d a b : Nat) : State → Result := back (backVgath d a b) (.vgath d a b)
/-- VSCAT. -/
def execVscat (d a b : Nat) : State → Result := back (backVscat d a b) (.vscat d a b)
/-- VSCADD. -/
def execVscadd (d a b : Nat) : State → Result := back (backVscadd d a b) (.vscadd d a b)
/-- VSCADD_BIN. -/
def execVscaddBin (d a b : Nat) : State → Result := back (backVscaddBin d a b) (.vscaddBin d a b)
/-- VAMO. -/
def execVamo (d a b o : Nat) : State → Result := back (backVamo d a b o) (.vamo d a b o)

/-! ## Masks (R164) -/

/-- The place of the 64 bytes of a mask or a pattern: SPADDR, then ALIGN. -/
def place64 (v : Env) (a : Nat) : Except Stop (Nat × Nat) :=
  match (if 4294967296 ≤ a then none else spAddr v.s.sys v.core a) with
  | none => .error (.trap causeSpaddr 0)
  | some (t, o) => if o % 64 ≠ 0 then .error (.trap causeAlign 0) else .ok (t, o)

/-- The landings of a mask register from 512 bits, those from the start index on. -/
def landWholeMask (v : Env) (e : Entry) (due m : Nat) (bits : Nat) : List Landing :=
  (List.range 8).map fun k => landMask v e due m k (fun i => decide (e.start ≤ i)) bits.testBit (k == 7)

/-- What an unguarded mask access finds at its address (R164): SPADDR, ALIGN and, for a read, POISON, reported for element
0 and so not made once the start index is past it (R293; log entry 76). -/
def maskPlace (v : Env) (e : Entry) (read : Bool) : Except Stop (Option (Nat × Nat)) :=
  if 0 < e.start then .ok (if e.vl ≤ e.start then none else match place64 v (e.op 0) with | .ok p => some p | .error _ => none)
  else
    match place64 v (e.op 0) with
    | .error st => .error st
    | .ok (t, o) => if read && (coreOf v.s.sys t).poisoned o then .error (.trap causePoison 0) else .ok (some (t, o))

/-- MLD: bits below VL from memory, zero at and past it; those below the start index keep their values. -/
def backMld (d a : Nat) : Back := {
  names := fun _ => { sregs := [a] }
  op := fun v e =>
    let b := e.op 0
    let t := baseCore v b
    let x := baseDelay v b
    let lands := fun (v : Env) (els : List Elem) => els.flatMap fun p =>
      landWholeMask v e (e.t v + 6 + x) d (readAt v p.core p.off 64 % 2 ^ e.vl)
    { unit := .lsu, rows := 1
      uses := fun dl => if dl = 0 && x = 0 then [.spad t (banksOf (field b 21 0) 64)] else []
      sample := fun _ =>
        match maskPlace v e true with
        | .error st => .error st
        | .ok none => .ok ([], [])
        | .ok (some (t, o)) =>
          if x = 0 then .ok (lands v [⟨0, t, o, 0⟩], [])
          else .ok ([], [{ due := e.t v + x / 2, role := v.role, seq := e.seq, k := 0, core := t
                           banks := banksOf o 64, elems := [⟨0, t, o, 0⟩] }])
      access := fun p => lands v p.elems } }

/-- MST: the bytes that hold bits below VL, from the start index on; a bit below it in the first of them is stored as it
stands. -/
def backMst (d a : Nat) : Back := {
  names := fun _ => { sregs := [a] }
  op := fun v e =>
    let b := e.op 0
    let x := baseDelay v b
    { unit := .lsu, rows := 1
      uses := fun dl => if dl = 0 then [.mask d] else []
      sample := fun _ =>
        match maskPlace v e false with
        | .error st => .error st
        | .ok none => .ok ([], [])
        | .ok (some (t, o)) =>
          .ok (spadLandings v e (e.t v + 4 + x / 2) b (banksOf o 64)
            (((List.range (ceilDiv e.vl 8)).filter fun p => decide (e.start < 8 * p + 8)).map fun p => (o + p, BitVec.ofNat 8
              (maskOf 8 fun i => if 8 * p + i < e.start then (readAt v t (o + p) 1).testBit i
                else decide (8 * p + i < e.vl) && v.c.mbit d (8 * p + i)))), []) } }

/-- MLD. -/
def execMld (d a : Nat) : State → Result := back (backMld d a) (.mld d a)
/-- MST. -/
def execMst (d a : Nat) : State → Result := back (backMst d a) (.mst d a)

/-! ## Streams (R165, R166) -/

/-- The pattern record at an offset, if it obeys R165. BASE may name no scratchpad address: the checks of R155 meet that when an
element of a chunk is accessed (log entry 90). -/
def patternAt (c : Core) (o reg a since : Nat) : Option Stream :=
  let w := fun i => c.snat (o + i) 4
  let counts := [w 0x08, w 0x0C, w 0x10]
  let strides := [sx 32 (w 0x18), sx 32 (w 0x1C), sx 32 (w 0x20)]
  let curs := [w 0x28, w 0x2C, w 0x30]
  if 1 < c.snat (o + 4) 1 || c.snat (o + 5) 3 != 0 || w 0x14 != 0 || w 0x24 != 0 || 1 < c.snat (o + 0x34) 1 ||
      c.snat (o + 0x35) 11 != 0 then none
  else if counts.any (fun x => x == 0 || decide (16777216 < x)) || strides.any (fun x => x % 4 != 0) ||
      (curs.zip counts).any (fun p => decide (p.2 ≤ p.1)) then none
  else some {
    sid := 0, reg := reg, recOff := a, base := w 0, write := c.snat (o + 4) 1 == 1, count := counts, stride := strides
    cur := curs, ended := c.snat (o + 0x34) 1 == 1, since := since, till := Option.none }

/-- An ended binding that no instruction uses any more: it covers no cycle from now on, and none in which an entry still in
a queue issued. -/
def Core.disused (c : Core) (now : Nat) (st : Stream) : Bool :=
  (match st.till with | some u => decide (u ≤ now) | none => false) &&
  !((List.range 3).any fun r => (c.role r).queue.any fun e => (e.issued.map st.covers).getD false)

/-- The core with a register's live binding ended for instructions that issue in cycle t or later. A binding that ended
before stays while an instruction issued earlier uses it (R166). The live one is the one bound last: until a rebinding counts,
the one before it goes on, and a vunbind in that time ends the new one alone (log entry 90). -/
def Core.unbind (c : Core) (r now t : Nat) : Core :=
  { c with streams := (c.streams.filter fun st => !c.disused now st).map fun st =>
      if st.reg == r && st.till.isNone then { st with till := some t } else st }

/-- VBIND: the pattern is read at t, and vd is bound from t + 6 on; in handler mode for the instructions after it. -/
def backVbind (d a : Nat) : Back := {
  names := fun _ => { sregs := [a] }
  op := fun v e =>
    let b := e.op 0
    let since := if (v.c.role v.role).handler then e.t v else e.t v + 6
    { unit := .lsu
      uses := fun dl => if dl = 0 then [.spad (baseCore v b) (banksOf (field b 21 0) 64)] else []
      check := fun _ =>
        match place64 v b with
        | .error st => some st
        | .ok (t, o) =>
          if (coreOf v.s.sys t).poisoned o then some (.trap causePoison 0)
          else if isRing v.c.partN d || ownerOf v.c.partN d != v.role || (patternAt (coreOf v.s.sys t) o d b since).isNone
          then some (.trap causeOperand 0) else none
      fire := fun y =>
        match place64 v b with
        | .error _ => y
        | .ok (t, o) =>
          match patternAt (coreOf y t) o d b since with
          | none => y
          | some st =>
            let c := (coreOf y v.core).unbind d (e.t v) since
            setCore y { c with streams := c.streams ++ [{ st with sid := c.nextLid }], nextLid := c.nextLid + 1 } } }

/-- VUNBIND: the cursor, as it stands at t (log entry 90), is written back at t + 4, and the binding ends for instructions that
issue after t. -/
def backVunbind (d : Nat) : Back := {
  names := fun _ => { regs := [(d, true)] }
  op := fun v e =>
    let live := v.c.streams.find? fun st => st.reg == d && st.till.isNone
    { unit := .lsu
      issue := fun _ =>
        match live with
        | none => ([], [])
        | some st =>
          let o := field st.recOff 21 0
          let bytes := (st.cur.flatMap (toBytes 4)) ++ [BitVec.ofNat 8 (b01 st.ended)]
          (spadLandings v e (e.t v + 4 + baseDelay v st.recOff / 2) st.recOff (banksOf (o + 0x28) 13)
            (((List.range 13).zip bytes).map fun p => (o + 0x28 + p.1, p.2)), [])
      fire := fun y => setCore y ((coreOf y v.core).unbind d (e.t v) (if (v.c.role v.role).handler then e.t v else e.t v + 1)) } }

/-- VBIND. -/
def execVbind (d a : Nat) : State → Result := back (backVbind d a) (.vbind d a)
/-- VUNBIND. -/
def execVunbind (d : Nat) : State → Result := back (backVunbind d) (.vunbind d)

end Sys2Proof.Machine
end

