-- ==== Sys2Proof/Machine/Sync.lean ====
section
/-! DEFINITION. The instructions that talk to homes: barriers, locks, queues, counters, launches (R296 to R313),
collectives (R331), and the fences (R177, R189, R314). Each occupies its unit in its issue cycle; its event goes to the
home then, and its answer lands λ cycles later (R275, R299). -/

namespace Sys2Proof.Machine

/-! ## What is under way on a core (R177) -/

/-- Some host access of a virtual device waits for a fence (R177). -/
def hostDeferred (y : Sys) (vk : Nat) : Bool :=
  y.sched.any fun e => match e.2.1 with
    | .hostWrite fn _ _ _ _ => e.2.2.aux == 1 && y.mgmt.chip * 32 + fn == vk
    | .hostRead fn _ _ _ => e.2.2.aux == 1 && y.mgmt.chip * 32 + fn == vk
    | _ => false

/-- A contribution of a core to a collective generation that is not over: its coll is on the way, registered, or its
walk runs (R177, R324). -/
def collPending (y : Sys) (core : Nat) (c : Nat × Nat × Nat) : Bool :=
  (y.sched.any fun e => e.2.1 == .homeColl && e.2.2.core == core && e.2.2.obj == c.1 && e.2.2.gen == c.2.1) ||
  (match objOf y c.1 with
    | some o => match o.body with
      | .coll k => (o.gen == c.2.1 && inSet k.arrived c.2.2) ||
          (k.walks.any fun w => w.gen == c.2.1 && !inSet w.absent c.2.2)
      | _ => false
    | none => false)

/-- An entry of a wait list that still has something in flight. -/
def entPending (y : Sys) (core : Nat) (p : Nat × Nat) : Bool :=
  let c := coreOf y core
  if p.2 = 2 ^ 64 + 1 then (match (c.role p.1).sacc with | some a => !a.isLoad | none => false)
  else inFlight c p.1 p.2 || (c.role p.1).queue.any fun e => e.seq == p.2

/-- The timed accesses of a core under way: its issued entries, replayed landings, scalar stores. -/
def timedOut (y : Sys) (core : Nat) : List (Nat × Nat) :=
  let c := coreOf y core
  (List.range 3).flatMap fun r =>
    ((c.role r).queue.filter fun e => e.issued.isSome).map (fun e => (r, e.seq)) ++
    (if inFlight c r (2 ^ 64) then [(r, 2 ^ 64)] else []) ++
    (if entPending y core (r, 2 ^ 64 + 1) then [(r, 2 ^ 64 + 1)] else [])

/-- The transfers of a core issued before a tick and not visible. -/
def xfersOut (y : Sys) (core g : Nat) : List Nat :=
  (y.xfers.filter fun x => x.core == core && x.stage < 3 && x.kind != 5 && x.issue < g).map Xfer.xid

/-- The collective generations of a core that are not over. -/
def collsOut (y : Sys) (core : Nat) : List (Nat × Nat × Nat) := ((coreOf y core).colls.map CollRef.key).filter (collPending y core)

/-- Whether what a wait names is over. In a frozen domain the held effects of entries count as over where the reader
takes them into account (log entry 38). -/
def waitMet (y : Sys) (core : Nat) (frozenOk : Bool) (w : Wait) : Bool :=
  ((frozenOk && (domOfCore y core).st != .run) || !w.ents.any (entPending y core)) &&
  !(w.xids.any fun x => y.xfers.any fun t => t.xid == x && t.stage < 3) &&
  !w.colls.any (collPending y core) && !(w.host && hostDeferred y (vdKeyOf y core))

/-- Two waits as one. -/
def Wait.and (a b : Wait) : Wait :=
  { ents := a.ents ++ b.ents, xids := a.xids ++ b.xids, colls := a.colls ++ b.colls, host := a.host || b.host }

/-- A wait without what is over already. -/
def pruneWait (y : Sys) (core : Nat) (w : Wait) : Wait :=
  { w with
    ents := w.ents.filter (entPending y core)
    xids := w.xids.filter fun x => y.xfers.any fun t => t.xid == x && t.stage < 3
    colls := w.colls.filter (collPending y core) }

/-- Make later accesses of the asynchronous classes of a set (bit 1 XFR, bit 3 COL, bit 4 HST) wait. -/
def fenceTo (y : Sys) (core dst : Nat) (w : Wait) : Sys :=
  let c := coreOf y core
  setCore y { c with
    toXfr := if dst.testBit 1 then (pruneWait y core c.toXfr).and w else c.toXfr
    toCol := if dst.testBit 3 then (pruneWait y core c.toCol).and w else c.toCol
    toHst := if dst.testBit 4 then (pruneWait y core c.toHst).and w else c.toHst }

/-- What the classes of a From set have under way (bit 0 VEC, bit 2 MAT, bit 1 XFR, bit 3 COL, bit 4 HST). -/
def fenceFrom (y : Sys) (core g frm : Nat) : Wait := {
  ents := if frm.testBit 0 || frm.testBit 2 then timedOut y core else []
  xids := if frm.testBit 1 then xfersOut y core g else []
  colls := if frm.testBit 3 then collsOut y core else []
  host := frm.testBit 4 && hostDeferred y (vdKeyOf y core) }

/-- Whether the asynchronous From accesses of a fence are visible. -/
def fenceClear (y : Sys) (core g frm : Nat) : Bool :=
  waitMet y core false { fenceFrom y core g frm with ents := [] }

/-- XFENCE (R177). -/
def backXfence (f t : Nat) : Back := {
  names := fun _ => {}
  op := fun v _ =>
    let late := (t.testBit 0 || t.testBit 2) && !fenceClear v.s.sys v.core v.s.gtc f
    { unit := .xu
      ready := fun _ => !late
      check := fun _ => if late then some (.fault 4) else none
      fire := fun y => fenceTo y v.core t (fenceFrom y v.core v.s.gtc f) } }

/-- XFENCE. -/
def execXfence (f t : Nat) : State → Result := back (backXfence f t) (.xfence f t)

/-- The instructions whose rows access the scratchpad at places of their own (R155 to R164, R266 to R269). -/
def spadBack : Instr → Option Back
  | .vld d a i => some (backVld d a i)
  | .vst d a i => some (backVst d a i)
  | .vlds d a b => some (backVlds d a b)
  | .vsts d a b => some (backVsts d a b)
  | .vldt d a b => some (backVldt d a b)
  | .vldf d a b => some (backVldf d a b)
  | .vgath d a b => some (backVgath d a b)
  | .vscat d a b => some (backVscat d a b)
  | .vscadd d a b => some (backVscadd d a b)
  | .vscaddBin d a b => some (backVscaddBin d a b)
  | .vamo d a b o => some (backVamo d a b o)
  | .mld d a => some (backMld d a)
  | .mst d a => some (backMst d a)
  | .oload a s => some (backOload a s)
  | .aload d s => some (backAload d s)
  | .astore d s => some (backAstore d s)
  | _ => none

/-- A scalar access of the core that was executed before this cycle has still to be made; in a frozen domain one of a role in
handler mode (R115, R189; the others are held, log entry 38). -/
def scalarOut (v : Env) : Bool :=
  (List.range 3).any fun r =>
    match (v.c.role r).sacc with
    | none => false
    | some a =>
      if v.dom.st = .run then decide (a.after < v.dom.ttc v.s.gtc + 1 + crossDelay v.core a.core / 2) else (v.c.role r).handler

/-- Whether some scratchpad access of the core that was issued before this cycle is still to be made by the back end: a read that
a row waits for, a write that has not landed, a row not sampled (one through a bound stream is found with the cycle's causes). -/
def spadOut (v : Env) : Bool :=
  (v.c.pends.any fun p => !p.done) ||
  (v.c.landings.any fun l => (l.tgt == .spad || l.strm) && l.enable != 0) ||
  (List.range 3).any fun r =>
    (v.c.role r).queue.any fun e => e.issued.isSome &&
      (match spadBack e.instr with
        | some b => decide (e.prog < (b.op ⟨v.s, v.core, r⟩ e).rows)
        | none => false)

/-- SFENCE (R189, R314): the early wait when a memory access of the core is not over (in a frozen domain the held
ones are not waited for, log entry 38); then every class is ordered. -/
def backSfence (_s : Nat) : Back := {
  names := fun _ => {}
  op := fun v _ =>
    let late := !fenceClear v.s.sys v.core v.s.gtc 26 || scalarOut v || (v.dom.st == .run && spadOut v)
    { unit := .sync
      ready := fun _ => !late
      check := fun _ => if late then some (.fault 4) else none
      fire := fun y => fenceTo y v.core 26 (fenceFrom y v.core v.s.gtc 31) } }

/-- SFENCE. -/
def execSfence (s : Nat) : State → Result := back (backSfence s) (.sfence s)

/-! ## Checks at issue (R300) -/

/-- The TYPE of the object that a handle names (R276). -/
def typeOf (y : Sys) (h : Nat) : Nat :=
  match objOf y h with
  | some o => match o.body with
    | .free => 0 | .barrier _ => 1 | .lock _ => 2 | .queue _ => 3 | .counter _ => 4 | .coll _ => 5
  | none => 0

/-- The operand word (R297) with the fields that the instruction uses: GEN, CLOSE, COUNT; PARTY below 64, or the first
core of a launch, or zero. -/
def operandOk (w : Nat) (gen close count : Bool) (party : Nat) : Bool :=
  (gen || field w 63 32 == 0) && field w 31 17 == 0 && (close || field w 16 16 == 0) &&
  (count || field w 15 8 == 0) && decide (field w 7 0 < party)

/-- The stop of R300: OBJECT for a wrong TYPE, OPERAND for a bad operand, OBJECT for the S7 rule. -/
def syncCheck (y : Sys) (h : Nat) (types : List Nat) (ok s7 : Bool) : Option Stop :=
  if !types.contains (typeOf y h) then some (.trap causeObject 0)
  else if !ok then some (.trap causeOperand 0)
  else if !s7 then some (.trap causeObject 0)
  else none

/-- The launch that owns a core's domain; 0 for a control core (R305, R315). -/
def launchOf (y : Sys) (core : Nat) : Nat :=
  let d := domOfCore y core
  if d.control then 0 else launchRef d.vd d.launch.seq

/-- The message of a sync instruction: operand word, second operand, ticket. -/
def syncMsg (v : Env) (h w dl aux ticket : Nat) : HomeMsg := {
  obj := h, party := field w 7 0, gen := field w 63 32, dl := dl, aux := aux, core := v.core, role := v.role
  launch := launchOf v.s.sys v.core, ticket := ticket }

/-- An instruction that sends an event and wants an answer in the pair sd, sd + 1: its names, the types it accepts, the
deadline it must not issue before, whether its operands are in order, and the event. `extra` is a landing beside
the pair; `tulle` sends it to the own chip's Tulle whatever the handle names. -/
def syncOp (d : Nat) (v : Env) (e : Entry) (h : Nat) (types : List Nat) (deadline : Nat) (ok s7 tulle : Bool)
    (ev : Instr) (dl aux : Nat) (wgen : Bool) (pre : Sys → Sys) : BackOp :=
  let y := v.s.sys
  let w := e.op 0
  let lam := if tulle then 40 else lambdaOf y v.core h
  let due := e.t v + lam
  let ticket := y.nextTicket
  { unit := .sync
    deadline := deadline
    check := fun _ => syncCheck y h types ok s7
    issue := fun _ =>
      ([landAnswer v e due d 0 ticket (v.s.gtc + lam), landAnswer v e due (d + 1) 1 ticket (v.s.gtc + lam)] ++
        (if wgen then [{ landAnswer v e due 0x008 2 ticket (v.s.gtc + lam) with tgt := .csr }] else []), [])
    fire := fun y =>
      let y := pre { y with nextTicket := ticket + 1 }
      (if tulle then sendTulle else sendHome) y v.s.gtc ev (syncMsg v h w dl aux ticket) }

/-- The names of a form with sd, so and sdl (R296). -/
def syncNames (d o l : Nat) : ETy → Names := fun _ => { aligned := [(d, 2)], handle := some o, sregs := [d, o, l] }

/-! ## Barriers (R302) -/

/-- ARRIVE. -/
def backArrive (d o l : Nat) : Back := {
  names := syncNames d o l
  op := fun v e => syncOp d v e (e.op 1) [1] 0 (operandOk (e.op 0) true false false 64 && e.op 2 != 0) true false
    .homeArrive (e.op 2) 0 false id }

/-- BWAIT. -/
def backBwait (d o l : Nat) : Back := {
  names := syncNames d o l
  op := fun v e => syncOp d v e (e.op 1) [1] (e.op 2) (operandOk (e.op 0) true false false 64 && e.op 2 != 0) true false
    .homeBwait (e.op 2) 0 true id }

/-- BARSHED. -/
def backBarshed (d o l : Nat) : Back := {
  names := syncNames d o l
  op := fun v e => syncOp d v e (e.op 1) [1] (e.op 2) (operandOk (e.op 0) true false false 64) true false
    .homeBarshed 0 0 false id }

/-- BARJOIN. -/
def backBarjoin (d o l : Nat) : Back := {
  names := syncNames d o l
  op := fun v e => syncOp d v e (e.op 1) [1] (e.op 2) (operandOk (e.op 0) false false false 64) true false
    .homeBarjoin 0 0 false id }

/-- ARRIVE. -/
def execArrive (d o l : Nat) : State → Result := back (backArrive d o l) (.arrive d o l)
/-- BWAIT. -/
def execBwait (d o l : Nat) : State → Result := back (backBwait d o l) (.bwait d o l)
/-- BARSHED. -/
def execBarshed (d o l : Nat) : State → Result := back (backBarshed d o l) (.barshed d o l)
/-- BARJOIN. -/
def execBarjoin (d o l : Nat) : State → Result := back (backBarjoin d o l) (.barjoin d o l)

/-! ## Locks and regions (R303, R304) -/

/-- An acquisition under the core's LEASE; the mend bit travels in DL. -/
def acqOp (mend d : Nat) (v : Env) (e : Entry) : BackOp :=
  syncOp d v e (e.op 1) [2] (e.op 2) (operandOk (e.op 0) false false false 64) true false
    .homeAcq mend v.c.lease.toNat false id

/-- ACQ. -/
def backAcq (d o l : Nat) : Back := { names := syncNames d o l, op := acqOp 0 d }

/-- ACQ_M. -/
def backAcqM (d o l : Nat) : Back := { names := syncNames d o l, op := acqOp 1 d }

/-- ACQ. -/
def execAcq (d o l : Nat) : State → Result := back (backAcq d o l) (.acq d o l)
/-- ACQ_M. -/
def execAcqM (d o l : Nat) : State → Result := back (backAcqM d o l) (.acqM d o l)

/-- REL: GEN of its message is the tick of its issue (R186). -/
def backRel (o : Nat) : Back := {
  names := fun _ => { handle := some o, sregs := [o] }
  op := fun v e => {
    unit := .sync
    check := fun _ => syncCheck v.s.sys (e.op 0) [2] true true
    fire := fun y => sendHome y v.s.gtc .homeRel { syncMsg v (e.op 0) 0 0 0 0 with gen := v.s.gtc } } }

/-- REL. -/
def execRel (o : Nat) : State → Result := back (backRel o) (.rel o)

/-- The region pair of bind (R304). -/
def regionOk (a b : Nat) : Bool :=
  field a 63 57 == 0 && a % 8 == 0 && field b 63 50 == 0 && field b 39 0 % 8 == 0 &&
  decide (a + field b 39 0 ≤ 2 ^ 57) && (decide (field b 47 40 < 64) || field b 47 40 == 255)

/-- Whether a handle's object is a window. -/
def isWindow (y : Sys) (h : Nat) : Bool := match objOf y h with | some o => o.window | none => false

/-- BIND: a lock or barrier that is not a window. -/
def backBind (o l : Nat) : Back := {
  names := fun _ => { aligned := [(l, 2)], handle := some o, sregs := [o, l, l + 1] }
  op := fun v e => {
    unit := .sync
    check := fun _ =>
      if isWindow v.s.sys (e.op 0) then some (.trap causeObject 0)
      else syncCheck v.s.sys (e.op 0) [1, 2] (regionOk (e.op 1) (e.op 2)) true
    fire := fun y => sendHome y v.s.gtc .homeBind (syncMsg v (e.op 0) 0 (e.op 1) (e.op 2) 0) } }

/-- BIND. -/
def execBind (o l : Nat) : State → Result := back (backBind o l) (.bind o l)

/-! ## Queues (R305 to R307) -/

/-- The S7 rule of a push: the role's preceding entry is an `sfence system` (R192). -/
def s7Ok (y : Sys) (h : Nat) (e : Entry) : Bool :=
  match objOf y h with
  | some o => !o.s7 || e.afterSf
  | none => true

/-- QPUSH. -/
def backQpush (d o l : Nat) : Back := {
  names := syncNames d o l
  op := fun v e => syncOp d v e (e.op 1) [3] 0 (operandOk (e.op 0) false true false 64) (s7Ok v.s.sys (e.op 1) e) false
    .homeQpush (e.op 2) (field (e.op 0) 16 16) false id }

/-- QRECV. -/
def backQrecv (d o l : Nat) : Back := {
  names := syncNames d o l
  op := fun v e => syncOp d v e (e.op 1) [3] (e.op 2) (operandOk (e.op 0) false false false 64) true false
    .homeQrecv 0 0 false id }

/-- QPROXY: to the shadow on the own chip's Tulle. -/
def backQproxy (d o l : Nat) : Back := {
  names := syncNames d o l
  op := fun v e => syncOp d v e (e.op 1) [3] 0 (operandOk (e.op 0) false true false 64) true true
    .shadowQproxy (e.op 2) (field (e.op 0) 16 16) false id }

/-- QPUSH. -/
def execQpush (d o l : Nat) : State → Result := back (backQpush d o l) (.qpush d o l)
/-- QRECV. -/
def execQrecv (d o l : Nat) : State → Result := back (backQrecv d o l) (.qrecv d o l)
/-- QPROXY. -/
def execQproxy (d o l : Nat) : State → Result := back (backQproxy d o l) (.qproxy d o l)

/-! ## Launches and counters (R308, R312, R313) -/

/-- The operands of launch (R308). -/
def launchOk (w desc : Nat) : Bool :=
  operandOk w false false true 256 && decide (1 ≤ field w 15 8) && decide (field w 15 8 ≤ 192) &&
  decide (field w 7 0 + field w 15 8 ≤ 192) && desc % 64 == 0 && field desc 63 57 == 0

/-- LAUNCH: to the launch unit on the own chip's Tulle. -/
def backLaunch (d o l : Nat) : Back := {
  names := syncNames d o l
  op := fun v e => syncOp d v e (e.op 1) [4] 0 (launchOk (e.op 0) (e.op 2)) true true
    .homeLaunch (e.op 2) (field (e.op 0) 15 8) false id }

/-- CWAIT. -/
def backCwait (d o l : Nat) : Back := {
  names := syncNames d o l
  op := fun v e => syncOp d v e (e.op 1) [4] (e.op 2) (operandOk (e.op 0) false false false 1) true false
    .homeCwait 0 0 false id }

/-- CANCEL. -/
def backCancel (d o : Nat) : Back := {
  names := fun _ => { aligned := [(d, 2)], handle := some o, sregs := [d, o] }
  op := fun v e => syncOp d v e (e.op 1) [4] 0 (operandOk (e.op 0) false false false 1) true false
    .homeCancel 0 0 false id }

/-- LAUNCH. -/
def execLaunch (d o l : Nat) : State → Result := back (backLaunch d o l) (.launch d o l)
/-- CWAIT. -/
def execCwait (d o l : Nat) : State → Result := back (backCwait d o l) (.cwait d o l)
/-- CANCEL. -/
def execCancel (d o : Nat) : State → Result := back (backCancel d o) (.cancel d o)

/-! ## Collectives (R331) -/

/-- What a coll does besides its event: it orders the core's timed writes before the walk's reads (R329), and the core
keeps the generation with what its part of the walk waits for. -/
def collFire (v : Env) (h g p : Nat) (y : Sys) : Sys :=
  let y := fenceTo y v.core 8 (fenceFrom y v.core v.s.gtc 5)
  let c := coreOf y v.core
  setCore y { c with colls := (c.colls.filter fun q => collPending y v.core q.key) ++ [⟨(h, g, p), c.toCol⟩] }

/-- COLL. -/
def backColl (d o l : Nat) : Back := {
  names := syncNames d o l
  op := fun v e => syncOp d v e (e.op 1) [5] 0 (operandOk (e.op 0) true false false 64 && e.op 2 != 0) true false
    .homeColl (e.op 2) 0 false (collFire v (e.op 1) (field (e.op 0) 63 32) (field (e.op 0) 7 0)) }

/-- A status OK that lands fences `col, vec+mat`: an earlier access of the core's collectives that is not visible then makes an
early wait (R177, R330). -/
def fencesOk (y : Sys) (core g : Nat) (ls : List Landing) : Bool :=
  (ls.any fun l => l.tgt == .scalar && l.reg % 2 == 1 && landValue y l % 256 == stOk) && !fenceClear y core g 8

/-- COLLWAIT (R330). -/
def backCollwait (d o l : Nat) : Back := {
  names := syncNames d o l
  op := fun v e => { syncOp d v e (e.op 1) [5] (e.op 2) (operandOk (e.op 0) true false false 64) true false
      .homeCollwait (e.op 2) 0 false id with
    late := fun n => if fencesOk v.s.sys v.core v.s.gtc (v.c.landings.filter fun x =>
        x.due == e.t v + n && x.urole == v.role && x.useq == e.seq) then some (.fault 4) else none } }

/-- COLLABORT. -/
def backCollabort (d o : Nat) : Back := {
  names := fun _ => { aligned := [(d, 2)], handle := some o, sregs := [d, o] }
  op := fun v e => syncOp d v e (e.op 1) [5] 0 (operandOk (e.op 0) false false false 64) true false
    .homeCollabort 0 0 false id }

/-- COLL. -/
def execColl (d o l : Nat) : State → Result := back (backColl d o l) (.coll d o l)
/-- COLLWAIT. -/
def execCollwait (d o l : Nat) : State → Result := back (backCollwait d o l) (.collwait d o l)
/-- COLLABORT. -/
def execCollabort (d o : Nat) : State → Result := back (backCollabort d o) (.collabort d o)

end Sys2Proof.Machine
end

