-- ==== Sys2Proof/Machine/Transfer.lean ====
section
/-! DEFINITION. The transfer unit: xgo (R168 to R173), the delivery of transfers (R150, R151, R153, R171, R372, R386,
R387), xdrain, xtag, pgreq and xinv (R147, R154, R174 to R176). Each unit of an admitted transfer (R178) is read in some
tick and written in a later one, those of scratchpads in idle bank-cycles alone (R76); XDUE leaves time for that at the bank
floor (log entry 20). -/

namespace Sys2Proof.Machine

/-! ## Checks of a shadow set (R168, R169, R173) -/

/-- A multiple of 4. -/
def mult4 (x : Dword) : Bool := x.toNat % 4 == 0

/-- A scratchpad side of a shadow set: bits [63:32] zero (R168). -/
def spWord (sp : Bool) (x : Dword) : Bool := !sp || field x.toNat 63 32 == 0

/-- What xgo finds wrong with the fields of a shadow set: true where it is well formed. -/
def shadowOk (x : Shadow) : Bool :=
  let n0 := x.xcount0.toNat
  let n1 := x.xcount1.toNat
  let runs := decide (1 ≤ n1) && decide (n1 ≤ 65536)
  let elems := (n0 == 4 || n0 == 8) && runs
  let tagOk := x.gang || x.tag == 0 || !x.toMemory
  (x.xchan &&& ~~~7#64) == 0 && (x.xopt &&& ~~~xoptMask) == 0 && tagOk &&
  (x.mode == 3 || x.keyslot == 0) && (x.gang || x.ring == 0) && mult4 x.xsrc &&
  spWord x.srcsp x.xsrc && spWord (x.dstsp && !x.gang) x.xdst && spWord (x.mode == 1 || x.mode == 2) x.xstride0 &&
  (if x.gang then
    x.mode == 0 && !x.dstsp && n0 == 0 && n1 == 0 && x.xstride0 == 0 && x.xstride1 == 0 &&
    field x.xdst.toNat 63 16 == 0 && decide (1 ≤ field x.xdst.toNat 15 8) && decide (field x.xdst.toNat 15 8 ≤ 192)
  else if x.mode == 0 then
    mult4 x.xdst && mult4 x.xstride0 && mult4 x.xstride1 && n0 % 4 == 0 && decide (4 ≤ n0) && decide (n0 ≤ 4194304) && runs
  else if x.mode == 1 then
    !x.srcsp && x.dstsp && mult4 x.xdst && mult4 x.xstride0 && mult4 x.xstride1 && elems
  else if x.mode == 2 then
    x.srcsp && !x.dstsp && mult4 x.xdst && mult4 x.xstride0 && mult4 x.xstride1 && elems
  else if x.mode == 3 then
    mult4 x.xdst && field x.xstride0.toNat 63 32 == 0 && n0 % 4 == 0 && decide (4 ≤ n0) && decide (n0 ≤ 65536) && n1 == 1
  else false)

/-- n bytes at a scratchpad address of one core. -/
def spRangeOk (y : Sys) (core a n : Nat) : Bool :=
  match spAddr y core a with
  | some (t, o) => decide (n = 0) || decide (o + n ≤ spadSize (coreOf y t).partN)
  | none => false

/-- The cores of a gang (R173), or none for an index past N. -/
def gangCores (d : Domain) (x : Shadow) : List (Option Nat) :=
  (List.range (field x.xdst.toNat 15 8)).map fun i => d.coreAt (field x.xdst.toNat 7 0 + i)

/-- Whether every scratchpad side of a transfer names places that exist and may be reached (R27, R347). -/
def placesOk (y : Sys) (core vl : Nat) (x : Shadow) : Bool :=
  let ps := pieces y core vl x
  if x.gang then
    (x.fromMemory || spRangeOk y core x.xsrc.toNat (4 * vl)) &&
    (gangCores (domOfCore y core) x).all fun g => match g with
      | some t => (coreOf y t).grp == (coreOf y core).grp
      | none => true
  else
    (!(x.mode == 1 || x.mode == 2) || spRangeOk y core x.xstride0.toNat (4 * x.xcount1.toNat)) &&
    (x.fromMemory || ps.all fun p => spRangeOk y core p.src p.n) &&
    (x.toMemory || ps.all fun p => spRangeOk y core p.dst (if x.mode = 3 then x.xcount0.toNat else p.n))

/-- The cores whose scratchpad a transfer touches. -/
def touchedCores (y : Sys) (core vl : Nat) (x : Shadow) : List Nat :=
  let ps := pieces y core vl x
  ((if x.fromMemory then [] else ps.map Piece.src) ++ (if x.gang || x.toMemory then [] else ps.map Piece.dst) ++
    (if x.mode = 1 || x.mode = 2 then [x.xstride0.toNat] else [])).filterMap fun a => spTarget y core a

/-- Whether a decrypt's key and counter are refused (R170). -/
def keyRefused (y : Sys) (vk : Nat) (x : Shadow) : Bool :=
  let k := keySlot y (vk / 32) x.keyslot
  k.kind != 3 || k.owner != vk || k.stream != x.xstride0.toNat || decide (x.xstride1.toNat < k.next) ||
  x.xstride1.toNat == 2 ^ 64 - 1

/-- The outstanding entries of a core on a channel, those of a launch that has ended among them (log entry 78). -/
def outstanding (y : Sys) (core ch : Nat) : List Xfer :=
  y.xfers.filter fun x => x.core == core && x.chan == ch && x.stage < 3 && x.kind != 5

/-- A channel of a core. -/
def Core.chanAt (c : Core) (ch : Nat) : Chan := (c.chans[ch]?).getD { nextId := 1, errors := [], lastDue := 0 }

/-- Replace a channel of a core. -/
def Core.setChan (c : Core) (ch : Nat) (h : Chan) : Core := { c with chans := c.chans.setIfInBounds ch h }

/-- Ticks within which whatever a core has issued has landed, while its domain runs: the longest instruction takes less than
1,024 cycles, and a home answers within 40 + 2 × RLAT (R275). -/
def landBound (y : Sys) (core : Nat) : Nat := 1024 + 2 * (vdOf y (vdKeyOf y core)).rlat

/-- The tick by which a collective generation of a core is over: PDONE1 of its walk, or as it will be once it resolves at its
deadline (R324). -/
def collBound (y : Sys) (g : Nat) (c : Nat × Nat × Nat) : Nat :=
  let sent := y.sched.foldl (fun m e =>
    if e.2.1 == .homeColl && e.2.2.obj == c.1 && e.2.2.gen == c.2.1 then max m (max e.1 e.2.2.dl) else m) g
  match objOf y c.1 with
  | some o => match o.body with
    | .coll k =>
      if o.gen == c.2.1 then max (max sent k.deadline) k.pdone1 + k.span
      else max g (((k.walks.find? fun w => w.gen == c.2.1).map Walk.due).getD g)
    | _ => g
  | none => g

/-- The tick by which what a wait of a core names is over, host accesses apart. -/
def waitBoundOwn (y : Sys) (core g : Nat) (w : Wait) : Nat :=
  let a := if w.ents = [] then g else g + landBound y core
  let b := y.xfers.foldl (fun m x => if w.xids.contains x.xid then max m (x.due + 1) else m) a
  w.colls.foldl (fun m c => max m (collBound y g c)) b

/-- The tick by which what a wait names is over: XDUE accounts for it (R177). Host accesses wait for fences of the virtual
device's cores alone. -/
def waitBound (y : Sys) (core g : Nat) (w : Wait) : Nat :=
  let own := waitBoundOwn y core g w
  if !w.host then own
  else (vdOf y (vdKeyOf y core)).cores.foldl (fun m c => max m (waitBoundOwn y c g (coreOf y c).toHst + 1)) own

/-- The memory that a transfer of some pieces writes: address and bytes. -/
def memDests (x : Shadow) (ps : List Piece) : List (Nat × Nat) :=
  if x.toMemory then ps.map fun p => (p.dst, if x.mode = 3 then p.n - 16 else p.n) else []

/-- Some of these bytes lie on a page with HOSTSH. -/
def meetsHost (s : State) (core : Nat) (ps : List (Nat × Nat)) : Bool :=
  ps.any fun p => (List.range (p.2 / 65536 + 2)).any fun i =>
    (xlate s (vdKeyOf s.sys core) (min (p.1 + 65536 * i) (p.1 + p.2 - 1))).any Xlat.hostsh

/-- The 32-bit containers that a transfer writes one at a time, to pages with HOSTSH (R190). -/
def hostContainers (s : State) (core vl : Nat) (x : Shadow) : Nat :=
  let ps := memDests x (pieces s.sys core vl x)
  if meetsHost s core ps then ps.foldl (fun a p => a + p.2 / 4) 0 else 0

/-! ### Places and the banks they need -/

/-- A place of the pool of a core. -/
def placeOf (core off : Nat) : Nat := 4194304 * core + off

/-- The place of a scratchpad address; that of an address that names none is never used (R170: it raises SPADDR). -/
def spPlace (y : Sys) (core a : Nat) : Nat :=
  match spAddr y core a with
  | some (t, o) => placeOf t (spadBase (coreOf y t).partN + o)
  | none => 0

/-- The core of a place. -/
def placeCore (p : Nat) : Nat := p / 4194304

/-- The pool offset of a place. -/
def placeOff (p : Nat) : Nat := p % 4194304

/-- The words of n bytes from an address. -/
def wordsFrom (a n : Nat) : List Nat := (List.range (n / 4)).map fun i => a + 4 * i

/-- The words of a side of a piece: virtual addresses, or places. -/
def sideWords (y : Sys) (core : Nat) (mem : Bool) (a n : Nat) : List Nat :=
  wordsFrom (if mem then a else spPlace y core a) n

/-- The place of element i of a register of a core (R21, R22). -/
def vecPlace (c : Core) (r i : Nat) : Nat := placeOf c.id (2048 * r + 256 * (i / c.lanes) + 4 * c.phys (i % c.lanes))

/-- The scratchpad and register words that a transfer reads first, then reads, then writes. -/
def loadPhases (y : Sys) (core vl : Nat) (x : Shadow) : List (List Nat) :=
  let ps := pieces y core vl x
  let gang := ((gangCores (domOfCore y core) x).filterMap id).flatMap fun t => (List.range vl).map (vecPlace (coreOf y t) x.ring)
  [if x.mode = 1 || x.mode = 2 then sideWords y core false x.xstride0.toNat (4 * x.xcount1.toNat) else [],
    if x.fromMemory then [] else ps.flatMap fun p => sideWords y core false p.src p.n,
    if x.gang then gang else if x.toMemory then []
    else ps.flatMap fun p => sideWords y core false p.dst (if x.mode = 3 then p.n - 16 else p.n)]

/-- The bank-cycles of one bank that some words need at most: the lines of the bank that holds most of them, or where words come
twice the words. -/
def bankLoad (ws : List Nat) : Nat :=
  let lines := ws.foldl (fun a w => putBy Prod.fst (w / 16, ((getBy Prod.fst (w / 16) a).map Prod.snd).getD 0 + 1) a) ([] : List (Nat × Nat))
  let cost := fun (l : Nat × Nat) => if 4 < l.2 then l.2 else 1
  (lines.foldl (fun a l =>
    let k := l.1 / 262144 * 64 + l.1 % 64
    putBy Prod.fst (k, ((getBy Prod.fst k a).map Prod.snd).getD 0 + cost l) a) ([] : List (Nat × Nat))).foldl (fun m p => max m p.2) 0

/-- Ticks within which a bank is idle in n cycles, where each frame of 4,096 leaves it idle in no more than the floor (R76): within
two frames, or n / floor whole ones with two to spare. -/
def bankSpan (floor n : Nat) : Nat :=
  let f := min 4096 (max 1 floor)
  if n = 0 then 0 else if n + 2 * (4096 - f) ≤ 4096 then n + 2 * (4096 - f) else 4096 * (ceilDiv n f + 2)

/-- The bank-cycles of one bank that a transfer may need in all, and the ticks in which it finds them at the floor of the cores that
it touches, behind the transfers of its virtual device already admitted (R76, R171). -/
def xferNeed (v : Env) (e : Entry) : Nat × Nat :=
  let y := v.s.sys
  let vk := vdKeyOf y v.core
  let before := (y.xfers.filter fun x => x.stage < 3 && vdKeyOf y x.core == vk).foldl (fun n x => n + x.load) 0
  let loads := (loadPhases y v.core e.vl e.shadow).map bankLoad
  let cores := (loadPhases y v.core e.vl e.shadow).flatten.foldl (fun l p =>
    if l.contains (placeCore p) then l else placeCore p :: l) ([] : List Nat)
  let floor := cores.foldl (fun m c => min m (domOfCore y c).launch.floor) 4096
  (loads.foldl (· + ·) 0,
    (loads.filter fun n => n != 0).foldl (fun a n => a + bankSpan floor (n + before)) (8 + hostContainers v.s v.core e.vl e.shadow))

/-- The tick from which nothing holds an xgo's transfer up but its own moves: the last of its channel is visible and what it waits
for is over (R171, R177). -/
def xferClear (v : Env) (e : Entry) : Nat :=
  max (max v.s.gtc (v.c.chanAt (e.shadow.xchan.toNat % 8)).lastDue) (waitBound v.s.sys v.core v.s.gtc v.c.toXfr + 4)

/-- XDUE of a transfer (R171, R177): with the time that it needs from there at the bank floor, and for the containers that become
visible one by one. -/
def xdueOf (v : Env) (e : Entry) : Nat :=
  let d := vdOf v.s.sys (vdKeyOf v.s.sys v.core)
  xferClear v e + (xferNeed v e).2 + Config.xdueDelay d.key d.xgos v.dom.launch.floor d.hbmslots d.hostshare

/-- What the transfer unit decides about an xgo (R170): a reason, or XDUE. -/
def decideXgo (v : Env) (e : Entry) : Except Nat Nat :=
  let y := v.s.sys
  let x := e.shadow
  let ch := x.xchan.toNat % 8
  let due := xdueOf v e
  if x.gang && (gangCores v.dom x).any fun g => match g with
      | some t => !(isRing (coreOf y t).partN x.ring && decide (6 ≤ rdir (coreOf y t).partN x.ring))
      | none => true then .error 5
  else if x.mode = 3 && keyRefused y (vdKeyOf y v.core) x then .error 4
  else if (touchedCores y v.core e.vl x).any fun t => (domOfCore y t).launch.floor == 0 then .error 3
  else if 127 ≤ (outstanding y v.core ch).length then .error 2
  else if e.op 0 ≠ 0 && e.op 0 < due then .error 1
  else .ok due

/-- The next sequence number of a channel (R170). -/
def nextSeqNo (n : Nat) : Nat := if n = 8191 then 1 else n + 1

/-! ## What a transfer moves, unit by unit (R178) -/

/-- A word to be read. -/
def unread (a : Nat) : Nat × Option (Nat × Bool × Nat) := (a, none)

/-- Words and their destinations in memory as units of 8 bytes, of words that follow one another. -/
def pairUp : List (Nat × Nat × Option (Nat × Bool × Nat)) → List Move
  | (d, a) :: (e, b) :: l =>
    if d % 8 = 0 ∧ e = d + 4 then ⟨some d, [a, b]⟩ :: pairUp l else ⟨some d, [a]⟩ :: pairUp ((e, b) :: l)
  | [(d, a)] => [⟨some d, [a]⟩]
  | [] => []

/-- Two moves of one word each to the two halves of a unit of memory, as one. -/
def Move.join (m n : Move) : Option Move :=
  match m.dst, n.dst with
  | some d, some e =>
    if m.src.length = 1 ∧ n.src.length = 1 ∧ d / 8 = e / 8 ∧ d ≠ e then some ⟨some (min d e), if d < e then m.src ++ n.src else n.src ++ m.src⟩
    else none
  | _, _ => none

/-- Add a move to others: a single word joins the first one of its unit, unless a later move goes to that unit too. -/
def addMove (n : Move) : List Move → List Move
  | [] => [n]
  | m :: ms =>
    match (if ms.any fun k => k.dst.map (· / 8) == n.dst.map (· / 8) then none else m.join n) with
    | some k => k :: ms
    | none => m :: addMove n ms

/-- The moves of one transfer to memory with every unit as one write (R178), except for words that come twice. -/
def joinMoves (ms : List Move) : List Move :=
  if (ms.filter fun m => m.src.length == 1).length ≤ 1 then ms
  else ms.foldl (fun l m => if m.src.length = 1 then addMove m l else l ++ [m]) []

/-- Words and their destinations as units: of 8 bytes in memory, of 4 in a scratchpad (R178). Those of a host-shared page, which
become visible container by container (R190), keep their order. -/
def destUnits (mem hostsh : Bool) (l : List (Nat × Nat × Option (Nat × Bool × Nat))) : List Move :=
  if mem then (if hostsh then pairUp l else joinMoves (pairUp l)) else l.map fun p => ⟨some p.1, [p.2]⟩

/-- What a copy, gather or scatter moves. -/
def copyMoves (y : Sys) (core : Nat) (x : Shadow) (hostsh : Bool) (ps : List Piece) : List Move :=
  destUnits x.toMemory hostsh (ps.flatMap fun p =>
    (sideWords y core x.toMemory p.dst p.n).zip ((sideWords y core x.fromMemory p.src p.n).map unread))

/-- What a gang delivery moves: each word of the strip to its element of the ring register of each gang core (R173). -/
def gangMoves (y : Sys) (core vl : Nat) (x : Shadow) : List Move :=
  let src := sideWords y core x.fromMemory x.xsrc.toNat (4 * vl)
  ((gangCores (domOfCore y core) x).filterMap id).flatMap fun t =>
    ((List.range vl).zip src).map fun p => ⟨some (vecPlace (coreOf y t) x.ring p.1), [unread p.2]⟩

/-- The destinations of moves, word by word. -/
def destWords (ms : List Move) : List Nat :=
  ms.flatMap fun m => match m.dst with
    | some d => (List.range m.src.length).map fun i => d + 4 * i
    | none => []

/-- The 64-byte lines that words cover, each with the mask of its words and their number; whether a word comes twice. -/
def coverage (ws : List Nat) : List (Nat × Nat × Nat) × Bool :=
  ws.foldl (fun a w =>
    let k := ((getBy Prod.fst (w / 64) a.1).map Prod.snd).getD (0, 0)
    (putBy Prod.fst (w / 64, setBit k.1 (w % 64 / 4), k.2 + 1) a.1, a.2 || k.1.testBit (w % 64 / 4))) ([], false)

/-- The tags that moves set: slots with their cores, or ring registers by number from RBASE (R150, R173). -/
def tagsOf (y : Sys) (x : Xfer) (ms : List Move) : List (Nat × Nat) :=
  if x.kind = 6 then ((gangCores (domOfCore y x.core) x.shadow).filterMap id).map fun t => (t, x.shadow.ring - rbase (coreOf y t).partN)
  else if x.shadow.toMemory then []
  else (destWords ms).foldl (fun l p =>
    let q := (placeCore p, (placeOff p - spadBase (coreOf y (placeCore p)).partN) / 4096)
    if l.contains q then l else q :: l) []

/-- A transfer that knows what it moves. -/
def Xfer.moving (y : Sys) (x : Xfer) (ms : List Move) : Xfer :=
  let (cover, dups) := coverage (destWords ms)
  { x with
    stage := 1, moves := ms, dups := dups, tags := tagsOf y x ms
    whole := if x.kind = 6 then [] else (cover.filter fun k => k.2.1 == 65535).map fun k => (k.1, k.2.2, false) }

/-- An entry of the transfer unit as it is admitted. -/
def Xfer.admitted (v : Env) (kind ch id due xid : Nat) (x : Shadow) (vl : Nat) : Xfer := {
  xid := xid, core := v.core, role := v.role, chan := ch, id := id, kind := kind, shadow := x, vl := vl, issue := v.s.gtc
  due := due, urge := due, load := 0, after := v.c.toXfr, status := 0, stage := 0, idx := [], moves := [], dups := false, trans := []
  whole := [], tags := [], noted := [], keygen := (keySlot v.s.sys (chipOf v.core) x.keyslot).gen }

/-- What an admitted transfer reads first: a gather or scatter its indices, a decrypt its ciphertext and tag; a copy or gang
delivery moves at once. -/
def Xfer.started (s : State) (x : Xfer) : Xfer :=
  let y := s.sys
  let w := x.shadow
  let first := fun (l : List Nat) => { x with moves := l.map fun a => ⟨none, [unread a]⟩ }
  if x.kind = 6 then x.moving y (gangMoves y x.core x.vl w)
  else if x.kind = 0 then
    let ps := Machine.pieces y x.core x.vl w
    x.moving y (copyMoves y x.core w (meetsHost s x.core (memDests w ps)) ps)
  else if x.kind = 3 then first (sideWords y x.core w.fromMemory w.xsrc.toNat (w.xcount0.toNat + 16))
  else first (sideWords y x.core false w.xstride0.toNat (4 * w.xcount1.toNat))

/-- Let a transfer act at a tick, in the order of issue: phase 0 moves its units, 3 sets the tag of an xtag, 4 answers for one. -/
def deliverAt (y : Sys) (tick : Nat) (x : Xfer) (phase : Nat) : Sys :=
  schedule y tick (.transferDelivery x.core x.xid phase) { noMsg with party := x.xid }

/-- Let a transfer set its tags and become visible at a tick, before units move (phase 1): of two that set one tag, the one of the
higher domain index comes last, and of one core the one issued later (R150). -/
def settleAt (y : Sys) (tick : Nat) (x : Xfer) : Sys :=
  schedule y tick (.transferDelivery x.core x.xid 1)
    { noMsg with party := (domOfCore y x.core).indexOf x.core * 18446744073709551616 + x.xid }

/-- One more xgo or xinv that the virtual device of a core has asked for. -/
def countXgo (y : Sys) (core : Nat) : Sys :=
  let d := vdOf y (vdKeyOf y core)
  setVd y { d with xgos := d.xgos + 1 }

/-- Enter an admitted transfer: its fences, its channel, its units (R171, R177). -/
def admitXfer (v : Env) (e : Entry) (kind due : Nat) (y : Sys) : Sys :=
  let x := e.shadow
  let ch := x.xchan.toNat % 8
  let c := coreOf y v.core
  let chan := c.chanAt ch
  let need := xferNeed v e
  let t := ({ Xfer.admitted v kind ch (ch * 8192 + chan.nextId) due y.nextXid x e.vl with
    urge := due - need.2, load := need.1 }).started { v.s with sys := y }
  let y := setCore y (c.setChan ch { chan with nextId := nextSeqNo chan.nextId, lastDue := due })
  settleAt { y with xfers := y.xfers ++ [t], nextXid := y.nextXid + 1 } (v.s.gtc + 1) t

/-- The kind of a transfer. -/
def kindOf (x : Shadow) : Nat := if x.gang then 6 else x.mode

/-- XGO (R170). -/
def backXgo (d a : Nat) : Back := {
  names := fun _ => { sregs := [a] }
  op := fun v e =>
    let x := e.shadow
    let r := decideXgo v e
    let t := e.t v + 4
    { unit := .xu
      check := fun _ =>
        if !shadowOk x then some (.trap causeOperand 0)
        else if !placesOk v.s.sys v.core e.vl x then some (.trap causeSpaddr 0)
        else none
      issue := fun _ =>
        match r with
        | .ok due => ([landScalar v e t d (x.xchan.toNat % 8 * 8192 + (v.c.chanAt (x.xchan.toNat % 8)).nextId),
            landCsr v e t 0x009 due], [])
        | .error k => ([landScalar v e t d (k * 65536), landCsr v e t 0x009 0], [])
      fire := fun y =>
        match r with
        | .ok due =>
          let y := admitXfer v e (kindOf x) due (countXgo y v.core)
          if x.mode = 3 then
            let chip := chipOf v.core
            setKeySlot y chip x.keyslot { keySlot y chip x.keyslot with next := x.xstride1.toNat + 1 }
          else y
        | .error _ => countXgo y v.core } }

/-- XGO. -/
def execXgo (d a : Nat) : State → Result := back (backXgo d a) (.xgo d a)

/-! ## Reading a source -/

/-- The far end of the link that an access to a physical address crosses: the host, or the chip behind an aperture. -/
def farEnd (y : Sys) (vk pa : Nat) : Option Nat :=
  if field pa 51 50 = 1 then some hostEnd
  else if field pa 51 50 = 2 then (apertureOf y (vk / 32) pa).map fun q => q.2.2 else none

/-- The machine in which a far end has not been removed. -/
def unremoved (y : Sys) (far : Nat) : Sys :=
  { y with mgmt := { y.mgmt with
      removed := y.mgmt.removed.filter fun p => p.1 != far, hostGone := y.mgmt.hostGone && far != hostEnd } }

/-- An 8-byte unit of a transfer's load that was outstanding when its far end was removed has crossed before (R386; free, log entry
29). -/
def Xfer.hasCrossed (x : Xfer) (far va : Nat) : Bool :=
  x.crossed.contains far && Config.crossed (x.xid * 2 ^ 64 + va / 8)

/-- The machine from which a transfer reads a unit under a translation: that before the removal of its far end, if the unit has
crossed. -/
def crossedFrom (s : State) (x : Xfer) (vk va : Nat) (t : Option Xlat) : State :=
  match t.bind fun q => farEnd s.sys vk q.pa with
  | some far => if x.hasCrossed far va then { s with sys := unremoved s.sys far } else s
  | none => s

/-- Four bytes that were read, as a word: its value, whether any is poisoned, its cause. -/
def wordOf (l : List RdByte) : Nat × Bool × Nat :=
  (ofBytes (l.map RdByte.val), l.any RdByte.poison,
    if l.any fun b => b.cause == 3 then 3 else if l.any fun b => b.cause == 1 then 1 else 0)

/-- A word of memory as a transfer reads it; of a decrypt's source an unbacked one has cause 2 (R372). -/
def memWord (s : State) (x : Xfer) (vk va : Nat) (t : Option Xlat) : Nat × Bool × Nat :=
  let s := crossedFrom s x vk va t
  let w := wordOf ((List.range 4).map fun i => readXFor s x.core x.issue vk (va + i) (t.map fun q => q.shift i))
  if x.kind = 3 && w.2.2 = 0 && (t.any fun q => unbackedX s vk q.pa) then (w.1, w.2.1, 2) else w

/-- A word of a pool as a transfer reads it (R151, R153): of a decrypt's source the stored bytes and the poison count (R372). -/
def poolWord (y : Sys) (x : Xfer) (p : Nat) : Nat × Bool × Nat :=
  let c := coreOf y (placeCore p)
  let o := placeOff p - spadBase c.partN
  (c.snat o 4, c.poisoned o, if x.kind = 3 then 0 else c.flagCause (o / 4))

/-- What the read of a word of a pool meets (R378): a struck line marks its granule, a corrected error is counted. -/
def notePool (y : Sys) (g p : Nat) : Sys :=
  let core := placeCore p
  let o := placeOff p - spadBase (coreOf y core).partN
  countSoft (markStruck y g core o 4) core o 4

/-- The scratchpads as they will be once the held landings of waited-for entries of a frozen core are made (R177). -/
def heldView (y : Sys) (core : Nat) (w : Wait) : Sys :=
  (coreOf y core).landings.foldl (fun y l =>
    if l.tgt == .spad && w.ents.contains (l.urole, l.useq) then makeLanding y core l else y) y

/-- The key of a decrypt is the one of its admission still: its slot has not been retired since (R373). -/
def keyStands (y : Sys) (x : Xfer) : Bool :=
  let k := keySlot y (chipOf x.core) x.shadow.keyslot
  k.kind == 3 && k.gen == x.keygen

/-- What a decrypt comes to once its source is read (R172, R372, R373): a status and the plaintext words. -/
def decryptSource (y : Sys) (x : Xfer) (ws : List (Nat × Bool × Nat)) : Nat × List Nat :=
  let n := x.shadow.xcount0.toNat
  let data := ws.flatMap fun w => toBytes 4 w.1
  let iv := toBytesBE 4 x.shadow.xstride0.toNat ++ toBytesBE 8 x.shadow.xstride1.toNat
  if ws.any fun w => w.2.2 == 3 then (5, [])
  else if ws.any fun w => w.2.2 == 2 then (3, [])
  else if (ws.any fun w => w.2.1 || w.2.2 == 1) || !keyStands y x then (4, [])
  else
    match gcmDecrypt (keySlot y (chipOf x.core) x.shadow.keyslot).key iv (data.take n) (data.drop n) with
    | some p => (0, (List.range (n / 4)).map fun i => ofBytes ((p.drop (4 * i)).take 4))
    | none => (4, [])

/-! ## Delivery (R150, R151, R153, R171) -/

/-- A transfer of a number. -/
def xferOf (y : Sys) (xid : Nat) : Option Xfer := y.xfers.find? fun x => x.xid == xid

/-- Replace a transfer. -/
def setXfer (y : Sys) (x : Xfer) : Sys := { y with xfers := y.xfers.map fun t => if t.xid = x.xid then x else t }

/-- Whether an earlier entry of the channel has not come as far as a stage. -/
def channelBusy (y : Sys) (x : Xfer) (stage : Nat) : Bool :=
  (outstanding y x.core x.chan).any fun t => t.xid < x.xid && t.stage < stage

/-- An earlier invalidation of the channel is under way: a walk for a later access starts after it (R188). -/
def behindXinv (y : Sys) (x : Xfer) : Bool := (outstanding y x.core x.chan).any fun t => t.xid < x.xid && t.kind == 4

/-- The line of a place is in an idle bank-cycle, given the banks in use by core and the lines that the tick has used (R76). -/
def lineIdle (busy used : List (Nat × Nat)) (p : Nat) : Bool :=
  let line := placeOff p / 16
  !(((getBy Prod.fst (placeCore p) busy).map Prod.snd).getD 0).testBit (line % 64) &&
  used.all fun u => u.1 != placeCore p || u.2 == line || u.2 % 64 != line % 64

/-- The used lines with that of a place. -/
def useLine (used : List (Nat × Nat)) (p : Nat) : List (Nat × Nat) :=
  let u := (placeCore p, placeOff p / 16)
  if used.contains u then used else u :: used

/-- What the tick of a transfer works with: the machine at its beginning, its virtual device, whether every chance to move is used,
the banks in use by core, and whether some link stalls. -/
structure Beat where
  s      : State
  x      : Xfer
  vk     : Nat
  urgent : Bool
  busy   : List (Nat × Nat)
  stalls : Bool

/-- What the tick of a transfer has come to: the machine; the 16-byte lines that it has used, with their cores; its translations;
the granules that it has reached; the transfer's status, whole lines and reported lines; destinations that wait, and
whether a host-shared container has had its turn; the moves left, the last first. -/
structure Tick where
  y      : Sys
  used   : List (Nat × Nat)
  trans  : List (Nat × Option Xlat)
  pages  : List Nat
  status : Nat
  whole  : List (Nat × Nat × Bool)
  noted  : List Nat
  held   : List Nat
  hostsh : Bool
  moves  : List Move

/-- A unit moves now if it may: it must, or it happens to. -/
def Beat.moves (b : Beat) (key : Nat) : Bool := b.urgent || Config.unitNow b.s.sys.free key

/-- The line of a place is in an idle bank-cycle: neither the timetable nor another transfer uses its bank, nor another line
of this one (R76). -/
def Beat.idle (b : Beat) (t : Tick) (p : Nat) : Bool := lineIdle b.busy t.used p

/-- The line of a place is used. -/
def Tick.use (t : Tick) (p : Nat) : Tick := { t with used := useLine t.used p }

/-- The machine whose tables a transfer walks. An indexed transfer that was issued after an invalidation of its virtual device that is
still under way takes no old value (R147; log entry 20). Of one that was under way when a chip was removed, the walk of a
granule may have crossed before (R386). -/
def Beat.tables (b : Beat) (va : Nat) : State :=
  let s := if (b.x.kind = 1 || b.x.kind = 2) && b.s.sys.xfers.any fun t =>
      t.kind == 4 && t.xid < b.x.xid && vdKeyOf b.s.sys t.core == b.vk then { b.s with sys := { b.s.sys with cached := [] } } else b.s
  if b.x.crossed != [] && Config.crossed (b.x.xid * 2 ^ 64 + 2 ^ 62 + va / 65536) then
    { s with sys := b.x.crossed.foldl unremoved s.sys }
  else s

/-- The translation of a virtual address: one of each granule in a tick, and in an indexed transfer (R148). -/
def Beat.xlat (b : Beat) (t : Tick) (va : Nat) : Option Xlat × Tick :=
  match t.trans.find? fun p => p.1 == va / 65536 with
  | some p => (p.2.map fun q => q.shift (va % 65536), t)
  | none =>
    let q := xlate (b.tables va) b.vk (va / 65536 * 65536)
    (q.map fun q => q.shift (va % 65536), { t with trans := (va / 65536, q) :: t.trans })

/-- The link to a far end is shut in this tick (R383, R384, R392). -/
def farShut (s : State) (vk far : Nat) : Bool :=
  if far = hostEnd then decide (s.gtc < s.sys.mgmt.hostStall) else linkShut s vk far

/-- Some link is shut. -/
def anyStall (y : Sys) (g : Nat) : Bool :=
  decide (g < y.mgmt.hostStall) || !y.mgmt.ready.getLsbD 6 || y.mgmt.ports.toList.any fun p => !p.up || decide (g < p.stall)

/-- An access of a virtual device under a translation crosses a link that stalls (R383, R384). -/
def crossesStall (s : State) (vk : Nat) (q : Option Xlat) : Bool :=
  match q.bind fun x => farEnd s.sys vk x.pa with
  | some far => farShut s vk far
  | none => false

/-- An access of the transfer under a translation crosses a link that stalls. -/
def Beat.stalled (b : Beat) (q : Option Xlat) : Bool := b.stalls && crossesStall b.s b.vk q

/-- A granule has been reached in this tick. -/
def Tick.reach (t : Tick) (va : Nat) : Tick :=
  if t.pages.contains (va / 65536) then t else { t with pages := va / 65536 :: t.pages }

/-- Report the bad lines that a read of a word of memory met, once in a transfer (R355, R380). -/
def Beat.report (b : Beat) (t : Tick) (va : Nat) (w : Nat × Bool × Nat) : Tick :=
  if !w.2.1 && w.2.2 ≠ 1 then t
  else
    let evs := (badLines b.s b.vk va 4).filter fun e => !t.noted.contains e.addr
    { t with y := evs.foldl (fun y e => writeLineEvent y b.s.gtc b.vk e) t.y, noted := evs.map LineEvent.addr ++ t.noted }

/-- One word of a move, read if it can be. -/
def readWord (b : Beat) (mem : Bool) (a : Tick × List (Nat × Option (Nat × Bool × Nat))) (w : Nat × Option (Nat × Bool × Nat)) :
    Tick × List (Nat × Option (Nat × Bool × Nat)) :=
  let (t, l) := a
  if w.2.isSome then (t, l ++ [w])
  else if mem then
    if !b.moves (2 * (w.1 / 8)) then (t, l ++ [w])
    else
      let (q, t) := b.xlat t w.1
      if b.stalled q then (t, l ++ [w])
      else
        let r := memWord b.s b.x b.vk w.1 q
        (b.report (t.reach w.1) w.1 r, l ++ [(w.1, some r)])
  else if b.moves (2 * (w.1 / 4)) && b.idle t w.1 then
    let y := heldView b.s.sys b.x.core b.x.after
    ({ t.use w.1 with y := notePool t.y b.s.gtc w.1 }, l ++ [(w.1, some (poolWord y b.x w.1))])
  else (t, l ++ [w])

/-- The words of a move are read, each that can be. -/
def readMove (b : Beat) (mem : Bool) (t : Tick) (m : Move) : Tick :=
  let r := m.src.foldl (readWord b mem) (t, [])
  { r.1 with moves := { m with src := r.2 } :: r.1.moves }

/-- All words of a move are read. -/
def Move.ready (m : Move) : Bool := m.src.all fun w => w.2.isSome

/-- The words that a move brings. -/
def Move.words (m : Move) : List (Nat × Bool × Nat) := m.src.filterMap Prod.snd

/-- One of the words of a wholly written line is written: what is left, and whether all of it is, with the poison of the whole. -/
def countDown (l : List (Nat × Nat × Bool)) (key n : Nat) (poison : Bool) : List (Nat × Nat × Bool) × Option Bool :=
  match getBy Prod.fst key l with
  | none => (l, none)
  | some k =>
    if k.2.1 ≤ n then (l.filter fun q => q.1 != key, some (k.2.2 || poison))
    else (putBy Prod.fst (key, k.2.1 - n, k.2.2 || poison) l, none)

/-- A word is written into a scratchpad: its data, flag and cause, and the mark of its granule, which is cleared once the
transfer has written all of it unpoisoned (R151, R153). -/
def putWord (c : Core) (off : Nat) (w : Nat × Bool × Nat) (whole : Option Bool) : Core :=
  let o := off - spadBase c.partN
  let c := (c.sput o (toBytes 4 w.1)).setFlag (o / 4) w.2.2
  if w.2.1 then c.setPoison (o / 64) true else if whole = some false then c.setPoison (o / 64) false else c

/-- A word is written into a ring register; no register holds poison, so that poisoned data is zero there (R380; log entry 49). -/
def putRing (c : Core) (r off : Nat) (w : Nat × Bool × Nat) : Core :=
  { c with pool := Mem.writes c.pool off (toBytes 4 (if w.2.1 then 0 else w.1)), dirty := c.dirty ||| (1#64 <<< r) }

/-- A move into a pool. -/
def writePool (b : Beat) (t : Tick) (d : Nat) (m : Move) : Tick :=
  let w := (m.words[0]?).getD (0, false, 0)
  let c := coreOf t.y (placeCore d)
  if b.x.kind = 6 then { t.use d with y := setCore t.y (putRing c b.x.shadow.ring (placeOff d) w) }
  else
    let (whole, done) := countDown t.whole (d / 64) 1 w.2.1
    { t.use d with y := setCore t.y (putWord c (placeOff d) w done), whole := whole }

/-- The bytes of words. -/
def wordBytes (ws : List (Nat × Bool × Nat)) : List RdByte := ws.flatMap fun w => (toBytes 4 w.1).map fun v => ⟨v, w.2.1, w.2.2⟩

/-- A move into memory (R146, R171): its post, its status, the notes of R187, R193 and R369. -/
def writeMem (b : Beat) (t : Tick) (d : Nat) (q : Option Xlat) (ws : List (Nat × Bool × Nat)) : Tick :=
  let bs := wordBytes ws
  let (whole, done) := countDown t.whole (d / 64) ws.length (ws.any fun w => w.2.1)
  let r := writeX b.s b.vk d q bs done
  let evs := (badTables b.s b.vk d bs.length).filter fun e => !t.noted.contains e.addr
  let y := noteWindow b.s (noteHeld b.s t.y b.x.core b.x.issue d (bs.map RdByte.val)) b.vk (some b.x.core) b.x.issue r.1
  let y := noteDirty { y with posts := y.posts ++ r.1 } (if r.1 = [] then [] else q.toList.flatMap (dirtyX b.s b.vk))
  { t.reach d with
    y := evs.foldl (fun y e => writeLineEvent y b.s.gtc b.vk e) y, status := worse t.status r.2
    noted := evs.map LineEvent.addr ++ t.noted
    whole := if r.1 = [] then t.whole.filter fun k => k.1 != d / 64 else whole }

/-- The words to which a move goes. -/
def Move.span (m : Move) : List Nat := destWords [m]

/-- A move that stays for another tick. -/
def Tick.keep (t : Tick) (m : Move) : Tick := { t with moves := m :: t.moves, held := m.span ++ t.held }

/-- A move whose words are read is written if it can be: never before an earlier one that shares a word with it (R148), a container of
a host-shared page only after those before it, and one in a tick, so that the host sees it first (R190). -/
def writeMove (b : Beat) (t : Tick) (m : Move) : Tick :=
  match m.dst with
  | none => t.keep m
  | some d =>
    let may := m.ready && !(b.x.dups && m.span.any t.held.contains)
    if b.x.shadow.toMemory then
      let (q, t) := b.xlat t d
      let hs := q.any Xlat.hostsh
      let go := may && !b.stalled q && b.moves (2 * (d / 8) + 1)
      if hs then
        if !go || t.hostsh then { t.keep m with hostsh := true }
        else
          let t := writeMem b t d q (m.words.take 1)
          match m.src.drop 1 with
          | [] => { t with hostsh := true }
          | rest => { t.keep ⟨some (d + 4), rest⟩ with hostsh := true }
      else if go then writeMem b t d q m.words
      else t.keep m
    else if may && b.moves (2 * (d / 4) + 1) && b.idle t d then writePool b t d m
    else t.keep m

/-- The tags of each core into which all is written (R150, R173). -/
def deliverTags (y : Sys) (x : Xfer) : Sys × Xfer :=
  let under := fun (t : Nat) => x.stage = 0 || x.moves.any fun m => m.dst.any fun d => placeCore d == t
  let y := (x.tags.filter fun p => !under p.1).foldl (fun y p =>
    let c := coreOf y p.1
    setCore y (if x.kind = 6 then { c with ringTags := c.ringTags.setIfInBounds p.2 (BitVec.ofNat 16 x.shadow.tag) }
      else c.setTag p.2 x.shadow.tag)) y
  (y, { x with tags := x.tags.filter fun p => under p.1 })

/-- The words that a transfer reads first are all read: what it moves then. A decrypt that fails moves nothing (R372). -/
def Xfer.resolved (s : State) (x : Xfer) : Xfer :=
  let y := s.sys
  let ws := x.moves.flatMap Move.words
  if x.stage ≠ 0 || !x.moves.all Move.ready then x
  else if x.kind = 3 then
    let (st, out) := decryptSource y x ws
    if st ≠ 0 then { x with stage := 2, moves := [], status := st }
    else x.moving y (destUnits x.shadow.toMemory (meetsHost s x.core (memDests x.shadow (x.pieces y)))
      ((sideWords y x.core x.shadow.toMemory x.shadow.xdst.toNat x.shadow.xcount0.toNat).zip (out.map fun v => (0, some (v, false, 0)))))
  else
    let x := { x with idx := ws.map Prod.fst, stage := 1 }
    x.moving y (copyMoves y x.core x.shadow (meetsHost s x.core (memDests x.shadow (x.pieces y))) (x.pieces y))

/-- Words of memory that were filled because their far end is gone end a transfer with REMOTE (R387). -/
def filled (mem : Bool) (ms : List Move) : Bool := mem && ms.any fun m => m.words.any fun w => w.2.2 == 3

/-- The lines that a tick has used are in use for scalar accesses and later transfers of the tick (R76). -/
def markUsed (y : Sys) (g : Nat) (used : List (Nat × Nat)) : Sys :=
  used.foldl (fun y u =>
    let c := coreOf y u.1
    let old := if c.xused.1 = g then c.xused.2 else 0
    setCore y { c with xused := (g, setBit old (u.2 % 64)) }) y

/-- The banks of this tick that lines have taken, beside those already in use. -/
def busyWith (busy used : List (Nat × Nat)) : List (Nat × Nat) :=
  used.foldl (fun l u => putBy Prod.fst (u.1, setBit (((getBy Prod.fst u.1 l).map Prod.snd).getD 0) (u.2 % 64)) l) busy

/-- A transfer may move: what it waits for is over, and no earlier invalidation of its channel is under way. -/
def Xfer.free (y : Sys) (x : Xfer) : Bool := waitMet y x.core x.shadow.toMemory x.after && !behindXinv y x

/-- A tick of a transfer that may move: units that were read are written, after those of the channel's earlier entries; then
units are read. -/
def moveUnits (busy : List (Nat × Nat)) (s : State) (x : Xfer) : Sys :=
  let g := s.gtc
  let b : Beat := {
    s := s, x := x, vk := vdKeyOf s.sys x.core, busy := busy, stalls := anyStall s.sys g, urgent := decide (x.urge ≤ g) }
  let mem := x.shadow.fromMemory && !(x.stage == 0 && x.kind != 3)
  let t : Tick := {
    y := s.sys, used := [], trans := x.trans, pages := [], status := x.status, whole := x.whole, noted := x.noted, held := []
    hostsh := false, moves := x.moves.reverse }
  let t := if x.stage = 1 && !channelBusy s.sys x 2 then x.moves.foldl (writeMove b) { t with moves := [] } else t
  let b := { b with busy := busyWith busy t.used }
  let left := t.moves.reverse
  let r := left.foldl (readMove b mem) { t with used := [], moves := [] }
  let moves := r.moves.reverse
  let y := r.pages.foldl (fun y p => noteXlat s y b.vk (65536 * p) 1) (markUsed r.y g (t.used ++ r.used))
  let x := { x with
    begun := some (x.begun.getD g), moves := moves, trans := if x.kind = 1 || x.kind = 2 then r.trans else [], whole := r.whole, noted := r.noted
    status := worse r.status (if filled mem moves then 5 else 0) }
  let x := x.resolved { s with sys := y }
  let x := if x.stage = 1 && x.moves == [] then { x with stage := 2 } else x
  setXfer { y with free := y.free + 1 } x

/-- Record an error of a channel (R175): at most 16 records; a 17th makes the last OVERFLOW, and none is recorded while that
stands. -/
def recordError (l : List (Nat × Nat)) (id st : Nat) : List (Nat × Nat) :=
  if l.any fun r => r.2 == 15 then l
  else if l.length < 16 then l ++ [(id, st)]
  else l.dropLast ++ (l.getLast?.map fun r => (r.1, 15)).toList

/-- The transfer is visible and leaves its channel, which records its error (R171, R175). -/
def leaveChannel (y : Sys) (x : Xfer) : Sys :=
  let y := { y with xfers := y.xfers.filter fun t => t.xid != x.xid }
  if x.status = 0 then y
  else
    let c := coreOf y x.core
    let h := c.chanAt x.chan
    setCore y (c.setChan x.chan { h with errors := recordError h.errors x.id x.status })

/-- The beginning of a transfer's tick (R150, R171): the tags of the cores into which all was written before; one that is all
written is visible, after its channel's earlier entries; another goes on to move units. -/
def settleXfer (s : State) (x : Xfer) : Sys :=
  let (y, x) := deliverTags s.sys x
  if x.stage = 2 && !channelBusy y x 3 then leaveChannel y x
  else
    let y := settleAt (setXfer y x) (s.gtc + 1) x
    if x.stage < 2 then deliverAt y s.gtc x 0 else y

/-- The cores whose pools a transfer has still to reach. -/
def Xfer.pools (x : Xfer) : List Nat :=
  let add := fun (l : List Nat) (p : Nat) => if l.contains (placeCore p) then l else placeCore p :: l
  let src := !x.shadow.fromMemory || (x.stage == 0 && x.kind != 3)
  x.moves.foldl (fun l m =>
    let l := if x.shadow.toMemory then l else m.dst.toList.foldl add l
    if src then (m.src.filter fun w => w.2.isNone).foldl (fun l w => add l w.1) l else l) []

/-- The write of a slot tag by xtag (R174): after the deliveries of the tick, over whose tags it stands. -/
def deliverTag (s : State) (x : Xfer) : Sys :=
  let y := { s.sys with xfers := s.sys.xfers.filter fun u => u.xid != x.xid }
  match spAddr s.sys x.core x.shadow.xdst.toNat with
  | some (t, o) => setCore y ((coreOf s.sys t).setTag (o / 4096) x.shadow.tag)
  | none => y

/-- The answer of an xtag (R174): the tag as it stands before its tick's deliveries; that of the answer's tick where the write
comes later (log entry 19). -/
def answerTag (s : State) (x : Xfer) : Sys :=
  match spAddr s.sys x.core x.shadow.xdst.toNat with
  | some (t, o) => { s.sys with answers := s.sys.answers ++ [⟨x.id, s.gtc, (coreOf s.sys t).slotTag (o / 4096), 0, none⟩] }
  | none => s.sys

/-- The virtual addresses that a transfer has still to reach: of its unread words and its destinations; of one whose indices or
ciphertext are not read yet, those of its pieces. -/
def Xfer.sides (y : Sys) (x : Xfer) : List Nat :=
  if 4 ≤ x.kind && x.kind ≠ 6 then []
  else if x.stage = 0 then
    (x.pieces y).flatMap fun p => (if x.shadow.fromMemory then [p.src] else []) ++ if x.shadow.toMemory then [p.dst] else []
  else x.moves.flatMap fun m =>
    (if x.shadow.fromMemory then (m.src.filter fun w => w.2.isNone).map Prod.fst else []) ++
    if x.shadow.toMemory then m.dst.toList else []

/-- The far ends of the links that a transfer has still to cross (R140, R383, R384). -/
def xferEnds (s : State) (x : Xfer) : List Nat :=
  let vk := vdKeyOf s.sys x.core
  (x.sides s.sys).filterMap fun a => (xlate s vk a).bind fun t => farEnd s.sys vk t.pa

/-- TRANSFER_DELIVERY (R150, R171, R174), with the banks in use by core: phase 1 sets tags and ends a transfer, 0 moves units, 3 sets
the tag of an xtag, 4 answers for one. -/
def transferEvent (busy : List (Nat × Nat)) (s : State) (x : Xfer) (phase : Nat) : Sys :=
  if phase = 0 then (if x.stage < 2 && x.free s.sys then moveUnits busy s x else s.sys)
  else if phase = 1 && x.stage < 3 then settleXfer s x
  else if phase = 3 then deliverTag s x
  else if phase = 4 then answerTag s x
  else s.sys

/-! ## xdrain (R175) -/

/-- The report of REPORT = 0: missing entries and error bit of each masked channel. -/
def drainReport (v : Env) (mask : Nat) : Nat :=
  (List.range 8).foldl (fun a ch =>
    if mask.testBit ch then
      let n := ((outstanding v.s.sys v.core ch).filter fun x => x.issue < v.s.gtc).length
      a + 256 ^ ch * (n % 128 + (if (v.c.chanAt ch).errors == [] then 0 else 128))
    else a) 0

/-- The lowest masked channel with an error record, and its oldest. -/
def oldestError (c : Core) (mask : Nat) : Option (Nat × Nat × Nat) :=
  (List.range 8).findSome? fun ch =>
    if mask.testBit ch then (c.chanAt ch).errors.head?.map fun r => (ch, r) else none

/-- XDRAIN. -/
def backXdrain (d a b : Nat) : Back := {
  names := fun _ => { sregs := [a, b] }
  op := fun v e =>
    let sel := e.op 0
    let report := sel.testBit 8
    let old := oldestError v.c (sel % 256)
    let val := if !report then drainReport v (sel % 256)
      else match old with | some (_, id, st) => id + st * 65536 | none => 0
    { unit := .xu
      deadline := e.op 1
      check := fun _ => if sel / 512 ≠ 0 then some (.trap causeOperand 0) else none
      issue := fun _ => ([landScalar v e (e.t v + 4) d val], [])
      fire := fun y =>
        match (if report then old else none) with
        | some (ch, _) =>
          let c := coreOf y v.core
          setCore y (c.setChan ch { c.chanAt ch with errors := (c.chanAt ch).errors.drop 1 })
        | none => y } }

/-- XDRAIN. -/
def execXdrain (d a b : Nat) : State → Result := back (backXdrain d a b) (.xdrain d a b)

/-! ## xtag (R174) -/

/-- The descriptor of xtag: a stop, a ring register, or a slot's core and offset. -/
def xtagStop (v : Env) (w : Nat) : Option Stop :=
  let part := v.c.partN
  let r := field w 5 0
  if field w 62 48 ≠ 0 then some (.trap causeOperand 0)
  else if w.testBit 63 then
    if field w 31 6 ≠ 0 then some (.trap causeOperand 0)
    else if isRing part r && decide (6 ≤ rdir part r) && ringReader (rdir part r) == v.role then none
    else some (.trap causeOperand 0)
  else if (spAddr v.s.sys v.core (field w 31 0)).isNone then some (.trap causeSpaddr 0) else none

/-- XTAG: the slot form takes effect in cycle t + 1 + e / 2 and answers with the tag that stands just before; the ring
form's new value stands from t + 1 on: it lands at the end of cycle t. -/
def backXtag (d a : Nat) : Back := {
  names := fun _ => { sregs := [a] }
  op := fun v e =>
    let w := e.op 0
    let g := v.s.gtc
    let j := field w 5 0 - rbase v.c.partN
    let ticket := v.s.sys.nextTicket
    let delay := match spTarget v.s.sys v.core (field w 31 0) with | some t => crossDelay v.core t / 2 | none => 0
    { unit := .xu
      check := fun _ => xtagStop v w
      issue := fun _ =>
        if w.testBit 63 then
          ([landScalar v e (e.t v + 4) d (v.c.ringExpected (field w 5 0)), landCsr v e (e.t v) (0x1000 + j) (field w 47 32)], [])
        else ([landAnswer v e (e.t v + 4) d 0 ticket (g + 4)], [])
      fire := fun y =>
        if w.testBit 63 then y
        else
          let x := { Xfer.admitted v 5 0 ticket g y.nextXid
              { Shadow.zero with xdst := d64 (field w 31 0), xopt := d64 (field w 47 32 * 256) } 0 with stage := 2 }
          let y := { y with xfers := y.xfers ++ [x], nextXid := y.nextXid + 1, nextTicket := ticket + 1 }
          deliverAt (deliverAt y (g + min 4 (1 + delay)) x 4) (g + 1 + delay) x 3 } }

/-- XTAG. -/
def execXtag (d a : Nat) : State → Result := back (backXtag d a) (.xtag d a)

/-! ## pgreq and xinv (R154, R176) -/

/-- The granules that a page request touches, in order of first touch. -/
def requestGranules (count base : Nat) (stride : Int) (e : Nat) : List Nat :=
  (List.range (min count 1048576)).foldl (fun l (j : Nat) =>
    let a := wrap 64 ((base : Int) + stride * (j : Int))
    let z := (a + e - 1) % 18446744073709551616
    if 144115188075855872 ≤ a || 144115188075855872 ≤ z then l
    else
      let l := if l.contains (a / 65536) then l else l ++ [a / 65536]
      if l.contains (z / 65536) then l else l ++ [z / 65536]) []

/-- A page request of one granule: counted in S2FAULT where stage 1 translates and stage 2 does not, and pushed to the
request queue by party 62 (R358; the granule is named by its intermediate address where it has one, log entry 39). -/
def postRequest (v : Env) (y : Sys) (gran : Nat) : Sys :=
  let vk := vdKeyOf y v.core
  let vd := vdOf y vk
  let ia := (stage1 { v.s with sys := { v.s.sys with cached := [] } } vk (gran * 65536)).map Prod.fst
  let name := match ia with | some i => i / 65536 | none => gran
  let y := if ia.isSome then setVd y { vd with s2count := min 65535 (vd.s2count + 1), s2gran := name } else y
  sendHome y v.s.gtc .homeQpush {
    obj := vd.pgqueue, party := 62, gen := 0, dl := name % 2199023255552 + v.dom.indexOf v.core * 2199023255552
    aux := 1, core := v.core, role := v.role, launch := 0, ticket := 0 }

/-- PGREQ. -/
def backPgreq (d a b : Nat) : Back := {
  names := fun _ => { sregs := [d, a, b] }
  op := fun v e => {
    unit := .xu
    fire := fun y =>
      let vk := vdKeyOf v.s.sys v.core
      let all := requestGranules (e.op 0) (e.op 1) (sx 64 (e.op 2)) (if wideOf e.mode.ety then 8 else 4)
      let now : State := { v.s with sys := { v.s.sys with cached := [] } }
      let need := (all.filter fun q => (xlate now vk (q * 65536)).isNone).take 1024
      need.foldl (postRequest v) (all.foldl (fun y q => noteTables v.s y vk (q * 65536) 1) y) } }

/-- PGREQ. -/
def execPgreq (d a b : Nat) : State → Result := back (backPgreq d a b) (.pgreq d a b)

/-- The tick by which an invalidation is over: once the channel's earlier entries, what a fence names, and every transfer of the
virtual device that may have used an old value are. -/
def invalDue (y : Sys) (core ch g : Nat) : Nat :=
  let vk := vdKeyOf y core
  let own := max (waitBound y core g (coreOf y core).toXfr) ((coreOf y core).chanAt ch).lastDue
  let d := vdOf y vk
  (y.xfers.filter fun x => vdKeyOf y x.core == vk).foldl (fun m x => max m x.due) (max own g) + 4 + Config.invalDelay d.key d.xgos

/-- XINV: an entry of a channel until the invalidation completes. -/
def backXinv (a b : Nat) : Back := {
  names := fun _ => { sregs := [a, b] }
  op := fun v e =>
    let w := e.op 1
    let ch := field w 34 32
    { unit := .xu
      check := fun _ =>
        if field w 63 35 ≠ 0 || 127 ≤ (outstanding v.s.sys v.core ch).length then some (.trap causeOperand 0) else none
      fire := fun y =>
        let g := v.s.gtc
        let c := coreOf y v.core
        let due := invalDue y v.core ch g
        let x := Xfer.admitted v 4 ch 0 due y.nextXid
          { Shadow.zero with xsrc := d64 (e.op 0), xcount0 := d64 (field w 31 0) } 0
        let y := setCore y (c.setChan ch { c.chanAt ch with lastDue := due })
        let y := countXgo { y with xfers := y.xfers ++ [x], nextXid := y.nextXid + 1, free := y.free + 1 } v.core
        schedule y (g + 2 + Config.unitDelay y.free % (due - g - 1)) (.xinvComplete v.core x.xid) { noMsg with party := x.xid } } }

/-- XINV. -/
def execXinv (a b : Nat) : State → Result := back (backXinv a b) (.xinv a b)

/-- A transfer of the virtual device still uses a translation that it made before, of a stage and range (R147, R148): the tables
and caches would no longer give it. Of stage 2 every such translation counts, since a page of the range may hold a table that
its walk read. -/
def usesOld (s : State) (vk : Nat) (st2 : Bool) (a n : Nat) : Bool :=
  s.sys.xfers.any fun x => vdKeyOf s.sys x.core == vk && decide (x.stage < 3) && x.trans.any fun p =>
    (st2 || n == 0 || (decide (a / 65536 ≤ p.1) && decide (p.1 < a / 65536 + n))) && p.2 != xlate s vk (65536 * p.1)

/-- XINV_COMPLETE (R147, R188): after every earlier entry of the channel is visible and what a fence names is over, no cache
holds an old value of the range any more (stage 0); a tick later, when what was written through one is visible, and once no
transfer uses one, the invalidation is complete and leaves its channel (stage 1). -/
def execXinvComplete (_core xid : Nat) : State → Result := lift fun s =>
  match xferOf s.sys xid with
  | none => s.sys
  | some x =>
    let vk := vdKeyOf s.sys x.core
    let a := x.shadow.xsrc.toNat
    let n := x.shadow.xcount0.toNat
    let again := fun (y : Sys) => schedule y (s.gtc + 1) (.xinvComplete x.core xid) { noMsg with party := xid }
    if x.stage = 0 then
      if channelBusy s.sys x 3 || !waitMet s.sys x.core true x.after then again s.sys
      else again (dropCached (setXfer s.sys { x with stage := 1 }) vk false a n)
    else if usesOld s vk false a n then again s.sys
    else { s.sys with xfers := s.sys.xfers.filter fun t => t.xid != xid }

end Sys2Proof.Machine
end

