-- ==== Sys2Proof/Machine/Collective.lean ====
section
/-! DEFINITION. Collectives (R317 to R333): plans and their admission, the home's events, and the walks, which move unit by
unit within their promise (log entry 26). -/

namespace Sys2Proof.Machine

/-! ## Plans (R319, R320, R322, R323) -/

/-- Its two's complement reading. -/
def atInt (bs : List Byte) (off n : Nat) : Int := sx (8 * n) (at' bs off n)

/-- The element size of a plan's type (R155, R320). -/
def planSize (t : ETy) : Nat := if t = .bin then 64 else if wideOf t then 8 else 4

/-- The types that an operation of a plan accepts (R320). -/
def planTypeOk (opk : Nat) (t : ETy) : Bool :=
  if opk = 0 then true
  else if opk = 1 then [ETy.f32, .f64, .bf16x2, .f16x2, .i32, .uint32, .i64, .uint64, .bin].contains t
  else [ETy.f32, .f64, .i32, .uint32, .i64, .uint64].contains t

/-- One level of a plan record. -/
def levelOf (bs : List Byte) (l : Nat) : PlanLevel := {
  count := at' bs (64 + 32 * l) 4, peermul := atInt bs (68 + 32 * l) 2
  sstride := atInt bs (72 + 32 * l) 8, dstride := atInt bs (80 + 32 * l) 8 }

/-- The plan that a record and a party table give. -/
def planOf (bs tab : List Byte) : Plan := {
  opk := at' bs 4 1, ety := etyOf (at' bs 5 1), srcsp := (at' bs 7 1).testBit 0, dstsp := (at' bs 7 1).testBit 1
  switch := (at' bs 7 1).testBit 2, tagset := (at' bs 7 1).testBit 3, srcbase := at' bs 8 8, dstbase := at' bs 16 8
  chunk := at' bs 24 4, tag := at' bs 28 2
  parties := (List.range (at' bs 30 1)).map fun p => (field (at' tab (4 * p) 4) 18 0, field (at' tab (4 * p) 4) 26 19)
  srank := atInt bs 40 8, drank := atInt bs 48 8, rankmul := atInt bs 56 2, peeroff := atInt bs 58 2
  levels := (List.range (at' bs 6 1)).map (levelOf bs) }

/-- The bound of a level for m present parties. -/
def levelBound (m : Nat) (l : PlanLevel) : Nat := if l.count = 0 then m else l.count

/-- The number of innermost iterations for m present parties. -/
def iterations (p : Plan) (m : Nat) : Nat := (p.levels.map (levelBound m)).foldl (· * ·) 1

/-- A base with its scratchpad bit names the party's own core (R320). -/
def baseOk (sp : Bool) (a : Nat) : Bool := !sp || (field a 63 30 == 0 && field a 29 22 == 255)

/-- The checks of R319 and R320 on a record and its party table, for a handle that expects some parties. -/
def planOk (va : Nat) (bs tab : List Byte) (expect : BitVec 64) : Bool :=
  let p := planOf bs tab
  let e := planSize p.ety
  let np := at' bs 30 1
  let mul := fun (x : Int) => x % (e : Int) == 0
  va % 64 == 0 && at' bs 0 4 == 0x4C4C4F43 && decide (p.opk ≤ 3) && decide (at' bs 5 1 ≤ 0x12) &&
  decide (1 ≤ at' bs 6 1) && decide (at' bs 6 1 ≤ 6) && decide (at' bs 7 1 < 16) &&
  p.chunk % e == 0 && decide (e ≤ p.chunk) && decide (p.chunk ≤ 65536) &&
  decide (1 ≤ np) && decide (np ≤ 64) && at' bs 31 1 == 0 && at' bs 32 8 % 64 == 0 && at' bs 60 4 == 0 &&
  planTypeOk p.opk p.ety && baseOk p.srcsp p.srcbase && baseOk p.dstsp p.dstbase &&
  mul p.srcbase && mul p.dstbase && mul p.srank && mul p.drank &&
  (p.levels.all fun l => decide (l.count ≤ 65536) && mul l.sstride && mul l.dstride) &&
  ((List.range (at' bs 6 1)).all fun l => at' bs (70 + 32 * l) 2 == 0 && at' bs (88 + 32 * l) 8 == 0) &&
  (p.opk == 0 || (p.rankmul == 0 && p.peeroff == 0 && p.levels.all fun l => l.peermul == 0)) &&
  ((List.range np).all fun q => field (at' tab (4 * q) 4) 31 27 == 0) &&
  decide (expect.toNat < 2 ^ np) && decide (iterations p np ≤ 16777216)

/-- ⌈log2 n⌉. -/
def ceilLog2 (n : Nat) : Nat := if n ≤ 1 then 0 else Nat.log2 (n - 1) + 1

/-- SPAN (R323). -/
def planSpan (p : Plan) (rlat bres : Nat) : Nat :=
  let n := p.parties.length
  let w := if p.opk = 0 then p.chunk * iterations p n else n * p.chunk * iterations p n
  64 + 2 * rlat + (if bres = 0 then w else ceilDiv w bres) + (if p.opk = 0 then 0 else 16 * ceilLog2 n)

/-- Admission of the plan of a handle that a launch writes (R322): the handle with its plan, or a refusal. -/
def admitPlan (s : State) (vk : Nat) (c : Coll) : Option Coll :=
  match loadVa s vk c.planVa 64 with
  | none => none
  | some hd =>
    match loadVa s vk c.planVa (64 + 32 * (at' hd 6 1 % 8)), loadVa s vk (at' hd 32 8) (4 * (at' hd 30 1 % 128)) with
    | some bs, some tab =>
      if planOk c.planVa bs tab c.expect then
        let p := planOf bs tab
        let v := vdOf s.sys vk
        some { c with plan := some p, span := planSpan p v.rlat v.bres, state1 := 1, pdone1 := 0, walks := [] }
      else none
    | _, _ => none

/-! ## The home's events (R324, R332, R333) -/

/-- Class of a generation: a handle retains one. -/
def collClass (o : Obj) (g : Nat) : GenClass :=
  match genClass o.gen (min o.resolved 1) g with
  | .resolved k => .resolved k
  | c => c

/-- The present parties of a resolution. -/
def presentOf (c : Coll) (absent : BitVec 64) : Nat := popcount 64 (c.expect &&& ~~~absent).toNat

/-- The resolution of the open generation at tick r (R324): the walk starts at W0; one of no party is DONE there (R325). -/
def resolveColl (y : Sys) (r : Nat) (o : Obj) (c : Coll) : Sys × Obj :=
  let absent := c.expect &&& ~~~c.arrived
  let w0 := max r c.pdone1
  let none := presentOf c absent == 0
  let t := if none then w0 else w0 + 1
  let c := { c with arrived := 0, deadline := 0, abs1 := absent, w0 := w0, pdone1 := w0 + c.span, state1 := 0 }
  let o : Obj := { o with gen := (o.gen + 1) % 4294967296, resolved := min (o.resolved + 1) 2 }
  if none && w0 == r then (y, { o with body := .coll { c with state1 := 1 } })
  else
    let w : Walk := {
      gen := (o.gen + 4294967295) % 4294967296, absent := absent, due := w0 + c.span, next := t, begun := false, since := 0
      left := [], whole := [], opened := [], aborted := false, tagged := [] }
    (schedule y t (.collWalkDone o.key w.gen) noMsg, { o with body := .coll { c with walks := c.walks ++ [w] } })

/-- Set the deadline of the open generation; one already past resolves it at once (R281, R324). -/
def setCollDeadline (y : Sys) (r d : Nat) (o : Obj) (c : Coll) : Sys × Obj :=
  if c.deadline ≠ 0 then (y, o)
  else if d < r then resolveColl y r o c
  else (schedule y d (.collResolution o.key) noMsg, { o with body := .coll { c with deadline := d } })

/-- The collective of a handle. -/
def collOf (y : Sys) (h : Nat) : Option (Obj × Coll) :=
  match objOf y h with
  | some o => match o.body with
    | .coll c => some (o, c)
    | _ => none
  | none => none

/-- The answer to a coll about a generation that is not open. -/
def collLate (o : Obj) (c : Coll) (g : Nat) : Nat × Nat :=
  match collClass o g with
  | .resolved _ => (stLate, c.abs1.toNat)
  | .ahead => (stAhead, 0)
  | _ => (stStale, 0)

/-- HOME_COLL (R332). -/
def execHomeColl : State → Result := lift fun s =>
  let y := s.sys
  let m := y.msg
  let r := s.gtc
  match collOf y m.obj with
  | none => y
  | some (o, c) =>
    if !inSet c.expect m.party then reply y r m 0 stNotmember 255 o.gen
    else if collClass o m.gen ≠ .opened then reply y r m (collLate o c m.gen).2 (collLate o c m.gen).1 255 o.gen
    else if c.deadline ≠ 0 && c.deadline ≠ m.dl then reply y r m 0 stMismatch 255 o.gen
    else
      let (y, o) := setCollDeadline y r m.dl o c
      match o.body with
      | .coll c =>
        if collClass o m.gen = .opened then
          reply (setObj y { o with body := .coll { c with arrived := c.arrived ||| partyBit m.party } }) r m 0 stOk 255 o.gen
        else reply (setObj y o) r m (collLate o c m.gen).2 (collLate o c m.gen).1 255 o.gen
      | _ => y

/-- HOME_COLLWAIT (R332). -/
def execHomeCollwait : State → Result := lift fun s =>
  let y := s.sys
  let m := y.msg
  let r := s.gtc
  match collOf y m.obj with
  | none => y
  | some (o, c) =>
    if !inSet c.expect m.party then reply y r m 0 stNotmember 255 o.gen
    else
      match collClass o m.gen with
      | .resolved _ =>
        if inSet c.abs1 m.party then reply y r m c.abs1.toNat stAbsent 255 o.gen
        else if c.state1 = 1 then reply y r m c.abs1.toNat stOk 255 o.gen
        else if c.state1 = 0 then reply y r m c.abs1.toNat stPending 255 (min (c.pdone1 - r) 4294967295)
        else reply y r m c.abs1.toNat stCancelled 255 o.gen
      | .stale => reply y r m 0 stStale 255 o.gen
      | _ => reply y r m 0 stAhead 255 o.gen

/-- An aborted walk: the iterations that have begun are delivered, the others are not, and no tag is set (R333). -/
def Walk.abort (w : Walk) : Walk :=
  { w with aborted := true, left := w.left.filter fun u => w.opened.contains (u.rank, u.it) }

/-- HOME_COLLABORT (R332, R333). -/
def execHomeCollabort : State → Result := lift fun s =>
  let y := s.sys
  let m := y.msg
  match collOf y m.obj with
  | none => y
  | some (o, c) =>
    if !inSet c.expect m.party then reply y s.gtc m 0 stNotmember 255 o.gen
    else if c.state1 = 0 then
      let walks := c.walks.map fun w => if (w.gen + 1) % 4294967296 = o.gen then w.abort else w
      reply (setObj y { o with body := .coll { c with state1 := 2, walks := walks } }) s.gtc m 0 stOk 255 o.gen
    else reply y s.gtc m c.state1 stOk 255 o.gen

/-- COLL_RESOLUTION (R324). -/
def execCollResolution (h : Nat) : State → Result := lift fun s =>
  match collOf s.sys h with
  | none => s.sys
  | some (o, c) =>
    if c.deadline = 0 || s.gtc < c.deadline then s.sys
    else
      let (y, o) := resolveColl s.sys s.gtc o c
      setObj y o

/-! ## The walks (R325 to R329) -/

/-- A party of a walk: its number, its virtual device, its core and whether its chip is gone. -/
structure Party where
  idx  : Nat
  vk   : Nat
  core : Nat
  gone : Bool

/-- The parties of a plan that are expected and not absent, in rank order (R325). -/
def walkParties (y : Sys) (vdid : Nat) (p : Plan) (expect absent : BitVec 64) : List Party :=
  ((List.range p.parties.length).filter fun i => inSet expect i && !inSet absent i).map fun i =>
    let q := (p.parties[i]?).getD (0, 0)
    let vk := q.1 * 32 + vdid
    { idx := i, vk := vk, core := ((vdOf y vk).cores[q.2]?).getD (q.1 * 192), gone := chipRemoved y vk q.1 }

/-- The scratchpad offset at a displacement from a base, if it exists on the core. -/
def walkOff (y : Sys) (core base : Nat) (d : Int) : Option Nat :=
  let o := (field base 21 0 : Int) + d
  if o < 0 || o ≥ 4194304 then none
  else if o.toNat < spadSize (coreOf y core).partN then some o.toNat else none

/-- The place at a displacement from a scratchpad base, if it exists on the core. -/
def walkPlace (y : Sys) (core base : Nat) (d : Int) : Option Nat :=
  (walkOff y core base d).map fun o => placeOf core (spadBase (coreOf y core).partN + o)

/-- The virtual address at a displacement from a base, if its bits [63:57] are zero. -/
def walkVa (base : Nat) (d : Int) : Option Nat :=
  let a := wrap 64 ((base : Int) + d)
  if a < 144115188075855872 then some a else none

/-- A walker's destination has a place for a whole chunk. -/
def walkRoom (y : Sys) (p : Plan) (core : Nat) (d : Int) : Bool :=
  let e := d + (p.chunk : Int) - 1
  if p.dstsp then (walkOff y core p.dstbase d).isSome && (walkOff y core p.dstbase e).isSome
  else (walkVa p.dstbase d).isSome && (walkVa p.dstbase e).isSome

/-- A node of the tree over one element of a type (R216): its sub-elements apart, records merged. -/
def walkNode (opk : Nat) (t : ETy) (a b : Nat) : Nat :=
  if t = .bin then
    let w := fun (x i : Nat) => x / 2 ^ (32 * i) % 4294967296
    ((Binned.ofWords (w a)).merge (Binned.ofWords (w b))).words.foldr (fun x acc => x + 4294967296 * acc) 0
  else
    let k := widthOf t
    let n := (if wideOf t then 64 else 32) / k
    (List.range n).foldl (fun acc j =>
      let x := a / 2 ^ (k * j) % 2 ^ k
      let z := b / 2 ^ (k * j) % 2 ^ k
      let v := if opk = 1 then addStep t .rne (drawFor 0 0 0 0 0) x z else if opk = 2 then maxOf t x z else minOf t x z
      acc + v * 2 ^ (k * j)) 0

/-- The identity of an operation over one element of a type (R216). -/
def walkIdentity (opk : Nat) (t : ETy) : Nat :=
  let k := widthOf t
  let one := if opk = 2 then leastOf t else if opk = 3 then greatestOf t else if isInt t || t = .bin then 0 else 2 ^ (k - 1)
  (List.range ((if wideOf t then 64 else 32) / k)).foldl (fun acc j => acc + one * 2 ^ (k * j)) 0

/-- A leaf: the reduction of the one element that a party gives (R215, R325). -/
def walkLeaf (opk : Nat) (t : ETy) (x : Nat) : Nat := walkNode opk t (walkIdentity opk t) x

/-- The index vectors of a walk in lexicographic order. -/
def indexVectors (m : Nat) : List PlanLevel → List (List Nat)
  | [] => [[]]
  | l :: ls => (List.range (levelBound m l)).flatMap fun i => (indexVectors m ls).map fun r => i :: r

/-- Words for a walker's destination as units: of 8 bytes in memory, of 4 in a scratchpad (R178). -/
def unitsFrom (p : Plan) (rank it : Nat) (dst : Option Int) : List WalkWord → List WalkUnit
  | a :: b :: l =>
    if !p.dstsp && dst.any fun d => ((p.dstbase : Int) + d) % 8 == 0 then
      ⟨rank, it, dst, [[a, b]], false⟩ :: unitsFrom p rank it (dst.map fun d => d + 8) l
    else ⟨rank, it, dst, [[a]], false⟩ :: unitsFrom p rank it (dst.map fun d => d + 4) (b :: l)
  | [a] => [⟨rank, it, dst, [[a]], false⟩]
  | [] => []

/-- The words of n bytes at a displacement from a party's base, to be read. -/
def walkWords (rank : Nat) (d : Int) (n : Nat) : List WalkWord := (List.range (n / 4)).map fun i : Nat => ⟨rank, d + 4 * (i : Int), none⟩

/-- The reductions of the elements of a chunk from an offset on: one element to a unit, or two of 4 bytes that share one of memory
(R178). -/
def foldUnits (p : Plan) (e rank it parties : Nat) (soff : Int) (dst : Option Int) : Nat → Nat → List WalkUnit
  | 0, _ => []
  | fuel + 1, o =>
    let d := dst.map fun d => d + (o : Int)
    let n := if e = 4 && o + 8 ≤ p.chunk && !p.dstsp && d.any fun d => ((p.dstbase : Int) + d) % 8 == 0 then 8 else e
    if p.chunk ≤ o then []
    else ⟨rank, it, d, (List.range parties).map fun k => walkWords k (soff + (o : Int)) n, true⟩ ::
      foldUnits p e rank it parties soff dst fuel (o + n)

/-- The units of one iteration of a walker: a copy's chunk, or the reductions of its elements (R325). -/
def iterationUnits (y : Sys) (p : Plan) (ps : List Party) (r it : Nat) (ix : List Nat) : List WalkUnit :=
  let sum := fun (f : PlanLevel → Int) => ((p.levels.zip ix).map fun q => f q.1 * (q.2 : Int)).foldl (· + ·) 0
  let soff := p.srank * (r : Int) + sum PlanLevel.sstride
  let doff := p.drank * (r : Int) + sum PlanLevel.dstride
  let q := ((p.rankmul * (r : Int) + sum PlanLevel.peermul + p.peeroff) % (ps.length : Int)).toNat
  let dst := if ps[r]?.any fun w => walkRoom y p w.core doff then some doff else none
  if p.opk = 0 then unitsFrom p r it dst (walkWords q soff p.chunk)
  else foldUnits p (planSize p.ety) r it ps.length soff dst p.chunk 0

/-- The units of a walk, walker by walker, in the order of their iterations. -/
def walkUnits (y : Sys) (p : Plan) (ps : List Party) : List WalkUnit :=
  let ixs := indexVectors ps.length p.levels
  (List.range ps.length).flatMap fun r => ((List.range ixs.length).zip ixs).flatMap fun ix => iterationUnits y p ps r ix.1 ix.2

/-- The key of the destination line at a displacement of a walker. -/
def walkLine (y : Sys) (p : Plan) (ps : List Party) (r : Nat) (d : Int) : Option Nat :=
  match ps[r]? with
  | none => none
  | some w => (if p.dstsp then walkPlace y w.core p.dstbase d else walkVa p.dstbase d).map fun a => (r * 2 ^ 60 + a / 64) * 16 + a % 64 / 4

/-- The number of words of a unit's destination. -/
def WalkUnit.size (u : WalkUnit) : Nat := (u.leaves.headD []).length

/-- The words of a unit's destination. -/
def WalkUnit.span (u : WalkUnit) : List (Nat × Int) :=
  match u.dst with
  | some d => (List.range u.size).map fun i : Nat => (u.rank, d + 4 * (i : Int))
  | none => []

/-- A walk begins (R324): its units, and the lines that they cover wholly. -/
def Walk.start (y : Sys) (g : Nat) (p : Plan) (ps : List Party) (w : Walk) : Walk :=
  let us := walkUnits y p ps
  let words := (us.flatMap WalkUnit.span).filterMap fun q => (walkLine y p ps q.1 q.2).map fun k => 4 * k
  { w with
    begun := true, since := g, left := us
    whole := ((coverage words).1.filter fun k => k.2.1 == 65535).map fun k => (k.1, k.2.2, false) }

/-- What the tick of a walk works with: the machine at its beginning, the handle and the walk, the plan, the present parties,
whether every chance to move is used, whether reads and whether writes can wait no longer, and the banks in use by core. -/
structure WalkBeat where
  s      : State
  h      : Nat
  w      : Walk
  p      : Plan
  ps     : List Party
  urgent : Bool
  lastRd : Bool
  lastWr : Bool
  busy   : List (Nat × Nat)

/-- What the tick of a walk has come to: the machine, the lines used, the destination words that wait, the walkers whose
host-shared container has had its turn, what is left of whole lines, and the units left, the last first. -/
structure WalkTick where
  y     : Sys
  used  : List (Nat × Nat)
  held  : List (Nat × Int)
  hosts : List Nat
  whole : List (Nat × Nat × Bool)
  left  : List WalkUnit
  opened : List (Nat × Nat)

/-- The link to a party stalls. -/
def WalkBeat.stalled (b : WalkBeat) (w : Party) : Bool :=
  w.vk / 32 != b.s.sys.mgmt.chip && linkShut b.s w.vk (w.vk / 32)

/-- The number of a choice of a walk about a unit of a source (of a destination: k = 64): of a copy also of its walker and iteration;
the leaves of a reduction are the same for every walker (R217). -/
def choiceKey (u : WalkUnit) (k a : Nat) : Nat := ((if u.fold then 0 else 1 + u.rank + 64 * u.it) * 65 + k) * 2 ^ 64 + a

/-- What a party's part of the walk waits for (R177, R329). -/
def partWait (y : Sys) (h gen : Nat) (w : Party) : Wait :=
  (((coreOf y w.core).colls.find? fun q => q.key == (h, gen, w.idx)).map CollRef.after).getD .none

/-- A word of a party's scratchpad as a walk reads it. -/
def walkPool (b : WalkBeat) (q : Party) (o : Nat) : Nat × Bool × Nat :=
  let c := coreOf (heldView b.s.sys q.core (partWait b.s.sys b.h b.w.gen q)) q.core
  let i := placeOff o - spadBase c.partN
  (c.snat i 4, c.poisoned i, c.flagCause (i / 4))

/-- A unit of a walk's load that was outstanding when a chip was removed has crossed before (R386; free, log entry 29): by the
generation and the number of the unit. -/
def Walk.hasCrossed (w : Walk) (far key : Nat) : Bool := w.crossed.contains far && Config.crossed ((w.gen * 2 ^ 24 + w.since) * 2 ^ 80 + key)

/-- What a word of a removed chip gives (R327, R386): the fill, or the data of a unit that has crossed before the removal. -/
def walkGone (b : WalkBeat) (q : Party) (key : Nat) (data : State → Nat × Bool × Nat) : Nat × Bool × Nat :=
  if b.w.hasCrossed (q.vk / 32) key then data { b.s with sys := unremoved b.s.sys (q.vk / 32) } else (0x7FDADBAD, false, 3)

/-- The machine whose tables a walk reads for a source (R386): a table walk through an aperture may have crossed before a removal. -/
def walkTables (b : WalkBeat) (va : Nat) : State :=
  if b.w.crossed != [] && Config.crossed ((b.w.gen * 2 ^ 24 + b.w.since) * 2 ^ 80 + 2 ^ 79 + va / 65536) then
    { b.s with sys := b.w.crossed.foldl unremoved b.s.sys }
  else b.s

/-- The number of the unit of a source word, where it has a place. -/
def walkKey (y : Sys) (p : Plan) (q : Party) (u : WalkUnit) (w : WalkWord) : Option Nat :=
  if p.srcsp then (walkPlace y q.core p.srcbase w.disp).map fun o => choiceKey u w.rank (o / 4)
  else (walkVa p.srcbase w.disp).map fun va => choiceKey u w.rank (va / 8)

/-- One source word of a unit is read if it can be (R327): the words of one unit of memory in one tick; one out of place as zero. -/
def walkRead (b : WalkBeat) (u : WalkUnit) (a : WalkTick × List WalkWord) (w : WalkWord) : WalkTick × List WalkWord :=
  let (t, l) := a
  let stay := (t, l ++ [w])
  let put := fun (t : WalkTick) (v : Nat × Bool × Nat) =>
    ({ t with opened := if t.opened.contains (u.rank, u.it) then t.opened else (u.rank, u.it) :: t.opened }, l ++ [{ w with got := some v }])
  let now := fun (k : Nat) => b.urgent || Config.unitNow b.s.sys.free k
  if w.got.isSome then stay
  else
    match b.ps[w.rank]? with
    | none => put t (0, false, 0)
    | some q =>
      if b.p.srcsp then
        match walkPlace b.s.sys q.core b.p.srcbase w.disp with
        | none => put t (0, false, 0)
        | some o =>
          let key := choiceKey u w.rank (o / 4)
          if q.gone then put t (walkGone b q key fun s => walkPool { b with s := s } q o)
          else if b.stalled q then stay
          else if b.lastRd || (now key && lineIdle b.busy t.used o) then
            put { t with used := useLine t.used o, y := notePool t.y b.s.gtc o } (walkPool b q o)
          else stay
      else
        match walkVa b.p.srcbase w.disp with
        | none => put t (0, false, 0)
        | some va =>
          let key := choiceKey u w.rank (va / 8)
          let data := fun (s : State) => wordOf ((List.range 4).map fun i => readVaFor s q.core s.gtc q.vk (va + i))
          if q.gone then put t (walkGone b q key data)
          else if b.stalled q || !now key || crossesStall b.s q.vk (xlate b.s q.vk va) then stay
          else put { t with y := noteReads b.s (noteXlat b.s t.y q.vk va 4) q.vk va 4 } (data (walkTables b va))

/-- The reductions of the elements of a unit whose words are all read, as units of words (R325, R327): poison and fills come along. -/
def WalkUnit.reduced (p : Plan) (u : WalkUnit) : List WalkUnit :=
  let words := u.leaves.map fun l => l.filterMap WalkWord.got
  if !u.fold then [u]
  else if words.any fun l => l.length != u.size then [u]
  else
    let n := planSize p.ety / 4
    unitsFrom p u.rank u.it u.dst ((List.range (u.size / n)).flatMap fun x =>
      let parts := words.map fun l => (l.drop (n * x)).take n
      let vals := parts.map fun l => walkLeaf p.opk p.ety (l.foldr (fun w acc => w.1 + 4294967296 * acc) 0)
      let v := (canonical (walkNode p.opk p.ety) 7 vals).headD 0
      let all := parts.flatten
      let cause := if all.any fun w => w.2.2 == 3 then 3 else if all.any fun w => w.2.2 == 1 then 1 else 0
      let poison := all.any fun w => w.2.1
      (List.range n).map fun i => ⟨u.rank, 0, some (v / 2 ^ (32 * i) % 4294967296, poison, cause)⟩)

/-- The words of a unit are read, each that can be. -/
def walkReads (b : WalkBeat) (t : WalkTick) (u : WalkUnit) : WalkTick :=
  let r := u.leaves.foldl (fun (a : WalkTick × List (List WalkWord)) l =>
    let q := l.foldl (walkRead b u) (a.1, [])
    (q.1, a.2 ++ [q.2])) (t, [])
  { r.1 with left := (WalkUnit.reduced b.p { u with leaves := r.2 }).reverse ++ r.1.left }

/-- A unit that stays for another tick. -/
def WalkTick.keep (t : WalkTick) (u : WalkUnit) : WalkTick := { t with left := u :: t.left, held := u.span ++ t.held }

/-- A unit is written into the scratchpad of its walker. -/
def walkPut (b : WalkBeat) (t : WalkTick) (w : Party) (o : Nat) (u : WalkUnit) (v : Nat × Bool × Nat) : WalkTick :=
  let key := ((walkLine b.s.sys b.p b.ps u.rank (u.dst.getD 0)).getD 0) / 16
  let (whole, done) := countDown t.whole key 1 v.2.1
  { t with y := setCore t.y (putWord (coreOf t.y w.core) (placeOff o) v done), used := useLine t.used o, whole := whole }

/-- A unit is posted to the memory of its walker (R146, R171): a page that takes no write loses it (R327). -/
def walkPost (b : WalkBeat) (t : WalkTick) (w : Party) (a : Nat) (q : Option Xlat) (u : WalkUnit) (ws : List (Nat × Bool × Nat)) : WalkTick :=
  let key := ((walkLine b.s.sys b.p b.ps u.rank (u.dst.getD 0)).getD 0) / 16
  let bs := wordBytes ws
  let (whole, done) := countDown t.whole key ws.length (ws.any fun v => v.2.1)
  let r := writeX b.s w.vk a q bs done
  let y := noteXlat b.s (noteTables b.s t.y w.vk a 4) w.vk a 4
  let y := noteWindow b.s (noteHeld b.s y w.core b.s.gtc a (bs.map RdByte.val)) w.vk (some w.core) b.w.since r.1
  { t with
    y := noteDirty { y with posts := y.posts ++ r.1 } (if r.1 = [] then [] else q.toList.flatMap (dirtyX b.s w.vk))
    whole := if r.1 = [] then t.whole.filter fun k => k.1 != key else whole }

/-- A unit whose words are read is written if it can be: never before an earlier one of its walker to the same place (R325),
and a container of a host-shared page only after the walker's earlier ones, one in a tick, so that the host sees it first (R190). -/
def walkWrite (b : WalkBeat) (t : WalkTick) (u : WalkUnit) : WalkTick :=
  let ws := (u.leaves.headD []).filterMap WalkWord.got
  match u.dst, b.ps[u.rank]? with
  | some d, some w =>
    if w.gone then t
    else if u.fold || ws.length != u.size || b.stalled w || u.span.any t.held.contains then t.keep u
    else
      let now := b.urgent || Config.unitNow b.s.sys.free (choiceKey u 64 (wrap 64 d))
      if b.p.dstsp then
        match walkPlace b.s.sys w.core b.p.dstbase d with
        | none => t
        | some o => if b.lastWr || (now && lineIdle b.busy t.used o) then walkPut b t w o u (ws.headD (0, false, 0)) else t.keep u
      else
        match walkVa b.p.dstbase d with
        | none => t
        | some a =>
          let q := xlate b.s w.vk a
          if !now || crossesStall b.s w.vk q then t.keep u
          else if !(q.any Xlat.hostsh) then walkPost b t w a q u ws
          else if t.hosts.contains u.rank || t.held.any fun h => h.1 == u.rank then t.keep u
          else
            let t := walkPost b { t with hosts := u.rank :: t.hosts } w a q u (ws.take 1)
            match (u.leaves.headD []).drop 1 with
            | [] => t
            | rest => t.keep { u with dst := some (d + 4), leaves := [rest] }
  | _, _ => if ws.length == u.size && !u.fold then t else t.keep u

/-- A tick of a walk that has begun: units that were read are written, then units are read. -/
def walkTick (busy : List (Nat × Nat)) (s : State) (h : Nat) (p : Plan) (ps : List Party) (w : Walk) : Sys × Walk :=
  let g := s.gtc
  let b : WalkBeat := {
    s := s, h := h, w := w, p := p, ps := ps, busy := busy, urgent := decide (w.due ≤ g + 2 + 2 * w.left.length)
    lastRd := decide (w.due ≤ g + 2), lastWr := decide (w.due ≤ g + 1) }
  let t := w.left.foldl (walkWrite b)
    { y := s.sys, used := [], held := [], hosts := [], whole := w.whole, left := [], opened := w.opened }
  let b := { b with busy := busyWith busy t.used }
  let r := t.left.reverse.foldl (walkReads b) { t with used := [], left := [] }
  let y := markUsed r.y g (t.used ++ r.used)
  ({ y with free := y.free + 1 }, { w with left := r.left.reverse, whole := r.whole, opened := r.opened })

/-- The tags of the scratchpad slots that a walker has delivered into (R150, R329). -/
def walkTags (y : Sys) (p : Plan) (m r : Nat) (w : Party) : Sys :=
  if !p.tagset || !p.dstsp || w.gone then y
  else (indexVectors m p.levels).foldl (fun y (ix : List Nat) =>
    let d := p.drank * (r : Int) + ((p.levels.zip ix).map fun q => q.1.dstride * (q.2 : Int)).foldl (· + ·) 0
    match walkOff y w.core p.dstbase d, walkOff y w.core p.dstbase (d + (p.chunk : Int) - 1) with
    | some a, some b => (List.range (b / 4096 - a / 4096 + 1)).foldl (fun y i =>
        setCore y ((coreOf y w.core).setTag (a / 4096 + i) p.tag)) y
    | _, _ => y) y

/-- The walkers whose last unit was written before this tick have their tags set, unless the walk was aborted (R150, R329, R333). -/
def settleTags (y : Sys) (p : Plan) (ps : List Party) (w : Walk) : Sys × Walk :=
  if !w.begun || w.aborted then (y, w)
  else
    let done := (List.range ps.length).filter fun r => !w.tagged.contains r && !w.left.any fun u => u.rank == r
    (done.foldl (fun y r => match ps[r]? with | some q => walkTags y p ps.length r q | none => y) y, { w with tagged := w.tagged ++ done })

/-- A collective without one of its walks, or with it changed. -/
def Coll.putWalk (c : Coll) (g : Nat) (w : Option Walk) : Coll :=
  { c with walks := (c.walks.filter fun v => v.gen != g) ++ w.toList }

/-- A walk is over (R324): STATE1 is DONE where its generation is the last one resolved and it was not aborted. -/
def endWalk (y : Sys) (h : Nat) (w : Walk) : Sys :=
  match collOf y h with
  | none => y
  | some (o, c) =>
    let c := c.putWalk w.gen none
    let c := if o.gen = (w.gen + 1) % 4294967296 && !w.aborted then { c with state1 := 1 } else c
    setObj y { o with body := .coll c }

/-- What a walk waits for before it begins: the walk before it, what fences before its parties' colls named, and links that are
shut (R177, R329, R383; log entry 26). -/
def walkWaits (s : State) (h : Nat) (c : Coll) (ps : List Party) (w : Walk) : Bool :=
  (c.walks.headD w).gen != w.gen || ps.any fun q => (q.vk / 32 != s.sys.mgmt.chip && linkShut s q.vk (q.vk / 32)) ||
    !waitMet s.sys q.core true (partWait s.sys h w.gen q)

/-- COLL_WALK_DONE (R324, R329), with the banks in use by core: a tick of a walk. One whose units were all written before is
over; its deliveries are visible in this tick. Another begins if it may, and moves units. -/
def walkEvent (busy : List (Nat × Nat)) (s : State) (h gen : Nat) : Sys :=
  let y := s.sys
  match collOf y h with
  | none => y
  | some (o, c) =>
    match c.walks.find? fun w => w.gen == gen && w.next == s.gtc with
    | none => y
    | some w =>
      match c.plan with
      | none => endWalk y h w
      | some p =>
        let ps := walkParties y o.vdid p c.expect w.absent
        let (y, w) := settleTags y p ps w
        if ps.isEmpty || ((w.begun || w.aborted) && w.left == []) then endWalk y h w
        else
          let w := { w with next := s.gtc + 1 }
          let s := { s with sys := y }
          let (y, w) := if !w.begun && walkWaits s h c ps w then (y, w)
            else walkTick busy s h p ps (if w.begun then w else w.start y s.gtc p ps)
          let y := match collOf y h with
            | some (o, c) => setObj y { o with body := .coll { c with walks := c.walks.map fun v => if v.gen = gen then w else v } }
            | none => y
          schedule y (s.gtc + 1) (.collWalkDone h gen) noMsg

/-- The cores of a handle's walks (R325). -/
def walkCores (y : Sys) (h : Nat) : List Nat :=
  match collOf y h with
  | some (o, c) => match c.plan with
    | some p => (walkParties y o.vdid p c.expect 0).map Party.core
    | none => []
  | none => []

end Sys2Proof.Machine
end

