-- ==== Sys2Proof/Machine/Links.lean ====
section
/-! DEFINITION. Stalls of links (R381 to R384, R392): what a tick in which a link does not carry its traffic does to that traffic. -/

namespace Sys2Proof.Machine

/-- The link to a far end does not carry traffic in a tick (R383, R384, R392; log entry 68). -/
def farDown (y : Sys) (g far : Nat) : Bool := if far = hostEnd then decide (g < y.mgmt.hostStall) else linkDown y g far

/-- An event that would cross a link in a tick in which it is down comes a tick later. -/
def delayEvent (y : Sys) (g : Nat) (e : Nat × Instr × HomeMsg) : Nat × Instr × HomeMsg :=
  if e.1 ≤ g && (eventFar y e.2.1 e.2.2).any (farDown y g) then (g + 1, e.2) else e

/-- The same of an answer. -/
def delayAnswer (y : Sys) (g : Nat) (a : Answer) : Answer :=
  if a.tick ≤ g && a.far.any (farDown y g) then { a with tick := g + 1 } else a

/-- The transfers that a tick delays: those that have still to cross a link that is shut, those behind them in their channels, and
those whose fences wait for them. -/
def delayedXfers (s : State) : List Nat :=
  s.sys.xfers.foldl (fun l x =>
    if x.stage < 3 && x.kind != 5 && ((xferEnds s x).any (farShut s (vdKeyOf s.sys x.core)) || x.after.xids.any l.contains ||
      s.sys.xfers.any fun t => l.contains t.xid && t.core == x.core && t.chan == x.chan)
    then x.xid :: l else l) []

/-- A transfer promised a tick later. -/
def Xfer.later (x : Xfer) : Xfer := { x with due := x.due + 1, urge := x.urge + 1 }

/-- A tick delays the walks of a collective: the first of them, under way or about to begin, has a party behind a link that is
shut. -/
def collDelayed (s : State) (o : Obj) (c : Coll) : Bool :=
  match c.walks, c.plan with
  | w :: _, some p => decide (w.next ≤ s.gtc) && (walkParties s.sys o.vdid p c.expect w.absent).any fun q =>
      q.vk / 32 != s.sys.mgmt.chip && linkShut s q.vk (q.vk / 32)
  | _, _ => false

/-- What the delays of a tick do to the promises of an object: PDONE1 and the walks of a collective, the effect of a release whose
covered transfers are delayed (R186, R324). -/
def delayObj (s : State) (late : List Nat) (o : Obj) : Obj :=
  match o.body with
  | .coll c =>
    if collDelayed s o c then
      { o with body := .coll { c with
          pdone1 := if c.state1 = 0 then c.pdone1 + 1 else c.pdone1, walks := c.walks.map fun w => { w with due := w.due + 1 } } }
    else o
  | .lock l => if l.covers.any late.contains then { o with body := .lock { l with reltick := l.reltick + 1 } } else o
  | _ => o

/-- What the next tick does to the traffic of links that are down in it: events and answers come a tick later, and every promised tick of
the traffic is later by one (R383), so that a stall extends each by exactly what it delays it. -/
def stallTick (s : State) (y : Sys) : Sys :=
  let g := s.gtc + 1
  if !anyStall s.sys g then y
  else
    let t : State := { s with gtc := g }
    let late := delayedXfers t
    { y with
      sched := y.sched.map (delayEvent s.sys g)
      answers := y.answers.map (delayAnswer s.sys g)
      xfers := y.xfers.map fun x => if late.contains x.xid then x.later else x
      objs := y.objs.map (delayObj t late) }

end Sys2Proof.Machine
end

