-- ==== Sys2Proof/Machine/BackTable.lean ====
section
/-! DEFINITION. The back-end instructions that an issue queue can hold, each with its meaning in its entry. (vsave, vrestore
and replay run in handler mode alone and never enter a queue, R133.) -/

namespace Sys2Proof.Machine

/-- The back-end meaning of an instruction. -/
def backOf : Instr → Option Back
  | .vadd d a b => some (backVadd d a b)
  | .vsub d a b => some (backVsub d a b)
  | .vmul d a b => some (backVmul d a b)
  | .vmulh d a b => some (backVmulh d a b)
  | .vmacc d a b => some (backVmacc d a b)
  | .vmin d a b => some (backVmin d a b)
  | .vmax d a b => some (backVmax d a b)
  | .vand d a b => some (backVand d a b)
  | .vor d a b => some (backVor d a b)
  | .vxor d a b => some (backVxor d a b)
  | .vsll d a b => some (backVsll d a b)
  | .vsrl d a b => some (backVsrl d a b)
  | .vsra d a b => some (backVsra d a b)
  | .vabs d a => some (backVabs d a)
  | .vaddsat d a b => some (backVaddsat d a b)
  | .vsubsat d a b => some (backVsubsat d a b)
  | .vclz d a => some (backVclz d a)
  | .vpopc d a => some (backVpopc d a)
  | .vcmpeq d a b => some (backVcmpeq d a b)
  | .vcmpne d a b => some (backVcmpne d a b)
  | .vcmplt d a b => some (backVcmplt d a b)
  | .vcmple d a b => some (backVcmple d a b)
  | .mand d a b => some (backMand d a b)
  | .mor d a b => some (backMor d a b)
  | .mxor d a b => some (backMxor d a b)
  | .mnot d a => some (backMnot d a)
  | .mcount d a => some (backMcount d a)
  | .mfirst d a => some (backMfirst d a)
  | .vbcast d a => some (backVbcast d a)
  | .vextract d a b => some (backVextract d a b)
  | .vid d => some (backVid d)
  | .vsel d a b => some (backVsel d a b)
  | .vperm d a b => some (backVperm d a b)
  | .vcompress d a => some (backVcompress d a)
  | .vexpand d a => some (backVexpand d a)
  | .vslideup d a i => some (backVslideup d a i)
  | .vslidedn d a i => some (backVslidedn d a i)
  | .vredsumO d a => some (backVredsumO d a)
  | .vredsumU d a => some (backVredsumU d a)
  | .vredmin d a => some (backVredmin d a)
  | .vredmax d a => some (backVredmax d a)
  | .vredminidx d a => some (backVredminidx d a)
  | .vredmaxidx d a => some (backVredmaxidx d a)
  | .vscanO d a => some (backVscanO d a)
  | .vscanF d a => some (backVscanF d a)
  | .vgrant d a => some (backVgrant d a)
  | .vfadd d a b => some (backVfadd d a b)
  | .vfsub d a b => some (backVfsub d a b)
  | .vfmul d a b => some (backVfmul d a b)
  | .vfma d a b => some (backVfma d a b)
  | .vfnma d a b => some (backVfnma d a b)
  | .vfmin d a b => some (backVfmin d a b)
  | .vfmax d a b => some (backVfmax d a b)
  | .vfdiv d a b => some (backVfdiv d a b)
  | .vfsqrt d a => some (backVfsqrt d a)
  | .vfexp2 d a => some (backVfexp2 d a)
  | .vflog2 d a => some (backVflog2 d a)
  | .vfabs d a => some (backVfabs d a)
  | .vfneg d a => some (backVfneg d a)
  | .vfcmpeq d a b => some (backVfcmpeq d a b)
  | .vfcmplt d a b => some (backVfcmplt d a b)
  | .vfcmple d a b => some (backVfcmple d a b)
  | .vfcmpun d a b => some (backVfcmpun d a b)
  | .vcvt d a s => some (backVcvt d a s)
  | .vcvtsr d a s => some (backVcvtsr d a s)
  | .vpack d a b s => some (backVpack d a b s)
  | .vunpack d a s => some (backVunpack d a s)
  | .vscacc d a b => some (backVscacc d a b)
  | .vscext d a b => some (backVscext d a b)
  | .vscset d a b => some (backVscset d a b)
  | .vbinadd d a b => some (backVbinadd d a b)
  | .vbinfold d a b => some (backVbinfold d a b)
  | .vbinmerge d a b => some (backVbinmerge d a b)
  | .vw2pmul d a b => some (backVw2pmul d a b)
  | .mmabO d a b => some (backMmabO d a b)
  | .mmabF d a b => some (backMmabF d a b)
  | .mmad d a b => some (backMmad d a b)
  | .mtbl a b => some (backMtbl a b)
  | .mmal d a b => some (backMmal d a b)
  | .xscacc d a b x => some (backXscacc d a b x)
  | .oclaim a => some (backOclaim a)
  | .orelease a => some (backOrelease a)
  | .oload a s => some (backOload a s)
  | .aclear d => some (backAclear d)
  | .aload d s => some (backAload d s)
  | .astore d s => some (backAstore d s)
  | .tshape d a => some (backTshape d a)
  | .vld d a i => some (backVld d a i)
  | .vst d a i => some (backVst d a i)
  | .vlds d a b => some (backVlds d a b)
  | .vsts d a b => some (backVsts d a b)
  | .vldt d a b => some (backVldt d a b)
  | .vldf d a b => some (backVldf d a b)
  | .vgath d a b => some (backVgath d a b)
  | .vscat d a b => some (backVscat d a b)
  | .vscadd d a b => some (backVscadd d a b)
  | .vscaddBin d a b => some (backVscaddBin d a b)
  | .vamo d a b o => some (backVamo d a b o)
  | .mld d a => some (backMld d a)
  | .mst d a => some (backMst d a)
  | .vbind d a => some (backVbind d a)
  | .vunbind d => some (backVunbind d)
  | .xgo d a => some (backXgo d a)
  | .xdrain d a b => some (backXdrain d a b)
  | .xtag d a => some (backXtag d a)
  | .pgreq d a b => some (backPgreq d a b)
  | .xinv a b => some (backXinv a b)
  | .xfence f t => some (backXfence f t)
  | .arrive d o l => some (backArrive d o l)
  | .bwait d o l => some (backBwait d o l)
  | .barshed d o l => some (backBarshed d o l)
  | .barjoin d o l => some (backBarjoin d o l)
  | .acq d o l => some (backAcq d o l)
  | .acqM d o l => some (backAcqM d o l)
  | .rel o => some (backRel o)
  | .bind o l => some (backBind o l)
  | .qpush d o l => some (backQpush d o l)
  | .qrecv d o l => some (backQrecv d o l)
  | .qproxy d o l => some (backQproxy d o l)
  | .launch d o l => some (backLaunch d o l)
  | .cwait d o l => some (backCwait d o l)
  | .cancel d o => some (backCancel d o)
  | .sfence s => some (backSfence s)
  | .coll d o l => some (backColl d o l)
  | .collwait d o l => some (backCollwait d o l)
  | .collabort d o => some (backCollabort d o)
  | _ => none

end Sys2Proof.Machine
end

