-- ==== Sys2Proof/Machine/Save.lean ====
section
/-! DEFINITION. vsave, vrestore and replay (R133 to R137): the save record of a core, its layout, and the way back. -/

namespace Sys2Proof.Machine

/-! ## Writing a record (R134, R135) -/

/-- The program state of a role: what handler mode has set aside, else its live state. -/
def RoleSt.program (r : RoleSt) : Aside :=
  match r.aside with
  | some a => a
  | none => {
      pc := r.pc, stop := r.pc, sregs := r.sregs, p := r.p, d := r.d, mode := r.mode, csrs := r.csrs, armed := r.armed
      halted := r.halted, front := false, tick := 0, rank := 0, lastSf := r.lastSf }

/-- A group mode as MODE bits [24:13]. -/
def Mode.bits (m : Mode) : Nat := m.guard * 512 + b01 m.gpol * 256 + etyCode m.ety * 8 + rmCode m.rm

/-- The group mode that twelve bits give. -/
def Mode.ofBits (x : Nat) : Mode := modeOf (field x 11 9) (field x 8 8) (field x 7 3) (field x 2 0)

/-- Zero bytes. -/
def zeros (n : Nat) : List Byte := List.replicate n 0

/-- Eight bytes of each of some values. -/
def eights (l : List Nat) : List Byte := l.flatMap (toBytes 8)

/-- The shadow set in CSRNO order. -/
def Shadow.bytes (x : Shadow) : List Byte := eights ((List.range 8).map fun n => (x.get n).toNat)

/-- A role block. -/
def roleBlock (c : Core) (role : Nat) : List Byte :=
  let r := c.role role
  let a := r.program
  eights (a.pc.toNat :: (List.range 31).map fun n => ((a.sregs[n + 1]?).getD 0).toNat) ++
  eights [wrap 64 a.p] ++ toBytes 2 a.d ++ toBytes 2 a.mode.bits ++
  toBytes 4 (b01 r.handler + 2 * b01 a.halted) ++
  eights [a.csrs.vl, readVstart c role, r.vcp, a.csrs.vtype, a.csrs.seed.toNat, a.csrs.strip.toNat,
    a.csrs.binbase.toNat, r.trapcause, r.trappc.toNat, r.trapelem.toNat, a.csrs.flagcause.toNat, a.csrs.wgen.toNat,
    a.csrs.xdue.toNat] ++
  a.csrs.shadow.bytes ++ eights [r.queue.length] ++ zeros 64

/-- Whether an entry is partially issued (R88): it has issued, and not every row of it has started. -/
def partIssued (s : State) (core role : Nat) (e : Entry) : Bool :=
  e.issued.isSome && decide (e.prog < (opAt backOf s core role e).rows)

/-- A queue entry: the progress index and the flag are those of a partially issued one. -/
def entryBlock (s : State) (core role : Nat) (e : Entry) : List Byte :=
  let c := coreOf s.sys core
  let part := partIssued s core role e
  toBytes 4 (encode e.instr) ++ toBytes 2 (if part && rowsOf c e != 0 then progress c role e else 0) ++ toBytes 2 (b01 part) ++
  eights ([e.stamp, e.addr.toNat] ++ (List.range 3).map e.op) ++
  toBytes 2 e.mode.bits ++ toBytes 2 e.vl ++ toBytes 1 e.vtype ++ zeros 3 ++
  eights [e.seed.toNat, e.strip.toNat, e.bin.toNat] ++ e.shadow.bytes ++ zeros 48

/-- A bound stream in the layout of its pattern (R165). -/
def streamBlock (st : Stream) : List Byte :=
  toBytes 4 st.base ++ toBytes 4 (b01 st.write) ++ st.count.flatMap (toBytes 4) ++ zeros 4 ++
  st.stride.flatMap (fun x => toBytes 4 (wrap 32 x)) ++ zeros 4 ++ st.cur.flatMap (toBytes 4) ++
  toBytes 4 (b01 st.ended) ++ zeros 8

/-- The code of a target (R135). -/
def Target.code : Target → Nat
  | .vec => 0 | .mask => 1 | .scalar => 2 | .tile => 3 | .spad => 4 | .csr => 5 | .slot => 6

/-- A held landing. -/
def landingBlock (y : Sys) (l : Landing) : List Byte :=
  let own := l.tgt == .scalar || l.tgt == .csr
  let data := if l.ticket = 0 then l.data else [answerWord y l]
  toBytes 8 l.due ++ toBytes 1 l.tgt.code ++ toBytes 1 (if own then l.urole else 0) ++
  toBytes 2 (if l.tgt = .spad then 0 else l.reg) ++ toBytes 2 (if own || l.tgt == .spad then 0 else l.row) ++ zeros 2 ++
  toBytes 8 (if l.tgt = .spad then l.addr else 0) ++ toBytes 8 (if own then 2 ^ 64 - 1 else l.enable) ++ zeros 32 ++
  (if own || l.tgt == .mask then toBytes 8 ((data[0]?).getD 0) ++ zeros 248
   else (List.range 64).flatMap fun w => toBytes 4 ((data[w]?).getD 0))

/-- A scratchpad landing in the form of R135, which enables whole words: the bytes of an enabled word that the row does
not write are those it finds. -/
def wordLanding (y : Sys) (core : Nat) (l : Landing) : Landing :=
  let t := (spTarget y core l.addr).getD core
  let off := field l.addr 21 0
  let some4 := fun w : Nat => (List.range 4).any fun b => l.enable.testBit (4 * w + b)
  let byteAt := fun n : Nat =>
    if l.enable.testBit n then (l.data[n / 4]?).getD 0 / 256 ^ (n % 4) % 256 else ((coreOf y t).sbyte (off + n)).toNat
  { l with
    enable := maskOf 64 some4
    data := (List.range 64).map fun w => byteAt (4 * w) + 256 * byteAt (4 * w + 1) + 65536 * byteAt (4 * w + 2) + 16777216 * byteAt (4 * w + 3) }

/-- The landing of a write stream's row as the scratchpad landings of the blocks it writes, and those of a full word
enable. -/
def plainLandings (y : Sys) (core : Nat) (l : Landing) : List Landing :=
  if l.tgt = .vec && l.strm then
    let c := coreOf y core
    match c.streamAt l.addr with
    | none => []
    | some st =>
      let els := (List.range c.lanes).filter fun w => l.enable.testBit (c.phys w)
      let ws := els.filterMap fun w =>
        (elemAddr y core st.base (l.disp + 4 * ((l.row * c.lanes + w : Nat) : Int))).map fun p =>
          (p.2 / 4, (l.data[c.phys w]?).getD 0)
      let blocks := ws.foldl (fun bs w => if bs.contains (w.1 / 64) then bs else bs ++ [w.1 / 64]) ([] : List Nat)
      blocks.map fun b =>
        let mine := ws.filter fun w => w.1 / 64 == b
        { l with
          tgt := .spad, reg := 0, row := 0, strm := false
          addr := field st.base 29 22 * 4194304 + 256 * b
          enable := mine.foldl (fun m w => setBit m (w.1 % 64)) 0
          data := (List.range 64).map fun i => ((mine.find? fun w => w.1 % 64 == i).map Prod.snd).getD 0 }
  else if l.tgt = .spad then [wordLanding y core l]
  else [l]

/-- The held landings of a core as a record holds them, in the order in which they land, and the core's streams as they
will stand when the last has landed. -/
def savedLandings (y : Sys) (core : Nat) : List Landing × Core :=
  let held := sortBy Landing.due ((coreOf y core).landings.filter fun l => !l.unheld)
  let r := held.foldl (fun (a : List Landing × Sys) l =>
    (a.1 ++ plainLandings a.2 core l,
      if l.tgt = .vec || l.tgt = .spad then makeLanding a.2 core l else a.2)) ([], y)
  (r.1, coreOf r.2 core)

/-- The streams that a record holds: the bound ones, in register order. -/
def boundStreams (c : Core) : List Stream := sortBy Stream.reg (c.streams.filter fun st => st.till.isNone)

/-- The rows of register v that a record holds, from the program VL of each role (R134). -/
def savedRows (part lanes : Nat) (vls : List Nat) (v : Nat) : Nat :=
  let role := if isRing part v then (if 6 ≤ rdir part v then ringReader (rdir part v) else ringWriter (rdir part v)) else ownerOf part v
  min (ceilDiv ((vls[role]?).getD 0) lanes) 8

/-- The dirty registers with their row counts. -/
def dirtyRows (part lanes : Nat) (vls : List Nat) (dirty : Nat) : List (Nat × Nat) :=
  ((List.range (nv part)).filter dirty.testBit).map fun v => (v, savedRows part lanes vls v)

/-- LENGTH from the counts of a record. -/
def recordLength (streams entries held slots tiles rows : Nat) : Nat :=
  0xA80 + 64 * streams + 192 * entries + 320 * held + 32768 * slots + 65536 * tiles + 256 * rows

/-- The machine as a record of a core shows it: rows that have not started are taken back (R87, R88). -/
def takenBack (s : State) (core : Nat) : State :=
  { s with sys := (List.range 3).foldl (fun y r =>
      (roleOf y core r).queue.foldl (takeBack backOf { s with sys := y } core r) y) s.sys }

/-- The save record of a core. -/
def saveRecord (s : State) (core : Nat) : List Byte :=
  let s := takenBack s core
  let y := s.sys
  let c := coreOf y core
  let d := domOfCore y core
  let (lands, after) := savedLandings y core
  let sts := boundStreams after
  let vls := (List.range 3).map fun r => (c.role r).program.csrs.vl
  let rows := dirtyRows c.partN c.lanes vls c.dirty.toNat
  let slots := (List.range 16).filter c.claimed
  let tiles := (List.range (nacc c.partN)).filter c.dirtya.toNat.testBit
  let entries := (List.range 3).flatMap fun r => (c.role r).queue.map fun e => (r, e)
  let len := recordLength sts.length entries.length lands.length slots.length tiles.length ((rows.map Prod.snd).foldl (· + ·) 0)
  toBytes 4 0x43525653 ++ toBytes 2 1 ++ toBytes 1 c.lanes ++ toBytes 1 (nv c.partN) ++ toBytes 1 (nacc c.partN) ++ zeros 7 ++
  eights [c.partN, c.vdid.toNat, d.f, c.dirty.toNat] ++ toBytes 1 c.dirtya.toNat ++ zeros 1 ++ toBytes 2 c.claims.toNat ++
  toBytes 4 lands.length ++ eights [len] ++ zeros 64 ++
  roleBlock c 0 ++ roleBlock c 1 ++ roleBlock c 2 ++
  ((List.range 8).flatMap fun j => toBytes 2 ((c.ringTags[j]?).getD 0).toNat) ++
  eights [c.tsm.toNat, c.tsn.toNat, c.tsk.toNat, after.streamend.toNat, sts.foldl (fun m st => setBit m st.reg) 0, 0] ++
  ((List.range 15).flatMap fun m => toBytes 64 (((c.masks[m + 1]?).getD 0).toNat % 2 ^ c.vlmax)) ++
  (sts.flatMap streamBlock) ++ (entries.flatMap fun p => entryBlock s core p.1 p.2) ++
  (lands.flatMap (landingBlock y)) ++ (slots.flatMap fun o => Mem.bytes c.omem (32768 * o) 32768) ++
  (tiles.flatMap fun t => Mem.bytes c.pool (tileBase c.partN t) 65536) ++
  (rows.flatMap fun p => Mem.bytes c.pool (2048 * p.1) (256 * p.2))

/-- What an instruction on a record takes on the XU unit: once what fences into XFR name is over (R177) it issues, does all it
does, and is complete at a tick no later than R133 promises; that tick stands as a landing in s0, which nothing keeps. -/
def recordOp (v : Env) (e : Entry) (ready : Unit → Bool) (check : Unit → Option Stop) (fire : Sys → Sys) : BackOp := {
  unit := .xu, check := check
  ready := fun _ => waitMet v.s.sys v.core true v.c.toXfr && ready ()
  fire := fun y => (takeFree (fire y)).2
  issue := fun _ => ([landScalar v e (e.t v + 1 + Config.saveDelay v.s.sys.free % 8) 0 0], []) }

/-- ALIGN of the record's address. -/
def recordAlign (e : Entry) : Option Stop := if e.op 0 % 64 ≠ 0 then some (.trap causeAlign 0) else none

/-- The answer that a held landing awaits has come, or can come no more (R87, R133). -/
def Landing.settled (s : State) (l : Landing) : Bool :=
  l.ticket == 0 || decide (l.byTick ≤ s.gtc) || s.sys.answers.any fun a => a.ticket == l.ticket && decide (a.tick ≤ s.gtc)

/-- VSAVE (R134). -/
def backVsave (a : Nat) : Back := {
  names := fun _ => { sregs := [a] }
  op := fun v e =>
    let vk := vdKeyOf v.s.sys v.core
    recordOp v e (fun _ => v.c.landings.all (Landing.settled v.s))
      (fun _ =>
        match recordAlign e with
        | some st => some st
        | none =>
          if (writeVa v.s vk (e.op 0) ((saveRecord v.s v.core).map fun b => ⟨b, false, 0⟩)).2 ≠ 0
          then some (.trap causeSavefault 0) else none)
      (fun y => noteHeld v.s (postBy v.s y vk (some v.core) (e.op 0) (saveRecord v.s v.core)) v.core v.s.gtc (e.op 0)
        (saveRecord v.s v.core)) }

/-! ## Reading a record (R136, R137) -/

/-- n bytes at an offset of a record, as a number. -/
def recNat (l : List Byte) (o n : Nat) : Nat := ofBytes ((l.drop o).take n)

/-- The registers of a record by their rows. -/
def recRows (l : List Byte) : List (Nat × Nat) :=
  dirtyRows (recNat l 0x10 8) (recNat l 6 1) ((List.range 3).map fun r => recNat l (0x080 + 0x200 * r + 0x110) 8) (recNat l 0x28 8)

/-- Counts of a record: streams, entries, held landings, slots, tiles, rows. -/
def recCounts (l : List Byte) : List Nat :=
  [popcount 64 (recNat l 0x6B0 8), ((List.range 3).map fun r => recNat l (0x080 + 0x200 * r + 0x1B8) 8).foldl (· + ·) 0,
   recNat l 0x34 4, popcount 16 (recNat l 0x32 2), popcount 8 (recNat l 0x30 1 % 2 ^ nacc (recNat l 0x10 8)),
   ((recRows l).map Prod.snd).foldl (· + ·) 0]

/-- LENGTH that the counts of a record give. -/
def recLength (l : List Byte) : Nat :=
  match recCounts l with
  | [a, b, c, d, e, f] => recordLength a b c d e f
  | _ => 0

/-- Offsets of the variable parts: entries, held landings, slots, tiles, rows. -/
def recEntriesAt (l : List Byte) : Nat := 0xA80 + 64 * ((recCounts l)[0]?).getD 0
/-- Held landings. -/
def recHeldAt (l : List Byte) : Nat := recEntriesAt l + 192 * ((recCounts l)[1]?).getD 0
/-- Slots. -/
def recSlotsAt (l : List Byte) : Nat := recHeldAt l + 320 * ((recCounts l)[2]?).getD 0
/-- Tiles. -/
def recTilesAt (l : List Byte) : Nat := recSlotsAt l + 32768 * ((recCounts l)[3]?).getD 0
/-- Rows. -/
def recRowsAt (l : List Byte) : Nat := recTilesAt l + 65536 * ((recCounts l)[4]?).getD 0

/-- The record at an address, or the stop of the first check that fails: ALIGN, the fixed part readable, checks 1 to 3
of R136, the rest readable; a poisoned byte counts as one that cannot be read (log entry 88). -/
def readRecord (s : State) (core : Nat) (e : Entry) : Except Stop (List Byte) :=
  let vk := vdKeyOf s.sys core
  let c := coreOf s.sys core
  match recordAlign e with
  | some st => .error st
  | none =>
    match loadVa s vk (e.op 0) 0xA80 with
    | none => .error (.trap causeSavefault 0)
    | some l =>
      if recNat l 0 4 ≠ 0x43525653 ∨ recNat l 4 2 ≠ 1 ∨ recNat l 0x38 8 ≠ recLength l then .error (.trap causeRecord 1)
      else if recNat l 6 1 ≠ c.lanes ∨ recNat l 7 1 ≠ nv c.partN ∨ recNat l 8 1 ≠ nacc c.partN ∨ recNat l 0x10 8 ≠ c.partN
      then .error (.trap causeRecord 2)
      else if recNat l 0x18 8 ≠ c.vdid.toNat then .error (.trap causeRecord 3)
      else match loadVa s vk (e.op 0) (recLength l) with
        | none => .error (.trap causeSavefault 0)
        | some l => .ok l

/-- The shadow set of a record. -/
def recShadow (l : List Byte) (o : Nat) : Shadow :=
  (List.range 8).foldl (fun x n => x.put n (d64 (recNat l (o + 8 * n) 8))) .zero

/-- The program state in the role block at an offset. -/
def recProgram (l : List Byte) (c : Core) (o : Nat) : Aside :=
  let w := fun k : Nat => recNat l (o + 0x110 + 8 * k) 8
  { pc := d64 (recNat l o 8), stop := d64 (recNat l o 8)
    sregs := Vector.ofFn fun (i : Fin 32) => if i.val = 0 then 0 else d64 (recNat l (o + 8 * i.val) 8)
    p := sx 64 (recNat l (o + 0x100) 8), d := recNat l (o + 0x108) 2, mode := .ofBits (recNat l (o + 0x10A) 2)
    csrs := {
      vl := min (w 0) c.vlmax, vtype := slicesOf (d64 (w 3)), seed := d64 (w 4), strip := d64 (w 5)
      binbase := d64 (w 6 % 65536), flagcause := d64 (w 10) &&& 0xFFFF0003, wgen := d64 (w 11), xdue := d64 (w 12)
      shadow := recShadow l (o + 0x178) }
    armed := decide (0 < w 2 + recNat l (o + 0x1B8) 8) && !(recNat l (o + 0x10C) 1).testBit 1
    halted := (recNat l (o + 0x10C) 1).testBit 1, front := false, tick := 0, rank := 0, lastSf := false }

/-- A role takes its block of a record: as its set-aside state if it was saved in handler mode and is in it, else as its
live state (R136). `self` tells that this role executes the vrestore, whose end moves its PC past one word. -/
def restoreRole (l : List Byte) (c : Core) (self : Bool) (role : Nat) (r : RoleSt) : RoleSt :=
  let o := 0x080 + 0x200 * role
  let a := recProgram l c o
  let w := fun k : Nat => recNat l (o + 0x110 + 8 * k) 8
  let r := { r with
    nextSeq := if r.queue = [] then w 2 else r.nextSeq
    counted := a.halted && recNat l (o + 0x1B8) 8 == 0 }
  match r.aside with
  | some b =>
    if (recNat l (o + 0x10C) 1).testBit 0 then
      { r with aside := some { a with front := b.front, tick := b.tick, rank := b.rank, lastSf := b.lastSf } }
    else live r a w
  | none => live r a w
where
  /-- The saved state as live state. -/
  live (r : RoleSt) (a : Aside) (w : Nat → Nat) : RoleSt :=
    { r with
      pc := if self then a.pc - 4 else a.pc
      sregs := a.sregs, p := a.p, d := a.d, mode := a.mode, csrs := a.csrs, armed := a.armed, halted := a.halted
      trapcause := w 7 % 64, trappc := d64 (w 8), trapelem := d64 (w 9) }

/-- The set bits below n. -/
def bitsOf (n x : Nat) : List Nat := (List.range n).filter x.testBit

/-- The streams of a record. It does not hold where a pattern lies nor since when it is bound: a binding that the core has still
keeps both, another counts as bound all along, its pattern at an address that is free (log entry 43). -/
def recStreams (l : List Byte) (c : Core) (free : Nat) : List Stream :=
  let regs := bitsOf 64 (recNat l 0x6B0 8)
  (List.range regs.length).map fun i =>
    let o := 0xA80 + 64 * i
    let w := fun k : Nat => recNat l (o + k) 4
    let reg := (regs[i]?).getD 0
    let count := [w 0x08, w 0x0C, w 0x10]
    let stride := [sx 32 (w 0x18), sx 32 (w 0x1C), sx 32 (w 0x20)]
    let own := c.streams.find? fun st => st.reg == reg && st.till.isNone && st.base == w 0 && st.write == (w 4).testBit 0 &&
      st.count == count && st.stride == stride
    { sid := c.nextLid + i, reg := reg, base := w 0, write := (w 4).testBit 0, count := count, stride := stride
      recOff := (own.map Stream.recOff).getD (0xFF * 4194304 + 64 * (Config.streamRecord free reg % (spadSize c.partN / 64)))
      cur := [w 0x28, w 0x2C, w 0x30], ended := (w 0x34).testBit 0
      since := (own.map Stream.since).getD 0, till := none }

/-- The core after a vrestore (R136): every state of the record but queues and held landings; rows, registers, tiles
and slots that it does not hold read as zero; the scratchpad, which no record holds, stays. -/
def restoreCore (l : List Byte) (c : Core) (issuer free : Nat) : Core :=
  let part := c.partN
  let slots := bitsOf 16 (recNat l 0x32 2)
  let tiles := bitsOf (nacc part) (recNat l 0x30 1)
  let rows := recRows l
  let pool := Mem.clear c.pool 0 (spadBase part)
  let pool := (List.range tiles.length).foldl (fun m i =>
    Mem.writes m (tileBase part ((tiles[i]?).getD 0)) ((l.drop (recTilesAt l + 65536 * i)).take 65536)) pool
  let pool := (rows.foldl (fun (a : Mem × Nat) p =>
    (Mem.writes a.1 (2048 * p.1) ((l.drop a.2).take (256 * p.2)), a.2 + 256 * p.2)) (pool, recRowsAt l)).1
  let omem := (List.range slots.length).foldl (fun m i =>
    Mem.writes m (32768 * (slots[i]?).getD 0) ((l.drop (recSlotsAt l + 32768 * i)).take 32768)) ([] : Mem)
  let c := { c with
    pool := pool, omem := omem, claims := BitVec.ofNat 16 (recNat l 0x32 2)
    masks := Vector.ofFn fun (i : Fin 16) => if i.val = 0 then 0 else BitVec.ofNat 512 (recNat l (0x6C0 + 64 * (i.val - 1)) 64 % 2 ^ c.vlmax)
    ringTags := Vector.ofFn fun (i : Fin 8) => BitVec.ofNat 16 (recNat l (0x680 + 2 * i.val) 2)
    tsm := d64 (recNat l 0x690 8), tsn := d64 (recNat l 0x698 8), tsk := d64 (recNat l 0x6A0 8)
    streamend := d64 (recNat l 0x6A8 8), streams := recStreams l c free, nextLid := c.nextLid + 64
    dirty := d64 (recNat l 0x28 8), dirtya := d64 (recNat l 0x30 1) }
  (List.range 3).foldl (fun c role =>
    let r := restoreRole l c (role == issuer) role (c.role role)
    c.setRole role (if role = issuer then { r with vrest := true } else r)) c

/-- The records of the lines that a record is read from: its fixed part, and all of it where that can be read and its checks hold
(R355, R377). -/
def noteRecord (s : State) (core : Nat) (e : Entry) (y : Sys) : Sys :=
  match recordAlign e with
  | some _ => y
  | none => noteReads s y (vdKeyOf s.sys core) (e.op 0) (match readRecord s core e with
    | .ok l => l.length
    | .error (.trap 13 _) => 0xA80
    | .error _ => recordExtent s core e)
where
  /-- How much of a record that cannot be read as a whole is read: its fixed part, and where that can be read, all. -/
  recordExtent (s : State) (core : Nat) (e : Entry) : Nat :=
    match loadVa s (vdKeyOf s.sys core) (e.op 0) 0xA80 with
    | none => 0xA80
    | some l => recLength l

/-- VRESTORE (R136). -/
def backVrestore (a : Nat) : Back := {
  names := fun _ => { sregs := [a] }
  op := fun v e =>
    { recordOp v e (fun _ => true)
        (fun _ => match readRecord v.s v.core e with | .error st => some st | .ok _ => none)
        (fun y => match readRecord v.s v.core e with
          | .error _ => y
          | .ok l => setCore y (restoreCore l (coreOf y v.core) v.role y.free)) with
      noted := noteRecord v.s v.core e } }

/-! ## replay (R137) -/

/-- The rows of an entry of a record that had started: of a partially issued one those of its progress index, of
another that issued before F all (no instruction has 65,536 rows). -/
def startedRows (c : Core) (part issued : Bool) (e : Entry) (progress : Nat) : Nat :=
  if part then (if rowsOf c e = 0 then 0 else progress / c.lanes) else if issued then 65536 else 0

/-- What a partially issued reduction over a mask had gathered from the rows that started (R217, R218). -/
def regathered (v : Env) (e : Entry) : List Nat :=
  match e.instr with
  | .mcount _ _ | .mfirst _ _ =>
    (List.range e.prog).foldl (fun acc k =>
      let e := { e with acc := acc }
      (((backOf e.instr).map fun b => (b.op v e).keep k).getD none).getD acc) []
  | _ => []

/-- What an issued matrix instruction of a record keeps of its shape, which the record holds only as TSM, TSN and TSK of F
(R251; log entry 43). -/
def reshaped (v : Env) (e : Entry) : List Nat :=
  ((backOf e.instr).map fun b => ((b.op v e).issue ()).2).getD []

/-- An entry of a record: it has issued if it is partially issued or its stamp is before F. -/
def recEntry (l : List Byte) (v : Env) (seq o : Nat) (afterSf : Bool) : Entry :=
  let part := (recNat l (o + 6) 1).testBit 0
  let issued := part || decide (recNat l (o + 8) 8 < recNat l 0x20 8)
  let i := match decodeNat (recNat l o 4) with | .ok i => i | .error _ => .decodeIllegalEncoding (recNat l o 4)
  let e : Entry := {
    instr := i, addr := d64 (recNat l (o + 0x10) 8), stamp := recNat l (o + 8) 8, seq := seq
    ops := (List.range 3).map fun k => d64 (recNat l (o + 0x18 + 8 * k) 8)
    mode := .ofBits (recNat l (o + 0x30) 2), vl := min (recNat l (o + 0x32) 2) v.c.vlmax
    vtype := slicesOf (d64 (recNat l (o + 0x34) 1)), seed := d64 (recNat l (o + 0x38) 8)
    strip := d64 (recNat l (o + 0x40) 8), bin := d64 (recNat l (o + 0x48) 8), shadow := recShadow l (o + 0x50)
    issued := if issued then some (recNat l (o + 8) 8) else none
    prog := 0, start := if part then recNat l (o + 4) 2 else 0, acc := [], afterSf := afterSf }
  let e := { e with prog := startedRows v.c part issued e (recNat l (o + 4) 2) }
  { e with acc := if part then regathered v e else if issued && rowsOf v.c e = 0 then reshaped v e else [] }

/-- Whether the word of TEXT before an address is `sfence system` (R192; log entry 43). -/
def sfenceBefore (r : RoleSt) (a : Dword) : Bool :=
  let k := (a - r.textBase).toNat / 4
  decide (0 < k) && (match r.text[k - 1]? with
    | some w => (match decodeNat w.toNat with | .ok i => i == .sfence 3 | .error _ => false)
    | none => false)

/-- The entries of a role, from an offset of the record. -/
def recQueue (l : List Byte) (v : Env) (role o : Nat) : List Entry :=
  let n := recNat l (0x080 + 0x200 * role + 0x1B8) 8
  let base := recNat l (0x080 + 0x200 * role + 0x120) 8
  (List.range n).foldl (fun es i =>
    let sf := match es.getLast? with
      | some p => p.instr == .sfence 3
      | none => sfenceBefore (v.c.role role) (d64 (recNat l (o + 192 * i + 0x10) 8))
    es ++ [recEntry l v (base + i) (o + 192 * i) sf]) []

/-- The target of a code. -/
def Target.ofCode (c : Nat) : Target :=
  if c = 0 then .vec else if c = 1 then .mask else if c = 2 then .scalar else if c = 3 then .tile
  else if c = 4 then .spad else .csr

/-- What tells the landings of an entry apart: its due cycle, its target, the register, row or block. -/
def Landing.place (l : Landing) : Nat × Target × Nat × Nat × Nat :=
  (l.due, l.tgt, if l.tgt = .spad then 0 else l.reg, if l.tgt = .scalar || l.tgt = .csr || l.tgt = .spad then 0 else l.row,
    if l.tgt = .spad then l.addr else 0)

/-- The landings that an issued entry of a record makes: at its issue, and of the rows that have started. -/
def entryLandings (v : Env) (e : Entry) : List Landing :=
  match backOf e.instr with
  | none => []
  | some b =>
    let op := b.op v e
    (op.issue ()).1 ++ (List.range (min e.prog op.rows)).flatMap fun k =>
      match op.sample k with
      | .ok (ls, ps) => ls ++ ps.flatMap op.access
      | .error _ => []

/-- Their places. -/
def landingPlaces (v : Env) (e : Entry) : List (Nat × Target × Nat × Nat × Nat) := (entryLandings v e).map Landing.place

/-- The issued entries of the queues of a record with their roles and the places of their landings. -/
def landingOwners (v : Env) (queues : List (List Entry)) : List (Nat × Nat × List (Nat × Target × Nat × Nat × Nat)) :=
  (List.range 3).flatMap fun r => (((queues[r]?).getD []).filter fun e => e.issued.isSome).map fun e =>
    (r, e.seq, landingPlaces ⟨v.s, v.core, r⟩ e)

/-- A held landing of a record, which does not hold whose it is: it belongs to the first entry that makes a landing at its
place, and to none where no entry does (log entry 43). -/
def recLanding (l : List Byte) (owners : List (Nat × Nat × List (Nat × Target × Nat × Nat × Nat))) (o : Nat) : Landing :=
  let tgt := Target.ofCode (recNat l (o + 8) 1)
  let role := recNat l (o + 9) 1 % 4
  let reg := recNat l (o + 0xA) 2
  let row := recNat l (o + 0xC) 2
  let en := recNat l (o + 0x18) 8
  let x : Landing := {
    lid := 0, due := recNat l o 8, urole := role, useq := 2 ^ 64, tgt := tgt, reg := reg
    row := row, addr := if tgt = .spad then recNat l (o + 0x10) 8 else 0
    enable := if tgt = .spad then (List.range 64).foldl (fun m w => if en.testBit w then m + 15 * 2 ^ (4 * w) else m) 0 else en
    data := if tgt = .scalar || tgt = .csr || tgt = .mask then [recNat l (o + 64) 8]
      else (List.range 64).map fun w => recNat l (o + 64 + 4 * w) 4
    banks := if tgt = .vec then quad row else if tgt = .tile then half (row / 2) else if tgt = .spad
      then banksOf (field (recNat l (o + 0x10) 8) 21 0) 256 else 0
    ticket := 0, byTick := 0, strm := false, last := false }
  match owners.find? fun p => p.2.2.contains x.place && ((tgt != .scalar && tgt != .csr) || p.1 == role) with
  | some p => { x with urole := p.1, useq := p.2.1 }
  | none => x

/-- The held landings of a record; the highest row of a ring register is its instruction's last (log entry 43). -/
def recLandings (l : List Byte) (v : Env) (queues : List (List Entry)) : List Landing :=
  let owners := landingOwners v queues
  let ls := (List.range (recNat l 0x34 4)).map fun i => recLanding l owners (recHeldAt l + 320 * i)
  ls.map fun x => { x with
    last := x.tgt == .vec && isRing v.c.partN x.reg && !(ls.any fun z => z.tgt == .vec && z.reg == x.reg && decide (x.row < z.row)) }

/-- The landings of R260 that the issued entries of a record have still to pass: they were made when the domain froze. -/
def ghostLandings (l : List Byte) (v : Env) (queues : List (List Entry)) : List Landing :=
  (List.range 3).flatMap fun r => (((queues[r]?).getD []).filter fun e => e.issued.isSome).flatMap fun e =>
    ((entryLandings ⟨v.s, v.core, r⟩ e).filter fun x => x.unheld && decide (recNat l 0x20 8 ≤ x.due)).map fun x => { x with done := true }

/-- A role whose program's last back-end instruction is known to have been this one (R192). -/
def RoleSt.lastWas (r : RoleSt) : Option Instr → RoleSt
  | none => r
  | some i =>
    match r.aside with
    | some a => { r with aside := some { a with lastSf := i == .sfence 3 } }
    | none => { r with lastSf := i == .sfence 3 }

/-- The core after a replay: its queues and held landings are those of the record. -/
def replayCore (l : List Byte) (v : Env) (c : Core) : Core :=
  let counts := (List.range 3).map fun r => recNat l (0x080 + 0x200 * r + 0x1B8) 8
  let before := fun r : Nat => ((counts.take r)).foldl (· + ·) 0
  let queues := (List.range 3).map fun r => recQueue l v r (recEntriesAt l + 192 * before r)
  let ls := recLandings l v queues ++ ghostLandings l v queues
  let c := (List.range 3).foldl (fun c r =>
    let q := (queues[r]?).getD []
    c.setRole r ({ c.role r with
      queue := q, nextSeq := recNat l (0x080 + 0x200 * r + 0x120) 8 + q.length }.lastWas (q.getLast?.map Entry.instr))) c
  { c with
    landings := (List.range ls.length).zip ls |>.map fun p => { p.2 with lid := c.nextLid + p.1 }
    pends := [], nextLid := c.nextLid + ls.length }

/-- REPLAY (R137). -/
def backReplay (a : Nat) : Back := {
  names := fun _ => { sregs := [a] }
  op := fun v e =>
    { recordOp v e (fun _ => true)
        (fun _ =>
          match readRecord v.s v.core e with
          | .error st => some st
          | .ok l =>
            if !((List.range 3).any fun r => (v.c.role r).vrest) then some (.trap causeRecord 4)
            else if recNat l 0x20 8 ≠ v.dom.f then some (.trap causeRecord 5) else none)
        (fun y => match readRecord v.s v.core e with
          | .error _ => y
          | .ok l => setCore y (replayCore l v (coreOf y v.core))) with
      noted := noteRecord v.s v.core e } }

/-! ## The three instructions -/

/-- An instruction that is legal in handler mode alone: there it is executed; elsewhere a word that passes the checks
of R61 raises CONTEXT at the push point (R133). -/
def handlerOnly (b : Back) (i : Instr) : State → Result :=
  lift fun s =>
    let y := s.sys
    let r := me y
    if r.handler then handlerWord b i s
    else if 64 ≤ r.queue.length then y
    else raise s y y.curCore y.curRole (frontCause causeContext 0 r.pc)

/-- VSAVE. -/
def execVsave (a : Nat) : State → Result := handlerOnly (backVsave a) (.vsave a)
/-- VRESTORE. -/
def execVrestore (a : Nat) : State → Result := handlerOnly (backVrestore a) (.vrestore a)
/-- REPLAY. -/
def execReplay (a : Nat) : State → Result := handlerOnly (backReplay a) (.replay a)

end Sys2Proof.Machine
end

