-- ==== Sys2Proof/Machine/Launch.lean ====
section
/-! DEFINITION. The launch unit: loaded images (R93 to R104, R109, R110), object lists (R309, R310, R276 to R291), the
checks and the writing of records (R310), and the start of a launch (R31, R65, R85). -/

namespace Sys2Proof.Machine

/-! ## Images (R94 to R97, R102, R109) -/

/-- A section-table entry (R95), with its 32 bytes. -/
structure Sect where
  typ   : Nat
  role  : Nat
  flags : Nat
  core  : Nat
  link  : Nat
  off   : Nat
  size  : Nat
  addr  : Nat
  mem   : Nat
  resv  : Nat
  raw   : List Byte

/-- What the launch unit takes from an image: its header, its sections and where it stands. -/
structure Image where
  base  : Nat
  hdr   : List Byte
  sects : List Sect

/-- A section-table entry from its 32 bytes. -/
def sectOf (b : List Byte) : Sect := {
  typ := at' b 0 2, role := at' b 2 1, flags := at' b 3 1, core := at' b 4 2, link := at' b 12 2, off := at' b 16 4
  size := at' b 20 4, addr := at' b 24 4, mem := at' b 28 4, resv := at' b 7 1 + at' b 14 2, raw := b.take 32 }

/-- Read an image's header and section table at a virtual address. -/
def readImage (s : State) (vk va : Nat) : Option Image :=
  match loadVa s vk va 64 with
  | none => none
  | some h =>
    match loadVa s vk (va + at' h 20 4) (32 * at' h 8 2) with
    | none => none
    | some t => some { base := va, hdr := h, sects := (List.range (at' h 8 2)).map fun i => sectOf (t.drop (32 * i)) }

/-- PART of an image. -/
def Image.part (i : Image) : Nat := at' i.hdr 24 8
/-- NMIN. -/
def Image.nmin (i : Image) : Nat := at' i.hdr 16 2
/-- NMAX. -/
def Image.nmax (i : Image) : Nat := at' i.hdr 18 2
/-- DET. -/
def Image.det (i : Image) : Bool := (at' i.hdr 10 2).testBit 0

/-- The sections of a kind for a role and exactly a CORE value. -/
def Image.texts (i : Image) (role core : Nat) : List Sect := i.sects.filter fun t => t.typ == 1 && t.role == role && t.core == core

/-- The TEXT section of a role on a domain index (R97). -/
def Image.textOf (i : Image) (role k : Nat) : Option Sect :=
  match i.texts role k with
  | t :: _ => some t
  | [] => (i.texts role 0xFFFF).head?

/-- The SPAD sections of a domain index, in the order in which they apply (R97). -/
def Image.spads (i : Image) (k : Nat) : List Sect :=
  (i.sects.filter fun t => t.typ == 2 && t.core == 0xFFFF) ++ i.sects.filter fun t => t.typ == 2 && t.core == k

/-- A section's contents. -/
def Image.bytes (s : State) (vk : Nat) (i : Image) (t : Sect) : Option (List Byte) := loadVa s vk (i.base + t.off) t.size

/-- The DAMASK record (R102): the section that DAMASKIDX names, whatever its TYPE (log entry 40); zeros if there is none. -/
def Image.damask (s : State) (vk : Nat) (i : Image) : List Byte :=
  match i.sects[at' i.hdr 32 2]? with
  | some t => (i.bytes s vk t).getD []
  | none => []

/-- FRAMES. -/
def Image.frames (s : State) (vk : Nat) (i : Image) : Nat := at' (i.damask s vk) 0 4
/-- BANKFLOOR. -/
def Image.floor (s : State) (vk : Nat) (i : Image) : Nat := at' (i.damask s vk) 4 2
/-- EPF. -/
def Image.epf (s : State) (vk : Nat) (i : Image) : Nat := at' (i.damask s vk) 8 8

/-- The contents of every section of a TYPE, with the section. -/
def Image.ofType (s : State) (vk : Nat) (i : Image) (k : Nat) : List (Sect × List Byte) :=
  (i.sects.filter fun t => t.typ == k).map fun t => (t, (i.bytes s vk t).getD [])

/-- The contents of the MEASURE section, if there is one (R110). -/
def Image.measure (s : State) (vk : Nat) (i : Image) : Option (List Byte) := (i.ofType s vk 8).head?.map Prod.snd

/-- The digest that an image carries: that of its MEASURE section, or zeros (R110). -/
def Image.digest (s : State) (vk : Nat) (i : Image) : List Byte :=
  ((i.measure s vk).map fun b => b.take 48).getD (List.replicate 48 0)

/-! ### Symbols and relocations (R98, R99) -/

/-- A symbol entry (R98). -/
structure Sym where
  sect  : Nat
  kind  : Nat
  value : Int
  aux   : Nat

/-- A relocation entry (R99), with the section that it patches. -/
structure Reloc where
  link   : Nat
  off    : Nat
  sym    : Nat
  typ    : Nat
  resv   : Nat
  addend : Int

/-- Entries of n bytes. -/
def entriesOf (n : Nat) (b : List Byte) : List (List Byte) := (List.range (b.length / n)).map fun k => (b.drop (n * k)).take n

/-- The symbols of an image. -/
def Image.syms (s : State) (vk : Nat) (i : Image) : List Sym :=
  (i.ofType s vk 4).flatMap fun q => (entriesOf 24 q.2).map fun b => {
    sect := at' b 4 2, kind := at' b 6 1, value := atInt b 8 8, aux := at' b 16 8 }

/-- The relocations of an image. -/
def Image.relocs (s : State) (vk : Nat) (i : Image) : List Reloc :=
  (i.ofType s vk 5).flatMap fun q => (entriesOf 16 q.2).map fun b => {
    link := q.1.link, off := at' b 0 4, sym := at' b 4 4, typ := at' b 8 2, resv := at' b 10 2, addend := atInt b 12 4 }

/-- A symbol that a linked image may hold: no UNDEF, no SPILL, no unassigned KIND (R98, R107). -/
def Sym.linked (t : Sym) : Bool := decide (t.kind < 6) && t.kind != 3

/-- The number of bytes of a relocation's field. -/
def Reloc.size (r : Reloc) : Nat := if r.typ = 1 then 8 else 4

/-- A relocation depends on V (R99). -/
def Reloc.vlrel (r : Reloc) : Bool := decide (10 ≤ r.typ)

/-- The value of a symbol, where V is known (R98): a LABEL names an address of the loaded image. -/
def Sym.at (t : Sym) (i : Image) (v : Nat) : Int :=
  if t.kind = 4 then (t.aux : Int) * v + t.value
  else if t.kind = 0 then t.value + i.base + ((i.sects[t.sect]?.map Sect.off).getD 0 : Nat)
  else t.value

/-- A value fits the field of a relocation TYPE, at the address p of the patched word (R99). -/
def relocFits (typ : Nat) (v p : Int) : Bool :=
  let within := fun (lo hi x : Int) => decide (lo ≤ x) && decide (x ≤ hi)
  let words := fun (lo hi x : Int) => x % 4 == 0 && within lo hi (x / 4)
  match typ with
  | 2 | 12 => within 0 4294967295 v
  | 3 | 10 => within (-16384) 16383 v
  | 4 => within 0 32767 v
  | 5 => within (-536870912) 536870911 v
  | 7 | 11 => words (-4096) 4095 v
  | 8 => words (-16384) 16383 (v - p)
  | 9 => words (-65536) 65535 (v - p)
  | _ => true

/-- The field of a relocation that depends on V holds its value v already (R109). -/
def relocHolds (typ : Nat) (v : Int) (w : Nat) : Bool :=
  if typ = 10 then w % 2 ^ 15 == wrap 15 v
  else if typ = 11 then w % 2 ^ 13 == wrap 13 (v / 4)
  else w == wrap 32 v

/-- A relocation is one that libfj accepts and, where it depends on V, has resolved (R99, R109; log entry 40): it names a symbol
of its kind, its field lies in its section, its value fits and, for the types of VLREL, stands there. -/
def Image.relocOk (s : State) (vk : Nat) (i : Image) (syms : List Sym) (v : Nat) (r : Reloc) : Bool :=
  match i.sects[r.link]?, syms[r.sym]? with
  | some t, some y =>
    let x := y.at i v + r.addend
    r.vlrel == (y.kind == 4) && decide (r.off + r.size ≤ t.size) &&
    relocFits r.typ x ((i.base + t.off + r.off : Nat) : Int) &&
    (!r.vlrel || relocHolds r.typ x (at' ((i.bytes s vk t).getD []) r.off 4))
  | _, _ => false

/-! ### The checks of R109 -/

/-- V of an image on cores of W lanes (R106, R109). -/
def Image.vfix (i : Image) (w : Nat) : Nat := min (8 * w) (at' i.hdr 14 2)

/-- Check 1 of R109: the header's constants, and every reserved field. -/
def Image.reservedOk (s : State) (vk : Nat) (i : Image) : Bool :=
  let h := i.hdr
  let d := i.damask s vk
  at' h 0 4 == 0x52414A46 && at' h 4 2 == 1 && at' h 6 2 == 64 && (at' h 10 2).testBit 1 && decide (at' h 10 2 < 4) &&
  at' h 40 8 == 0 && at' h 48 16 == 0 && (i.sects.all fun t => decide (t.flags < 2) && t.resv == 0) &&
  decide (at' d 6 2 < 2) && at' d 24 8 == 0 && (i.relocs s vk).all (fun r => r.resv == 0) &&
  ((i.measure s vk).all fun b => at' b 50 14 == 0)

/-- Check 2: every section lies in what can be read, no two meet, every TYPE and KIND is assigned. -/
def Image.sectionsOk (s : State) (vk : Nat) (i : Image) : Bool :=
  (i.sects.all fun t => decide (1 ≤ t.typ) && decide (t.typ ≤ 8) && (i.bytes s vk t).isSome) &&
  !(((List.range i.sects.length).zip i.sects).any fun p => (i.sects.take p.1).any fun t => rangesMeet t.off t.size p.2.off p.2.size) &&
  (i.syms s vk).all Sym.linked && (i.relocs s vk).all fun r => decide (1 ≤ r.typ) && decide (r.typ ≤ 12)

/-- Check 6: each role of each core has one TEXT section, and no two are of one ROLE and CORE (R97). -/
def Image.textsOk (i : Image) (n : Nat) : Bool :=
  let texts := i.sects.filter fun t => t.typ == 1
  ((List.range 3).all fun r => (List.range n).all fun k => (i.textOf r k).isSome) &&
  texts.all fun t => (texts.filter fun u => u.role == t.role && u.core == t.core).length == 1

/-- Check 7: the digest of the header and of every MEASURED section with its entry is that of MEASURE (R110). Where a measured
section has been patched for V, memory no longer holds what it covers, and the outcome is free (log entry 40). -/
def Image.measured (s : State) (vk : Nat) (i : Image) : Bool :=
  match i.measure s vk with
  | none => true
  | some b =>
    let ms := i.sects.filter fun t => t.flags.testBit 0
    let patched := (i.relocs s vk).any fun r => r.vlrel && (i.sects[r.link]?.any fun t => t.flags.testBit 0)
    at' b 48 2 == 1 &&
    if patched then Config.measureMatches s.sys.free
    else sha384 (i.hdr ++ ms.flatMap fun t => t.raw ++ (i.bytes s vk t).getD []) == b.take 48

/-- Check 9: every core's SPAD bytes and its spill regions lie in its scratchpad (R20, R107). A region ends where the next begins;
how many slots the last one has, a linked image does not hold (log entry 40). -/
def Image.spadFits (s : State) (vk n w : Nat) (i : Image) : Bool :=
  let size := spadSize i.part
  let v := i.vfix w
  let top := (i.sects.filter fun t => t.typ == 2).foldl (fun m t => max m (t.addr + t.mem)) 0
  let base := ceilDiv top 1024 * 1024
  let spills := (i.syms s vk).filter fun y => y.kind == 4 && y.value == (base : Int) && y.aux % 4 == 0
  let last := spills.foldl (fun m y => max m y.aux) 0
  ((List.range n).all fun k => (i.spads k).all fun t => decide (t.addr + t.mem ≤ size)) &&
  (spills.isEmpty || decide (base + (last + 4 * (1 + Config.spillSlots s.sys.free % 64)) * v ≤ size))

/-- Check 10: BANKFLOOR, and each ENERGY entry below FRAMES (R103, R104). -/
def Image.energyOk (s : State) (vk : Nat) (i : Image) : Bool :=
  decide (i.floor s vk ≤ 4096) &&
  (((i.ofType s vk 7).flatMap fun q => entriesOf 8 q.2).take (i.frames s vk)).all fun b =>
    at' b 0 8 == 0xFFFFFFFFFFFFFFFF || decide (at' b 0 8 ≤ i.epf s vk)

/-- The first check of R109 that a loaded image fails for N cores of W lanes: its code, 0 for none. -/
def imageCode (s : State) (vk n w : Nat) (i : Image) : Nat :=
  if !i.reservedOk s vk then 1
  else if !i.sectionsOk s vk then 2
  else if 8 * w < at' i.hdr 12 2 then 3
  else if n < i.nmin || i.nmax < n then 4
  else if !partOk i.part then 5
  else if !i.textsOk n then 6
  else if !i.measured s vk then 7
  else if !(i.relocs s vk).all (i.relocOk s vk (i.syms s vk) (i.vfix w)) then 8
  else if !i.spadFits s vk n w then 9
  else if !i.energyOk s vk then 10
  else 0

/-! ### What a launch loads (R31, R97) -/

/-- The words of a TEXT section. -/
def wordList : Nat → List Byte → List Word
  | 0, _ => []
  | n + 1, b => BitVec.ofNat 32 (at' b 0 4) :: wordList n (b.drop 4)

/-- What a role of domain index k loads. -/
def loadRole (s : State) (vk : Nat) (i : Image) (k role : Nat) : LoadedRole :=
  match i.textOf role k with
  | none => { text := [], base := 0, pc := 0 }
  | some t => {
      text := wordList (t.size / 4) ((i.bytes s vk t).getD []), base := i.base + t.off, pc := i.base + t.off + t.addr }

/-- The pool of domain index k: the image's scratchpad bytes, each section with its zeros up to MEMSIZE, zero elsewhere. -/
def loadPool (s : State) (vk : Nat) (i : Image) (k : Nat) : Mem :=
  (i.spads k).foldl (fun m t =>
    Mem.writes m (spadBase i.part + t.addr) (((i.bytes s vk t).getD [] ++ List.replicate (t.mem - t.size) 0).take t.mem)) []

/-- What a launch of N cores loads. -/
def loadImage (s : State) (vk : Nat) (i : Image) (n : Nat) : List LoadedCore :=
  (List.range n).map fun k => { roles := (List.range 3).map fun r => loadRole s vk i k r, pool := loadPool s vk i k }

/-! ## Records (R276 to R291, R309, R321) -/

/-- The record body of a TYPE, from its 64 bytes. -/
def bodyOf (vk : Nat) (ent b : List Byte) : Option Body :=
  let bv := fun (o : Nat) => BitVec.ofNat 64 (at' b o 8)
  match at' b 0 1 with
  | 0 => some .free
  | 1 => some (.barrier {
      expect := bv 8, arrived := bv 16, deadline := at' b 24 8, abs1 := bv 32, abs2 := bv 40 })
  | 2 => some (.lock {
      holder := at' b 8 1, prev := at' b 9 1, acqtick := at' b 16 8, expiry := at' b 24 8, reltick := at' b 32 8
      parties := bv 40, covers := [], hcore := 0, hrole := 3, since := at' b 16 8, pcore := 0, psince := 18446744073709551616
      mended := [], relat := 0 })
  | 3 => some (.queue {
      producers := bv 8, cap := at' b 16 1, consumers := at' b 19 1, since := [bv 24, bv 32, bv 40, bv 48], slots := []
      nextOrder := 0 })
  | 4 => some (.counter {
      Counter.fresh (at' b 12 4) vk with
      count := at' b 8 4, bitmap := maskOf (at' b 12 4) fun c => !(at' b 16 8).testBit (c % 64), state := at' b 24 1, donetick := at' b 32 8, hasParent := (at' ent 20 4).testBit 0
      parent := at' ent 8 8, ppos := at' ent 16 4, msix := at' ent 22 2 })
  | 5 => some (.coll {
      expect := bv 8, arrived := bv 16, deadline := at' b 24 8, abs1 := bv 32, planVa := at' b 40 8, span := 0
      state1 := 1, pdone1 := 0, plan := none, w0 := 0, walks := [] })
  | _ => none

/-- The object of an object-list entry of 96 bytes. -/
def objectOf (vk : Nat) (ent : List Byte) : Option Obj :=
  let b := ent.drop 32
  (bodyOf vk ent b).map fun body => {
    key := at' ent 0 8, vdid := vk % 32, window := (at' b 2 1).testBit 0, s7 := (at' b 2 1).testBit 1
    torn := (at' b 2 1).testBit 2, resolved := field (at' b 2 1) 4 3, gen := at' b 4 4, regions := [], parts := 0
    body := body }

/-- The reserved fields of a record are zero (R276, R280, R286, R289, R291, R321). -/
def recordZeros (b : List Byte) : Bool :=
  let zero := fun (o n : Nat) => at' b o n == 0
  at' b 2 1 < 32 &&
  match at' b 0 1 with
  | 1 => zero 0x30 16
  | 2 => zero 0x0A 6 && zero 0x30 16
  | 3 => zero 0x14 4 && zero 0x38 8
  | 4 => zero 0x19 7 && zero 0x28 24
  | 5 => zero 0x35 3
  | _ => true

/-- Whether the fields of an object-list entry and of its record that must be zero are, and its vector exists (R309, R363). -/
def entryOk (ent : List Byte) : Bool :=
  field (at' ent 20 4) 15 1 == 0 && at' ent 24 8 == 0 && (decide (at' ent 22 2 < 64) || at' ent 22 2 == 65535) &&
  recordZeros (ent.drop 32)

/-- The plans of the collective handles of a list, admitted; none if one is refused (R322). -/
def admitAll (s : State) (vk : Nat) (os : List Obj) : Option (List Obj) :=
  os.foldr (fun o acc => acc.bind fun l =>
    match o.body with
    | .coll c => (admitPlan s vk c).map fun c => { o with body := .coll c } :: l
    | _ => some (o :: l)) (some [])

/-- Write a record at its handle: a running walk of the handle is aborted, and an open deadline will resolve (R322). -/
def writeRecord (g : Nat) (y : Sys) (o : Obj) : Sys :=
  let y := dropUnits (setObj y o) o.key
  match o.body with
  | .barrier b => if b.deadline = 0 then y else schedule y (max b.deadline g) (.barrierResolution o.key) noMsg
  | .coll c => if c.deadline = 0 then y else schedule y (max c.deadline g) (.collResolution o.key) noMsg
  | .lock l => if l.reltick = 0 then y else schedule y (max l.reltick g) (.lockReleaseEffect o.key) noMsg
  | _ => y

/-! ## Serving an entry (R310) -/

/-- The cores that a launch names. -/
def launchCores (v : Vdev) (l : Launch) : List Nat := (v.cores.drop l.first).take l.count

/-- The descriptor's fields that must be zero, and its vector (R309, R363). -/
def descOk (b : List Byte) : Bool :=
  decide (at' b 46 1 < 2) && at' b 47 1 == 0 && (decide (at' b 44 2 < 64) || at' b 44 2 == 65535) &&
  at' b 24 8 % 64 == 0 && decide (at' b 52 4 ≤ 4096)

/-- The object list of a descriptor. -/
def objectList (s : State) (vk : Nat) (b : List Byte) : Option (List (List Byte)) :=
  if at' b 24 8 = 0 || at' b 52 4 = 0 then some []
  else (loadVa s vk (at' b 24 8) (96 * at' b 52 4)).map fun l =>
    (List.range (at' b 52 4)).map fun i => (l.drop (96 * i)).take 96

/-- What the launch unit makes of a FIFO entry at tick g, with the tick by which its work is done: a reason to refuse it, or
the launch as filled in and the records to write (R310; a collective record at another HOME than 4: log entry 98). -/
def serveLaunch (s : State) (vk ready : Nat) (l : Launch) : Except Nat (Launch × List Obj) :=
  let y := s.sys
  let v := vdOf y vk
  match loadVa s vk l.desc 64 with
  | none => .error 1
  | some b =>
    match objectList s vk b with
    | none => .error 1
    | some ents =>
      if !descOk b || !ents.all entryOk then .error 1
      else
        let l := describe b l
        let cores := launchCores v l
        let w := (cores.map fun c => (coreOf y c).lanes).headD 64
        match readImage s vk l.image with
        | none => .error 2
        | some i =>
          let code := imageCode s vk l.count w i
          if code ≠ 0 && code ≠ 4 && code ≠ 5 then .error 2
          else if cores.length < l.count || cores.contains v.control || code = 4 then .error 3
          else if code = 5 then .error 4
          else
            let objs := ents.filterMap (objectOf vk)
            if objs.length < ents.length ||
              (ents.any fun e => !(allocated y vk (at' e 0 8) && handleForm (vk / 32) (at' e 0 8) &&
                (homeField (at' e 0 8) < 4 || chipField (at' e 0 8) = vk / 32 % 524288) &&
                (at' e 32 1 != 5 || homeField (at' e 0 8) == 4))) then .error 5
            else
              match admitAll s vk objs with
              | none => .error 5
              | some objs =>
                if l.start ≠ 0 && l.start < ready then .error 6
                else .ok ({ l with
                  served := true, det := i.det, part := d64 i.part, epf := i.epf s vk, floor := i.floor s vk
                  digest := i.digest s vk, start := if l.start = 0 then ready else l.start, asap := l.start == 0
                  loaded := loadImage s vk i l.count }, objs)

/-- What the launch unit reads of a FIFO entry in memory: addresses and lengths. -/
def launchReads (s : State) (vk : Nat) (l : Launch) : List (Nat × Nat) :=
  (l.desc, 64) :: match loadVa s vk l.desc 64 with
  | none => []
  | some b =>
    (at' b 24 8, 96 * min (at' b 52 4) 4096) :: (at' b 0 8, 64) :: match readImage s vk (at' b 0 8) with
    | none => []
    | some i => (i.base + at' i.hdr 20 4, 32 * i.sects.length) :: i.sects.map fun t => (i.base + t.off, t.size)

/-- Refuse the head of the FIFO; the unit goes on to the next entry. -/
def refuseHead (s : State) (y : Sys) (vk : Nat) (l : Launch) (reason : Nat) : Sys :=
  let v := vdOf y vk
  let y := setVd y { v with fifo := v.fifo.drop 1 }
  let y := launchEnd s y vk l statusRefused reason
  if (vdOf y vk).fifo = [] then y else wakeLaunchUnit y s.gtc vk

/-- Whether the device's state lets the launch unit start a launch (R364, R368, R370). -/
def mayStart (v : Vdev) : Bool := v.st == .running && v.tdi != 3

/-- A launch's counter as its descriptor describes it; what its list entry has set stays, beside the descriptor's own, which the
launch keeps (R309, R311). -/
def Counter.described (c : Counter) (l : Launch) : Counter :=
  { c with
    hasParent := c.hasParent || l.hasParent
    parent := if c.hasParent then c.parent else l.parent
    ppos := if c.hasParent then c.ppos else l.ppos
    msix := if c.msix < 64 then c.msix else l.msix }

/-- LAUNCH_UNIT_SERVE (R310): the head of the FIFO is read and checked; it is refused, or its records are written, its
counter takes parent and vector, and its start is set. The firmware serves nothing while it is being replaced (R397). -/
def execLaunchUnitServe (vk : Nat) : State → Result := lift fun s =>
  let v := vdOf s.sys vk
  match v.fifo with
  | [] => s.sys
  | l :: rest =>
    if l.served then s.sys
    else if s.sys.mgmt.fwstate = .quiescing || s.sys.mgmt.fwstate = .handover || s.sys.mgmt.fwstate = .probation ||
        s.sys.mgmt.fwstate = .rollback then schedule s.sys (s.gtc + 1) (.launchUnitServe vk) noMsg
    else
      let (n, y) := takeFree ((launchReads s vk l).foldl (fun y q => noteReads s y vk q.1 q.2) s.sys)
      match serveLaunch s vk (s.gtc + 1 + Config.launchWork n) l with
      | .error k => refuseHead s y vk l k
      | .ok (l, objs) =>
        let y := objs.foldl (writeRecord s.gtc) y
        let y := match counterOf y l.counter with
          | some (o, c) => setObj y { o with body := .counter (c.described l) }
          | none => y
        let y := setVd y { vdOf y vk with fifo := l :: rest }
        schedule y l.start (.launchStart vk) noMsg

/-! ## The start (R31, R65, R85, R408) -/

/-- A role at TTC 0 (R31). -/
def launchRole (l : LoadedRole) (args k n chip : Nat) : RoleSt :=
  let r : RoleSt := { RoleSt.cleared with
    text := l.text, textBase := d64 l.base, pc := d64 l.pc, halted := false, counted := false }
  (((r.setS 1 (d64 args)).setS 2 (d64 k)).setS 3 (d64 n)).setS 4 (d64 chip)

/-- A core at TTC 0 of a launch as index k of its domain (R31, R123). -/
def launchCore (y : Sys) (vk : Nat) (l : Launch) (dom k n core : Nat) : Core :=
  let old := coreOf y core
  let v := vdOf y vk
  let c := Core.cleared core old.lanes (field old.cfg.toNat 18 16)
  let load := (l.loaded[k]?).getD { roles := [], pool := [] }
  { c with
    cfg := (c.cfg &&& ~~~1#64) ||| d64 (b01 l.det), part := l.part, vdid := d64 (vk % 32), lease := d64 v.lease
    pool := load.pool, dom := dom, grp := (v.xgroup[core % 192]?).getD 0, bad := old.bad, soft := old.soft
    roles := Vector.ofFn fun r : Fin 3 => match load.roles[r.val]? with
      | some t => launchRole t l.args k n (vk / 32)
      | none => .cleared }

/-- The frame figure of a launch on n cores in pJ (R85, R101). -/
def frameFigure (n epf : Nat) : Nat := n * (epf + 4096 * 260)

/-- The frame figures of the running launches of a virtual device, in pJ. -/
def runningFigures (y : Sys) (vk : Nat) : Nat :=
  (y.doms.filter fun d => d.vd == vk && d.st != .ended && !d.control).foldl (fun a d => a + d.figure) 0

/-- A device's allocation in pJ a frame: one frame takes 2.56 µs (R408). -/
def powerOf (y : Sys) (vk : Nat) : Nat := (y.mgmt.palloc[vk % 32]?).getD 0 * 2560000

/-- Make a domain of cores run a launch from TTC 0 at tick g. -/
def startDomain (g : Nat) (y : Sys) (vk : Nat) (l : Launch) (cores : List Nat) (figure : Nat) : Sys :=
  let id := y.nextDom
  let n := cores.length
  let y := { y with
    nextDom := id + 1
    doms := putBy Domain.id { Domain.none with
      id := id, vd := vk, cores := cores, st := .run, ttbase := g, launch := l, figure := figure } y.doms }
  ((List.range n).zip cores).foldl (fun y p =>
    setCore y (launchCore y vk l id p.1 n p.2)) y

/-- LAUNCH_START (R65): at its start tick the head of the FIFO is refused if a core still runs, power is short or the device may
start none, in which case one of the earliest tick waits (R310, R364); otherwise its domain begins at TTC 0 with what was
loaded, and STATUS becomes RUNNING. -/
def execLaunchStart (vk : Nat) : State → Result := lift fun s =>
  let y := s.sys
  let v := vdOf y vk
  match v.fifo with
  | [] => y
  | l :: rest =>
    if !l.served || s.gtc < l.start then y
    else
      let cores := launchCores v l
      let figure := frameFigure l.count l.epf
      if !mayStart v then
        if l.asap then schedule y (s.gtc + 1) (.launchStart vk) noMsg else refuseHead s y vk l 6
      else if cores.any fun c => (y.doms.any fun d => d.st != .ended && d.cores.contains c) then refuseHead s y vk l 7
      else if powerOf y vk < figure + runningFigures y vk then refuseHead s y vk l 8
      else
        let y := setVd y { v with fifo := rest, imageChain := sha384 (v.imageChain ++ l.digest) }
        let y := startDomain s.gtc y vk l cores figure
        let y := postVa s y vk (l.desc + 0x30) (toBytes 4 1)
        if rest = [] then y else wakeLaunchUnit y s.gtc vk

end Sys2Proof.Machine
end

