-- ==== Sys2Proof/Machine/Vdev.lean ====
section
/-! DEFINITION. Virtual devices (R346 to R371): requests and their acceptance (R352), provisioning (R350, R353, R393),
saving and restoring (R364 to R366), reset (R367), stop reports (R369), invalidation (R147), keys and windows (R359 to
R361), apertures (R357), chip tables (R351) and TDISP (R370, R371). A request's event is first the write of VDCTL
(AUX 0), then its work (AUX 1). The message's OBJ is the virtual device. -/

namespace Sys2Proof.Machine

/-! ## Requests (R352) -/

/-- Take a state's time for management work. -/
def later (y : Sys) (g : Nat) : Nat × Sys :=
  let (n, y) := takeFree y
  (g + 1 + Config.mgmtDelay n, y)

/-- The firmware serves no request now (R397, R398). -/
def firmwareBusy (y : Sys) : Bool :=
  y.mgmt.fwstate == .quiescing || y.mgmt.fwstate == .handover || y.mgmt.fwstate == .probation || y.mgmt.fwstate == .rollback

/-- The states in which a request is allowed. -/
def requestAllowed (req : Nat) (st : VdState) : Bool :=
  match req with
  | 1 => st == .absent
  | 2 => st == .running
  | 3 => st == .saved
  | 4 => st == .running || st == .saved
  | 5 => st == .stopped
  | 6 => st != .absent
  | _ => st == .running || st == .saved || st == .stopped

/-- A request answered with a RESULT and a DETAIL at once. -/
def setResult (y : Sys) (vk result detail : Nat) : Sys := setVd y { vdOf y vk with result := result, detail := detail }

/-- A request complete: BUSY cleared, RESULT given, vector n of the physical function raised. -/
def completeRequest (y : Sys) (vk result detail : Nat) : Sys :=
  raiseMsix (setVd y { vdOf y vk with busy := false, result := result, detail := detail }) 0 (vk % 32)

/-- An event of a request that a later one, or a reset, has made void (R352, R367). -/
def Vdev.stale (v : Vdev) (m : HomeMsg) : Bool := m.gen != v.reqNo

/-- TDI is CONFIG_LOCKED or RUN. -/
def Vdev.locked (v : Vdev) : Bool := v.tdi == 1 || v.tdi == 2

/-- The state that an accepted request leads to at once. -/
def stateAfter (req : Nat) (st : VdState) : VdState :=
  match req with
  | 1 => .provisioning
  | 2 => .preempting
  | 3 => .restoring
  | 4 => .stopping
  | 6 => .resetting
  | _ => st

/-- Why VDCTL refuses a request now: a RESULT (R352, R371, R398). -/
def refusal (y : Sys) (v : Vdev) (req : Nat) : Option Nat :=
  if v.busy && req ≠ 6 then some 1
  else if firmwareBusy y && req ≠ 6 then some 1
  else if req = 0 || 9 < req then some 2
  else if !requestAllowed req v.st then some 3
  else if v.locked && (req = 8 || req = 9) then some 5
  else none

/-- The write of a request to VDCTL: refused with a RESULT, or accepted with BUSY set; STOP and RESET of a locked TDI move it
to ERROR (R371). The request's event comes again for its work. -/
def acceptRequest (s : State) (req : Nat) (ev : Instr) (delay : Sys → Nat × Sys) : Sys :=
  let y := s.sys
  let vk := y.msg.obj
  let v := vdOf y vk
  match refusal y v req with
  | some r => setResult y vk r 0
  | none =>
    let y := setVd y { v with
      busy := true, st := stateAfter req v.st, reqNo := v.reqNo + 1
      tdi := if v.locked && (req = 4 || req = 6) then 3 else v.tdi }
    let (t, y) := delay y
    schedule y t ev { y.msg with aux := 1, gen := v.reqNo + 1 }

/-- A request: acceptance, then its work. -/
def vdRequest (req : Nat) (ev : Instr) (work : State → Nat → Sys) : State → Result := lift fun s =>
  let m := s.sys.msg
  if m.aux = 0 then acceptRequest s req ev fun y => later y s.gtc
  else if (vdOf s.sys m.obj).stale m then s.sys
  else work s m.obj

/-! ## Cores held (R346, R348) -/

/-- Clear cores for their next owner: every byte, tag, flag and mark (R348). -/
def clearCores (y : Sys) (cs : List Nat) : Sys :=
  cs.foldl (fun y c =>
    let old := coreOf y c
    setCore y { Core.cleared c old.lanes (field old.cfg.toNat 18 16) with bad := old.bad }) y

/-- Give cores to a virtual device. -/
def holdCores (y : Sys) (v : Vdev) (cs : List Nat) : Sys :=
  cs.foldl (fun y c => setCore y { coreOf y c with
    vdid := d64 (v.key % 32), lease := d64 v.lease, grp := (v.xgroup[c % 192]?).getD 0 }) y

/-- The cores that a mask of 192 bits names on a chip, ascending. -/
def coresOfMask (chip m : Nat) : List Nat := ((List.range 192).filter fun p => m.testBit p).map fun p => chip * 192 + p

/-- Whether a core is held by some other virtual device. -/
def heldElsewhere (y : Sys) (vk c : Nat) : Bool := y.vds.any fun w => w.key != vk && w.st != .absent && w.cores.contains c

/-! ## Provisioning (R350, R353, R393) -/

/-- The virtual device that a provisioning descriptor describes. -/
def vdOfDesc (vk : Nat) (b : List Byte) : Vdev :=
  let pair := fun (o : Nat) => (at' b o 2, at' b (o + 2) 2)
  { Vdev.absent vk with
    cores := coresOfMask (vk / 32) (at' b 0 24), control := vk / 32 * 192 + at' b 24 1, hbmslots := at' b 25 1
    hostshare := at' b 26 1, zero := (at' b 27 1).testBit 0, dirtytrack := (at' b 27 1).testBit 1, lease := at' b 28 4
    s2root := at' b 32 8, savedl := at' b 40 8, dprbase := at' b 48 8, dprsize := at' b 56 8, bres := at' b 64 8
    rlat := at' b 72 8, nchips := at' b 80 8, pgqueue := at' b 88 8, jobq := at' b 96 8
    dieobj := [pair 104, pair 108, pair 112, pair 116], tulobj := pair 120
    xgroup := (List.range 192).map fun p => at' b 128 96 / 16 ^ p % 16 }

/-- Two first-and-count ranges meet. -/
def objRangesMeet (a b : Nat × Nat) : Bool := rangesMeet a.1 a.2 b.1 b.2

/-- Every function that provisioning needs is ready (R393). -/
def readyFor (y : Sys) (v : Vdev) : Bool :=
  let r := y.mgmt.ready
  r.getLsbD 1 && r.getLsbD 5 && r.getLsbD 3 && r.getLsbD 2 && (v.cores.all fun c => r.getLsbD (8 + dieOf c)) &&
  (List.range 12).all fun k => r.getLsbD (12 + k)

/-- The first check of R353 that a descriptor fails: its DETAIL, 0 for none. -/
def descDetail (y : Sys) (vk addr : Nat) (b : List Byte) : Nat :=
  let v := vdOfDesc vk b
  let others := y.vds.filter fun w => w.key != vk && w.key / 32 == vk / 32 && w.st != .absent
  let sum := fun (f : Vdev → Nat) => (others.map f).foldl (· + ·) (f v)
  if !(decide (at' b 27 1 < 4) && at' b 124 4 == 0 && at' b 224 32 == 0 && decide (1 ≤ v.savedl) &&
      (List.range 192).all fun p => (at' b 0 24).testBit p || (v.xgroup[p]?).getD 0 == 0) then 1
  else if !v.cores.contains v.control || v.cores.any (heldElsewhere y vk) then 2
  else if v.hbmslots < 1 || 240 < sum Vdev.hbmslots || 256 < sum Vdev.hostshare then 3
  else if v.bres < 1 || 3360 < sum Vdev.bres || v.rlat < 64 || 65535 < v.rlat || v.nchips < 1 || 524288 < v.nchips then 4
  else if (v.dieobj.any fun r => decide (4096 < r.1 + r.2)) || 16384 < v.tulobj.1 + v.tulobj.2 ||
      others.any (fun w => objRangesMeet w.tulobj v.tulobj || (w.dieobj.zip v.dieobj).any fun p => objRangesMeet p.1 p.2) then 5
  else if addr % 256 ≠ 0 || field addr 63 50 ≠ 1 || v.s2root % 64 ≠ 0 || v.dprbase % 64 ≠ 0 || field v.dprbase 63 50 ≠ 1 ||
      v.dprsize % 512 ≠ 0 || 68719476736 < v.dprsize then 6
  else if !readyFor y v then 7
  else 0

/-- A role of the control program (R315). -/
def controlRole (vk role : Nat) : RoleSt :=
  let r : RoleSt := { RoleSt.cleared with text := Config.controlText vk role, halted := false, counted := false }
  (((r.setS 1 0).setS 2 0).setS 3 1).setS 4 (d64 (vk / 32))

/-- The control core as the control program finds it. -/
def controlCore (y : Sys) (v : Vdev) (dom : Nat) : Core :=
  let old := coreOf y v.control
  { Core.cleared v.control old.lanes (field old.cfg.toNat 18 16) with
    part := d64 (if partOk (Config.controlPart v.key) then Config.controlPart v.key else 0), vdid := d64 (v.key % 32)
    lease := d64 v.lease, grp := (v.xgroup[v.control % 192]?).getD 0, dom := dom, bad := old.bad
    roles := Vector.ofFn fun r : Fin 3 => controlRole v.key r.val }

/-- Start the control program: a domain of the control core, its TTBASE fixed now (R315, R353). -/
def startControl (y : Sys) (g : Nat) (v : Vdev) : Sys :=
  let id := y.nextDom
  let y := { y with
    nextDom := id + 1
    doms := putBy Domain.id { Domain.none with
      id := id, vd := v.key, cores := [v.control], st := .run, ttbase := g, control := true
      launch := { Launch.none with
        floor := Config.controlFloor v.key % 4097, epf := Config.controlEpf v.key, count := 1 } } y.doms }
  setCore y (controlCore y v id)

/-- The work of PROVISION. -/
def provisionWork (s : State) (vk : Nat) : Sys :=
  let y := s.sys
  let old := vdOf y vk
  let y := noteDma s y vk old.arg0 256
  let b := hostBytes s (vk / 32) old.arg0 256
  let detail := descDetail y vk old.arg0 b
  if detail ≠ 0 then completeRequest (setVd y { old with st := .absent }) vk 4 detail
  else
    let v := { vdOfDesc vk b with
      st := .running, busy := true, tdi := old.tdi, arg0 := old.arg0, arg1 := old.arg1, s2count := old.s2count
      s2gran := old.s2gran, s1root := old.s1root, chipTable := old.chipTable, descDigest := sha384 b
      imageChain := List.replicate 48 0, jobLast := old.jobLast, jobRefused := old.jobRefused
      jobAccepted := old.jobAccepted, reqNo := old.reqNo, since := s.gtc }
    let (n, y) := takeFree y
    let k := keySlot y (vk / 32) (vk % 32 + 1)
    let y := setKeySlot y (vk / 32) (vk % 32 + 1) { KeySlot.empty with
      kind := 1, gen := k.gen + 1, owner := vk, key := Config.freshKey n }
    let pages := if v.zero then allPages s vk v.s2root else []
    let y := setVd y { v with zeroed := pages }
    let y := { y with posts := y.posts ++ pages.map fun p : Nat × Nat × Nat => .wipe (physKey (vk / 32) p.2.1) p.2.2 }
    let y := holdCores (clearCores y v.cores) v v.cores
    completeRequest (startControl y s.gtc v) vk 0 0

/-- PROVISION (R353). -/
def execProvision : State → Result := vdRequest 1 .provision provisionWork

/-! ## Pre-emption and saving (R364 to R366) -/

/-- PREEMPT (R364): the pre-emption reaches every running domain and the control core at one tick, no more than 64 ticks
after the write; SAVEDL counts from it. -/
def execPreempt : State → Result := lift fun s =>
  let y := s.sys
  let vk := y.msg.obj
  if y.msg.aux = 0 then
    acceptRequest s 2 .preempt fun y =>
      let (n, y) := takeFree y
      (s.gtc + Config.preemptDelay n % 65, y)
  else if (vdOf y vk).stale y.msg then y
  else
    let ds := y.doms.filter fun d => d.vd == vk && d.st != .ended && d.st != .saved
    let y := ds.foldl (fun y d => schedule y s.gtc (.preemptionArrival d.id) noMsg) y
    let m := { noMsg with gen := (vdOf y vk).reqNo }
    schedule (schedule y (s.gtc + (vdOf y vk).savedl) (.saveDeadlineExpiry vk) m) (s.gtc + 1) (.vdSaved vk) m

/-- The frozen domains of a virtual device that a pre-emption holds. -/
def preempted (y : Sys) (vk : Nat) : List Domain :=
  y.doms.filter fun d => d.vd == vk && d.st == .frozen && d.preempt != []

/-- Every L that carries a pre-emption has halted in its handler (R130, R365). -/
def allSaved (ds : List Domain) : Bool := ds.all fun d => d.preempt.all d.saved.contains

/-- Transfers of some cores that are not visible, or a save record on its way: an instruction on a record of theirs is not
complete (R133, R365). -/
def savesOut (y : Sys) (cores : List Nat) : Bool :=
  (y.xfers.any fun x => cores.contains x.core && x.kind != 5) ||
  cores.any fun c => (List.range 3).any fun r => (roleOf y c r).hop.isSome

/-- The saved domains leave their cores (R365, R348): released in ascending order and cleared. -/
def saveDevice (y : Sys) (vk : Nat) (ds : List Domain) : Sys :=
  let v := vdOf y vk
  let kept := (y.doms.filter fun d => d.vd == vk && d.st != .ended && !(ds.any fun e => e.id == d.id)).flatMap Domain.cores
  let out := v.cores.filter fun c => !kept.contains c
  let y := ds.foldl (fun y d => setDom y { d with
    st := .saved, kept := d.cores.map fun c => ((coreOf y c).part, (coreOf y c).cfg, (coreOf y c).lease) }) y
  completeRequest (setVd (clearCores y out) { v with st := .saved, released := out, cores := kept }) vk 0 0

/-- VD_SAVED (R353, R365): SAVED once every L has halted or withdrawn, at least one halted, and every write of the cores is
visible; RUNNING if all withdrew; else looked at again in the next tick. -/
def execVdSaved (vk : Nat) : State → Result := lift fun s =>
  let y := s.sys
  let v := vdOf y vk
  let ds := preempted y vk
  if v.st ≠ .preempting || v.stale y.msg then y
  else if ds == [] && !(y.sched.any fun e => match e.2.1 with | .preemptionArrival _ => true | _ => false) then
    completeRequest (setVd y { v with st := .running }) vk 0 0
  else if ds != [] && allSaved ds && !savesOut y (ds.flatMap Domain.cores) then saveDevice y vk ds
  else schedule y (s.gtc + 1) (.vdSaved vk) y.msg

/-- SAVE_DEADLINE_EXPIRY (R365). -/
def execSaveDeadlineExpiry (vk : Nat) : State → Result := lift fun s =>
  let v := vdOf s.sys vk
  if v.st = .preempting && !v.stale s.sys.msg then setVd s.sys { v with savelate := true } else s.sys

/-- The state of a restored role (R366): L in its PREEMPT handler with nothing set aside, C and S as at launch. -/
def restoredRole (r : RoleSt) (role : Nat) : RoleSt :=
  if role = 0 then
    { r with
      handler := true, trapcause := causePreempt, pc := r.textBase, sregs := Vector.replicate 32 0
      aside := some {
        pc := 0, sregs := Vector.replicate 32 0, p := 0, d := 0, mode := .launch
        csrs := { Csrs.launch with vtype := 0 }, armed := false, halted := false, front := false, tick := 0, rank := 0, stop := 0
        lastSf := false } }
  else r

/-- A restored core (R366): its roles run what the launch loaded; PART, CFG and LEASE are as kept, the pool as it was cleared. -/
def restoredCore (y : Sys) (v : Vdev) (d : Domain) (k core : Nat) : Core :=
  let c := if d.control then controlCore y { v with control := core } d.id
    else { launchCore y v.key d.launch d.id k d.cores.length core with pool := [] }
  let (part, cfg, lease) := (d.kept[k]?).getD (c.part, c.cfg, c.lease)
  { c with
    part := part, cfg := cfg, lease := lease, roles := Vector.ofFn fun r : Fin 3 => restoredRole (c.role r.val) r.val }

/-- The work of RESTORE (R366): refused with DETAIL 2 unless the cores match those released and CONTROL is the core that takes the
place of the control core (log entry 42); then every saved domain is rebuilt frozen at its F, in ERROR held (R370). -/
def restoreWork (s : State) (vk : Nat) : Sys :=
  let y := s.sys
  let v := vdOf y vk
  let b := hostBytes s (vk / 32) v.arg0 64
  let new := coresOfMask (vk / 32) (at' b 0 24)
  let ds := y.doms.filter fun d => d.vd == vk && d.st == .saved
  let move := fun (c : Nat) => ((v.released.zip new).find? fun p => p.1 == c).map Prod.snd |>.getD c
  let widths := (v.released.zip new).all fun p => (coreOf y p.1).lanes == (coreOf y p.2).lanes
  let y := noteDma s y vk v.arg0 64
  if new.length ≠ v.released.length || !widths || new.any (heldElsewhere y vk) || at' b 25 39 ≠ 0 ||
      vk / 32 * 192 + at' b 24 1 ≠ move v.control then
    completeRequest (setVd y { v with st := .saved }) vk 4 2
  else
    let v := { v with
      cores := (new ++ v.cores).foldl (fun l c => putBy (fun x : Nat => x) c l) [], control := move v.control, released := [] }
    let y := holdCores (setVd y v) v new
    let y := ds.foldl (fun y d =>
      let d := { d with
        cores := d.cores.map move, st := .frozen, checked := some d.f, preempt := List.range d.cores.length, saved := []
        stopHold := d.stopHold || v.tdi == 3 }
      let y := setDom y d
      ((List.range d.cores.length).zip d.cores).foldl (fun y p => setCore y (restoredCore y v d p.1 p.2)) y) y
    y

/-- RESTORE (R366). -/
def execRestore : State → Result := vdRequest 3 .restore restoreWork

/-- A restoring device whose domains all run is RUNNING (R353). -/
def restoredIfRunning (y : Sys) (vk : Nat) : Sys :=
  let v := vdOf y vk
  if v.st = .restoring && (y.doms.all fun d => d.vd != vk || d.st == .run || d.st == .ended) then
    completeRequest (setVd y { v with st := .running }) vk 0 0
  else y

/-! ## Stop reports (R369) -/

/-- Every domain of a virtual device is held (R368), a running one frozen at F = g − TTBASE + 1. -/
def holdDevice (s : State) (y : Sys) (vk : Nat) : Sys :=
  (y.doms.filter fun d => d.vd == vk).foldl (fun y d =>
    let y := holdDomain y s.gtc d
    if d.st = .run then settle backOf s y d.id else y) y

/-- A post that goes to memory of a virtual device: under its own slot, or under one of the pool in which it takes part. -/
def postInto (y : Sys) (vk : Nat) (p : Post) : Bool :=
  match p with
  | .write _ slot _ _ _ _ _ _ => slot == vk % 32 + 1 || (decide (33 ≤ slot) && (keySlot y (vk / 32) slot).parts.testBit (vk % 32))
  | _ => false

/-- A transfer writes into a chip from another one. -/
def reaches (s : State) (x : Xfer) (chip : Nat) : Bool :=
  x.shadow.toMemory && (x.moves.filterMap Move.dst).any fun d =>
    ((xlate s (vdKeyOf s.sys x.core) d).bind fun t => farEnd s.sys (vdKeyOf s.sys x.core) t.pa) == some chip

/-- Writes to a virtual device's memory that a stop waits for (R369): transfers of its cores, and those of its job's other chips
through apertures that were issued by the tick of the stop, walks, proxy batches, host writes that a fence holds up, and what
becomes visible in the next tick. -/
def stopPending (s : State) (vk tick : Nat) : Bool :=
  let y := s.sys
  (y.xfers.any fun x => x.kind != 5 && (vdKeyOf y x.core == vk ||
    (decide (x.stage < 3) && decide (x.issue ≤ tick) && vdKeyOf y x.core % 32 == vk % 32 && reaches s x (vk / 32)))) ||
  y.posts.any (postInto y vk) || hostDeferred y vk ||
  (y.objs.any fun o => match o.body with
    | .coll c => o.vdid == vk % 32 && c.walks != []
    | _ => false) ||
  y.shadows.any fun w => w.flying != [] && w.chip == vk / 32

/-- The dirty-page report (R369). -/
def dirtyReport (v : Vdev) : List Byte :=
  toBytes 8 (v.round + 1) ++ toBytes 8 v.dirtySet.length ++ toBytes 1 (b01 v.dprOver) ++ List.replicate 47 0 ++
  (List.range (v.dprsize / 8)).map fun i => BitVec.ofNat 8 (maskOf 8 fun b => v.dirtySet.contains (8 * i + b))

/-- STOP_PUBLISH (R369): once every issued write is visible STOPPED reads 1 and the report is written; a tick later, when
it is visible, DPREADY reads 1 and the device is STOPPED. -/
def execStopPublish (vk : Nat) : State → Result := lift fun s =>
  let y := s.sys
  let v := vdOf y vk
  if v.st ≠ .stopping || v.stale y.msg then y
  else if v.stoppedBit then
    completeRequest (setVd y { v with st := .stopped, dpready := v.dirtytrack }) vk 0 0
  else if stopPending s vk y.msg.dl then schedule y (s.gtc + 1) (.stopPublish vk) y.msg
  else
    let y := if v.dirtytrack then { y with posts := y.posts ++ hostPosts (vk / 32) v.dprbase (dirtyReport v) } else y
    let v := if v.dirtytrack then { v with dirtySet := [], dprOver := false, round := v.round + 1 } else v
    schedule (setVd y { v with stoppedBit := true }) (s.gtc + 1) (.stopPublish vk) y.msg

/-- The domains of a virtual device without their stop hold; each that no other cause holds resumes (R368). In ERROR the hold
stays (R370). -/
def releaseStop (y : Sys) (g vk : Nat) : Sys :=
  if (vdOf y vk).tdi = 3 then y
  else (y.doms.filter fun d => d.vd == vk).foldl (fun y d => tryResume (setDom y { d with stopHold := false }) g d.id) y

/-- CONTINUE (R353, R368). -/
def execContinueReq : State → Result := vdRequest 5 .continueReq fun s vk =>
  let v := vdOf s.sys vk
  let y := setVd s.sys { v with st := if v.released = [] then .running else .saved, stoppedBit := false, dpready := false }
  completeRequest (releaseStop y s.gtc vk) vk 0 0

/-! ## Reset (R352, R367) -/

/-- The status of a domain that a reset of its device ends (R89); no descriptor shows it. -/
def statusReset : Nat := 6

/-- End every domain of a virtual device by its reset, abandoning its launches. -/
def resetDomains (y : Sys) (g vk : Nat) : Sys :=
  (y.doms.filter fun d => d.vd == vk && d.st != .ended).foldl (fun y d =>
    let y := setDom y { d with st := .ended, endStatus := statusReset, f := d.ttc g }
    if d.control then y else abandonLaunch y g vk d.launch.seq) y

/-- Retire the keys of a virtual device and end its participation in windows (R367 steps 3 and 5). -/
def retireKeys (y : Sys) (vk : Nat) : Sys :=
  let y := { y with keys := y.keys.map fun p : Nat × KeySlot =>
      if p.1 / 64 != vk / 32 then p
      else if p.1 % 64 == vk % 32 + 1 || (p.2.kind == 3 && p.2.owner == vk) then
        (p.1, { KeySlot.empty with gen := p.2.gen })
      else if p.2.kind == 2 then (p.1, { p.2 with parts := clearBit p.2.parts (vk % 32) })
      else p }
  { y with window := y.window.map fun w : WinUnit => { w with evs := w.evs.map fun e : WinEvent => { e with
      got := e.got.filter fun p => p.1 != vk } } }

/-- What RESET and FLR do (R367), at the end of the tick's cycle: every domain is held, which completes every started row (R87), so
that this is the boundary, and nothing issues after it; then the rest in its order. The TDI of a locked device moves to ERROR
(R371; log entry 83). -/
def resetDevice (s : State) (y : Sys) (vk : Nat) : Sys :=
  let v := vdOf y vk
  if v.st = .absent then y
  else
    let g := s.gtc
    let result := if v.st = .preempting then 6 else if v.st = .resetting then v.result else 0
    let y := resetDomains (holdDevice s y vk) g vk
    let y := (v.fifo).foldl (fun y l => abandonLaunch y g vk l.seq) y
    let y := { y with xfers := y.xfers.filter fun x => vdKeyOf y x.core != vk }
    let y := retireKeys y vk
    let stays := fun (o : Obj) =>
      (o.window && o.body != .free) || o.vdid != vk % 32 || chipField o.key != vk / 32 % 524288
    let y := { y with
      objs := y.objs.filter stays
      apertures := y.apertures.filter fun a => a.2.1 != vk
      torn := y.torn.filter fun t => (objOf y t.obj).any stays
      cached := y.cached.filter fun c => c.vd != vk }
    let y := clearCores y v.cores
    let (t, y) := later y g
    let y := setVd y { Vdev.absent vk with
      st := .resetting, busy := true, result := result, reqNo := v.reqNo + 1, tdi := if v.locked || v.tdi = 3 then 3 else 0 }
    schedule y t (.vdResetComplete vk) { noMsg with gen := v.reqNo + 1 }

/-- RESET (R367), in hardware. -/
def execResetReq : State → Result := lift fun s =>
  let y := s.sys
  let vk := y.msg.obj
  match refusal y (vdOf y vk) 6 with
  | some r => setResult y vk r 0
  | none => resetDevice s y vk

/-- A virtual device that does not exist with its registers as a reset leaves them (R349, R404): RESULT stays. -/
def Vdev.blank (v : Vdev) : Vdev := { Vdev.absent v.key with result := v.result, reqNo := v.reqNo }

/-- A function level reset of a virtual device (R349, R352): of one that does not exist, its registers alone; and the MSI-X table
of its function, as PCI Express resets it (log entry 84). -/
def resetFunction (s : State) (y : Sys) (vk : Nat) : Sys :=
  let v := vdOf y vk
  let y := { y with mgmt := { y.mgmt with vectors := y.mgmt.vectors.filter fun e => e.key / 64 != vk % 32 } }
  if v.st = .absent then setVd y v.blank else resetDevice s y vk

/-- The registers of the management block that belong to the physical function at their reset values (R6, R402); what reports the
chip's state stays (log entry 83). -/
def Mgmt.blank (m : Mgmt) : Mgmt :=
  let r := Mgmt.reset
  { m with
    evbase := r.evbase, evsize := r.evsize, evhead := r.evhead, evtail := r.evtail, evlost := r.evlost, evvec := r.evvec, evposted := 0
    tcrit := r.tcrit, temerg := r.temerg, palloc := r.palloc, fwarg := r.fwarg, fwresult := r.fwresult }

/-- FLR (R352): of a virtual function its device, of the physical function every device in ascending VDID. -/
def execFlr (fn : Nat) : State → Result := lift fun s =>
  let chip := s.sys.mgmt.chip
  if fn = 0 then
    (List.range 32).foldl (fun y n => resetFunction s y (chip * 32 + n)) { s.sys with mgmt := s.sys.mgmt.blank }
  else resetFunction s s.sys (chip * 32 + fn)

/-- VD_RESET_COMPLETE (R353, R367): ABSENT with its RESULT; during a firmware update it waits (R398). -/
def execVdResetComplete (vk : Nat) : State → Result := lift fun s =>
  let v := vdOf s.sys vk
  if v.st ≠ .resetting || v.stale s.sys.msg then s.sys
  else if firmwareBusy s.sys then schedule s.sys (s.gtc + 1) (.vdResetComplete vk) s.sys.msg
  else completeRequest (setVd s.sys v.blank) vk v.result 0

/-! ## Invalidation, fault count, chip tables -/

/-- INVAL2 (R147, R352): the invalidation is issued. -/
def execInval2 : State → Result := lift fun s =>
  let m := s.sys.msg
  if m.aux = 0 then acceptRequest s 7 .inval2 fun y => (s.gtc, y)
  else if (vdOf s.sys m.obj).stale m then s.sys
  else
    let (t, y) := later s.sys s.gtc
    let v := vdOf y m.obj
    schedule y t (.stage2InvalidationComplete m.obj) { noMsg with dl := v.arg0, aux := field v.arg1 31 0, gen := v.reqNo }

/-- STAGE2_INVALIDATION_COMPLETE (R147): no cache holds an old value of the range from now (PARTY 0); a tick later, when what was
written through one is visible, and once no transfer uses one, BUSY clears with RESULT 0 and the physical function's vector is
raised (PARTY 1). -/
def execStage2InvalidationComplete (vk : Nat) : State → Result := lift fun s =>
  let m := s.sys.msg
  let again := fun (y : Sys) => schedule y (s.gtc + 1) (.stage2InvalidationComplete vk) { m with party := 1 }
  if (vdOf s.sys vk).stale m then s.sys
  else if m.party = 0 then again (dropCached s.sys vk true m.dl m.aux)
  else if usesOld s vk true m.dl m.aux then again s.sys
  else completeRequest s.sys vk 0 0

/-- S2FAULT_CLEAR (R349): a 1 in any bit of COUNT clears it. -/
def execS2faultClear (vk v : Nat) : State → Result := lift fun s =>
  if field v 63 48 = 0 then s.sys else setVd s.sys { vdOf s.sys vk with s2count := 0 }

/-- CHIP_TABLE_WRITE (R351). -/
def execChipTableWrite (vk : Nat) (table : List (Nat × Nat × Nat)) : State → Result := lift fun s =>
  setVd s.sys { vdOf s.sys vk with chipTable := table }

/-! ## Keys (R359, R360) -/

/-- The key record that ARG0 names. -/
def keyRecord (s : State) (vk : Nat) : List Byte := hostBytes s (vk / 32) (vdOf s.sys vk).arg0 64

/-- KEYLOAD's record lies in region 1. -/
def keyPlace (s : State) (vk : Nat) : Bool := field (vdOf s.sys vk).arg0 63 50 == 1

/-- What every key record must hold: a pool slot, its kind, zeros. -/
def recordOk (b : List Byte) (kind : Nat) : Bool :=
  decide (33 ≤ at' b 0 1) && decide (at' b 0 1 ≤ 63) && at' b 1 1 == kind &&
  at' b 2 2 == 0 && at' b 20 4 == 0 && (kind == 3 || at' b 32 32 == 0)

/-- Some participant of a window is locked: its window participation is fixed (R370; log entry 85). -/
def lockedPart (y : Sys) (vk parts : Nat) : Bool := (List.range 32).any fun n => parts.testBit n && (vdOf y (vk / 32 * 32 + n)).locked

/-- A virtual device exists: from the completion of its provisioning until its reset (R346). -/
def Vdev.lives (v : Vdev) : Bool := v.st != .absent && v.st != .provisioning && v.st != .resetting

/-- The device whose block alone may retire a slot: its owner; of a window the first participant, which is the device that made it
while it takes part, then the lowest-numbered that does (log entry 58). -/
def retirer (k : KeySlot) : Nat :=
  if k.kind ≠ 2 || k.parts.testBit (k.owner % 32) then k.owner
  else (((List.range 32).find? k.parts.testBit).map fun n => k.owner / 32 * 32 + n).getD k.owner

/-- A window's object after its retirement: free, and allocated to none until the device that made the window is reset (R28, R360);
where that has happened it is a free object of its range. -/
def retireObject (y : Sys) (k : KeySlot) : Sys :=
  match objOf y k.wobj with
  | some o => dropUnits (if k.parts.testBit (k.owner % 32) then setObj y { o with body := .free } else freeObj y o.key) o.key
  | none => y

/-- The work of KEYLOAD with KIND RETIRE (log entries 58, 59). -/
def retireWork (s : State) (vk : Nat) : Sys :=
  let y := noteDma s s.sys vk (vdOf s.sys vk).arg0 64
  let b := keyRecord s vk
  let slot := at' b 0 1
  let k := keySlot y (vk / 32) slot
  if !keyPlace s vk || !recordOk b 0 || k.kind = 0 || retirer k ≠ vk then completeRequest y vk 4 1
  else if k.kind = 2 && lockedPart y vk k.parts then completeRequest y vk 5 0
  else
    let y := setKeySlot y (vk / 32) slot { KeySlot.empty with gen := k.gen }
    let y := { y with window := y.window.filter fun w => w.chip != vk / 32 || w.slot != slot }
    completeRequest (if k.kind = 2 then retireObject y k else y) vk 0 0

/-- The work of KEYLOAD with KIND WINDOW. -/
def windowWork (s : State) (vk : Nat) : Sys :=
  let y := noteDma s s.sys vk (vdOf s.sys vk).arg0 64
  let b := keyRecord s vk
  let slot := at' b 0 1
  let parts := at' b 16 4
  let h := at' b 24 8
  let k := keySlot y (vk / 32) slot
  if !keyPlace s vk || !recordOk b 2 || k.kind ≠ 0 || !parts.testBit (vk % 32) ||
      ((List.range 32).any fun n => parts.testBit n && !(vdOf y (vk / 32 * 32 + n)).lives) ||
      !(homeField h == 4 && handleForm (vk / 32) h && chipField h == vk / 32 % 524288 &&
        inRange (vdOf y vk).tulobj (field h 13 0)) then completeRequest y vk 4 1
  else if lockedPart y vk parts then completeRequest y vk 5 0
  else
    let (n, y) := takeFree y
    let y := setKeySlot y (vk / 32) slot { KeySlot.empty with
      kind := 2, gen := k.gen + 1, owner := vk, parts := parts, wobj := h, key := Config.freshKey n }
    let y := setObj y {
      key := h, vdid := vk % 32, window := true, s7 := false, torn := false, resolved := 0, gen := 0, regions := []
      parts := parts
      body := .lock {
        holder := 255, prev := 255, acqtick := 0, expiry := 0, reltick := 0, since := 0, pcore := 0
        psince := 18446744073709551616, mended := [], relat := 0, parties := BitVec.allOnes 64, covers := [], hcore := 0
        hrole := 3 } }
    completeRequest y vk 0 0

/-- A key import under a record, unless that fails a check (R360). -/
def importKey (y : Sys) (vk : Nat) (b : List Byte) : Option Sys :=
  let slot := at' b 0 1
  let k := keySlot y (vk / 32) slot
  if !recordOk b 3 || k.kind ≠ 0 then none
  else some (setKeySlot y (vk / 32) slot { KeySlot.empty with
    kind := 3, gen := k.gen + 1, owner := vk, stream := at' b 4 4, next := at' b 8 8, key := (b.drop 32).take 32 })

/-- The work of KEYLOAD with KIND IMPORT. -/
def importWork (s : State) (vk : Nat) : Sys :=
  let y := noteDma s s.sys vk (vdOf s.sys vk).arg0 64
  match if keyPlace s vk then importKey y vk (keyRecord s vk) else none with
  | some y => completeRequest y vk 0 0
  | none => completeRequest y vk 4 1

/-- An import through a tenant's secured session (R371, R407): the record comes in the session, which answers, and the virtual
device's block shows nothing of it (log entry 58). -/
def sessionImport (y : Sys) (vk : Nat) (record : List Byte) : Sys :=
  let live := (vdOf y vk).st == .running || (vdOf y vk).st == .saved || (vdOf y vk).st == .stopped
  match if live && record.length == 64 then importKey y vk record else none with
  | some y => sendOut y (.spdm (vk % 32) [[0]] (Config.spdmSign (record ++ [0])))
  | none => sendOut y (.spdm (vk % 32) [[4]] (Config.spdmSign (record ++ [4])))

/-- KEYLOAD_RETIRE. -/
def execKeyloadRetire : State → Result := vdRequest 8 .keyloadRetire retireWork
/-- KEYLOAD_WINDOW. -/
def execKeyloadWindow : State → Result := vdRequest 8 .keyloadWindow windowWork
/-- KEYLOAD_IMPORT, of a request; with a record in its message, of a tenant's SPDM secured session, which a locked device takes too
(R371). -/
def execKeyloadImport : State → Result := fun s =>
  if s.sys.msg.data = [] then vdRequest 8 .keyloadImport importWork s
  else lift (fun s => sessionImport s.sys s.sys.msg.obj s.sys.msg.data) s

/-! ## Apertures (R357) -/

/-- APERTURE: programs or invalidates an aperture that no other virtual device holds. -/
def execAperture : State → Result := vdRequest 9 .aperture fun s vk =>
  let y := s.sys
  let v := vdOf y vk
  let key := vk / 32 * 1024 + field v.arg0 9 0
  if y.apertures.any fun a => a.1 == key && a.2.1 != vk then completeRequest y vk 4 2
  else
    let rest := y.apertures.filter fun a => a.1 != key
    completeRequest { y with
      apertures := if v.arg0.testBit 63 then (key, vk, field v.arg1 51 40, field v.arg1 18 0) :: rest else rest } vk 0 0

/-! ## TDISP (R370) -/

/-- The device of a function of this chip. -/
def fnDevice (y : Sys) (fn : Nat) : Nat := y.mgmt.chip * 32 + fn

/-- LOCK_INTERFACE_REQUEST: CONFIG_UNLOCKED to CONFIG_LOCKED, only while RUNNING. -/
def execLockInterfaceRequest (fn : Nat) : State → Result := lift fun s =>
  let v := vdOf s.sys (fnDevice s.sys fn)
  if v.st = .running && v.tdi = 0 then setVd s.sys { v with tdi := 1 } else s.sys

/-- START_INTERFACE_REQUEST: CONFIG_LOCKED to RUN. -/
def execStartInterfaceRequest (fn : Nat) : State → Result := lift fun s =>
  let v := vdOf s.sys (fnDevice s.sys fn)
  if v.tdi = 1 then setVd s.sys { v with tdi := 2 } else s.sys

/-- STOP_INTERFACE_REQUEST: RESET of the virtual device (R370; log entry 89). -/
def execStopInterfaceRequest (fn : Nat) : State → Result := lift fun s =>
  let vk := fnDevice s.sys fn
  let y := resetDevice s s.sys vk
  setVd y { vdOf y vk with tdi := 0 }

end Sys2Proof.Machine
end

