-- ==== Sys2Proof/Machine/Engine.lean ====
section
/-! DEFINITION. What the machine does by itself: the tick (R5, R65, R70), a cycle's events in their order, freezes and resumes
(R89 to R92), frame boundaries (R76, R84 to R86), the back end's events over the table of its instructions, and STOP
(R368). -/

namespace Sys2Proof.Machine

/-! ## Underrun (R70) -/

/-- The underruns of a running domain at the start of its cycle c. -/
def underruns (g : Nat) (y : Sys) (d : Domain) : Sys :=
  let c := d.ttc g
  if d.st != .run then y
  else d.cores.foldl (fun y core => (List.range 3).foldl (fun y role =>
    let r := roleOf y core role
    if r.armed && !r.handler && decide (r.ns ≤ (c : Int) + 1) then takeCause y g core role (domainCause 1 r.pWord 255)
    else y) y) y

/-! ## The tick -/

/-- Answers that some landing still awaits; the others are dropped. -/
def awaited (y : Sys) : List Answer :=
  let tickets := y.cores.flatMap fun c =>
    c.landings.map Landing.ticket ++ (List.range 3).flatMap fun r => match (c.role r).hop with
      | some h => h.lands.map Landing.ticket
      | none => []
  y.answers.filter fun a => tickets.contains a.ticket

/-- The sensors are read from the first tick on, and the power meter at the end of every 2^20 ticks (R402; log entry 72). -/
def sensorTick (g : Nat) (m : Mgmt) : Mgmt :=
  { m with sensed := true, watts := if g % 1048576 = 0 then Config.inputPower g else m.watts }

/-- GTC_TICK: GTC advances; what was posted becomes visible, then the messages leave that wait for it (R363); every
running domain is in its next cycle, and an armed role that has let its stamp go by underruns (R65, R70); what a stalled link holds
is promised a tick later (R383). Then, in
this order: what is due before the cycles, the cycles, and what is due after them (log entry 1). -/
def execGtcTick : State → Result := fun s =>
  let posts := s.sys.posts
  let mgmt := sensorTick (s.gtc + 1) { s.sys.mgmt with evposted := 0 }
  let y := { s.sys with posts := [], outbox := s.sys.outbox ++ sentOf posts, answers := awaited s.sys, mgmt := mgmt }
  let y := flushCorrected (y.doms.foldl (underruns (s.gtc + 1)) (stallTick s y)) (s.gtc + 1)
  .next {
    gtc := s.gtc + 1, mem := drainPosts s.mem posts
    sys := { y with agenda := [.due false, .cycle, .due true] } }

/-! ## Scheduled events in their order (R278; log entry 1) -/

/-- The rank of an event among those due in one tick; below 10 it comes before the domains' cycles. A tag is answered for before
the deliveries of the tick, and set after them (R174). The four classes of a home are 11 to 14, proxied pushes join them
first (R334); what the device's firmware, the host and the chassis do comes last. -/
def rankOf : Instr → Nat
  | .domainResume _ => 0
  | .launchStart _ => 1
  | .transferDelivery _ _ p => if p = 4 then 2 else if p = 1 then 3 else if p = 3 then 4 else 5
  | .xinvComplete _ _ => 5
  | .collWalkDone _ _ => 6
  | .proxyBatchArrival _ _ _ => 10
  | .homeArrive | .homeBarjoin | .homeRel | .homeQpush | .homeBind | .homeLaunch | .homeCancel | .homeColl | .homeCollabort => 11
  | .counterCompletion _ _ | .queueAbandonment _ _ | .shadowQproxy => 11
  | .homeBarshed => 12
  | .barrierResolution _ | .collResolution _ | .lockReleaseEffect _ => 13
  | .homeBwait | .homeAcq | .homeQrecv | .homeCwait | .homeCollwait => 14
  | _ => 20

/-- The party or contributor by which a home orders the events of one class. -/
def orderOf (i : Instr) (m : HomeMsg) : Nat :=
  match i with
  | .counterCompletion _ c => c
  | _ => m.party

/-- An event comes before another: by rank, then by party; the earlier listed of two equal ones first. -/
def soonerThan (a b : Nat × Instr × HomeMsg) : Bool :=
  decide (rankOf a.2.1 < rankOf b.2.1) ||
  (decide (rankOf a.2.1 = rankOf b.2.1) && decide (orderOf a.2.1 a.2.2 < orderOf b.2.1 b.2.2))

/-- An event is due in a tick, before or after the cycles. -/
def isDue (g : Nat) (late : Bool) (e : Nat × Instr × HomeMsg) : Bool := decide (e.1 ≤ g) && (decide (10 ≤ rankOf e.2.1) == late)

/-- An earlier listed event holds a later one back: both in one class and of one role to one home, so that they are served in push
order (R299); of the entries of proxied batches (role 4) those of one producer of one queue (R334). -/
def holdsBack (a b : Nat × Instr × HomeMsg) : Bool :=
  isHomeEvent a.2.1 && isHomeEvent b.2.1 && rankOf a.2.1 == rankOf b.2.1 && a.2.2.role == b.2.2.role &&
  if a.2.2.role = 4 then a.2.2.obj == b.2.2.obj && a.2.2.party == b.2.2.party
  else a.2.2.core == b.2.2.core && servedAt a.2.1 a.2.2 == servedAt b.2.1 b.2.2

/-- Another due event of the same object and class has a smaller party (R278). -/
def isBeaten (due : List (Nat × Instr × HomeMsg)) (e : Nat × Instr × HomeMsg) : Bool :=
  due.any fun b => b.2.2.obj == e.2.2.obj && rankOf b.2.1 == rankOf e.2.1 && decide (orderOf b.2.1 b.2.2 < orderOf e.2.1 e.2.2)

/-- The first due event of a list among those that may come now, of which some due ones stand before it, with the others. -/
def takeFrom (g : Nat) (late : Bool) (may : Nat × Instr × HomeMsg → Bool) :
    List (Nat × Instr × HomeMsg) → List (Nat × Instr × HomeMsg) →
    Option ((Nat × Instr × HomeMsg) × List (Nat × Instr × HomeMsg))
  | _, [] => none
  | before, e :: l =>
    let mine := isDue g late e && may e && !before.any fun b => holdsBack b e
    match takeFrom g late may (if isDue g late e then e :: before else before) l with
    | none => if mine then some (e, l) else none
    | some (b, rest) => if mine && !soonerThan b e then some (e, l) else some (b, e :: rest)

/-- The first due event of a list before or after the cycles, with the others: of the first class, in ascending party at each object
and in push order of each role (R278, R299); where the two orders contradict each other, push order decides (log entry 94). -/
def takeDue (g : Nat) (late : Bool) (l : List (Nat × Instr × HomeMsg)) :
    Option ((Nat × Instr × HomeMsg) × List (Nat × Instr × HomeMsg)) :=
  let due := l.filter (isDue g late)
  let first := due.foldl (fun m e => min m (rankOf e.2.1)) 20
  match takeFrom g late (fun e => rankOf e.2.1 == first && !isBeaten due e) [] l with
  | some r => some r
  | none => takeFrom g late (fun _ => true) [] l

/-! ## A domain's cycle -/

/-- What a domain does in a tick: the frame boundary, the front ends unless they have had their turns in this cycle before a
freeze (R111), the phases of the back ends; a frozen domain's handlers alone. -/
def domainTurns (s : State) (d : Domain) : List Turn :=
  let c := d.ttc s.gtc
  let done := d.cores.flatMap fun core => (List.range 3).filterMap fun r =>
    match (roleOf s.sys core r).hop with
    | some h => if h.ready ≤ s.gtc then some (.ev (.handlerBackendComplete core r) noMsg) else none
    | none => none
  let fronts := d.cores.flatMap fun core => (List.range 3).map fun r => Turn.front core r
  if d.inCycle then
    let fronts := if d.fronted = some c then [] else fronts
    (if 0 < c && c % 4096 = 0 then [.ev (.frameBoundary d.id) noMsg] else []) ++ done ++ fronts ++
    (List.range 5).map fun p => Turn.back d.id p
  else if d.st = .ended || d.st = .saved then []
  else done ++ fronts ++ [.back d.id 3]

/-- Whether the front end of a role may execute now (R87, R91, R114, R131). -/
def mayExecute (s : State) (core role : Nat) : Bool :=
  let r := roleOf s.sys core role
  let d := domOfCore s.sys core
  !r.halted && r.sacc.isNone &&
  match r.aside with
  | some a => a.tick != s.gtc && d.st != .ended && d.st != .saved
  | none => d.inCycle

/-- The scalar accesses of a domain that are served now: in order of core and role, each whose banks neither the timetable,
a transfer nor an earlier one uses (R115). -/
def servedNow (s : State) (d : Domain) : List (Nat × Nat) :=
  let cyc := d.ttc s.gtc
  let used := d.cores.map fun c => (c, takenBanks backOf s d cyc c)
  let all := d.cores.flatMap fun core => (List.range 3).filterMap fun r =>
    match (roleOf s.sys core r).sacc with
    | some a => if a.mayGo d cyc (roleOf s.sys core r).handler then some (core, r, a) else none
    | none => none
  (all.foldl (fun (acc : List (Nat × Nat) × List (Nat × Nat)) p =>
    let b := banksOf p.2.2.off (2 ^ p.2.2.wd)
    if acc.2.any fun u => u.1 == p.2.2.core && (u.2 &&& b) != 0 then acc
    else (acc.1 ++ [(p.1, p.2.1)], (p.2.2.core, b) :: acc.2)) ([], used)).1

/-- The back-end events of a domain in one phase of its cycle. -/
def backTurns (s : State) (d : Domain) (phase : Nat) : List Turn :=
  let cyc := d.ttc s.gtc
  let roles := d.cores.flatMap fun core => (List.range 3).map fun r => (core, r)
  if phase = 3 then (servedNow s d).map fun p => .ev (.scalarAccessService p.1 p.2) noMsg
  else if !d.inCycle then []
  else if phase = 0 then
    roles.filterMap fun p =>
      match (roleOf s.sys p.1 p.2).queue.find? fun e => e.issued.isNone with
      | some e => if e.stamp = cyc then some (.ev (.entryIssue p.1 p.2) noMsg) else none
      | none => none
  else if phase = 1 then
    (livesOf backOf s d cyc).flatMap fun l =>
      if l.fresh then [] else (l.dueRows cyc).map fun k => .ev (.rowSample l.core l.role l.e.seq k 0) noMsg
  else if phase = 2 then
    d.cores.flatMap fun core =>
      (((coreOf s.sys core).pends.filter fun p => decide (p.due ≤ cyc)).foldl (fun (l : List (Nat × Nat × Nat)) p =>
        if l.contains (p.role, p.seq, p.k) then l else l ++ [(p.role, p.seq, p.k)]) []).map fun t =>
          .ev (.rowSample core t.1 t.2.1 t.2.2 1) noMsg
  else
    d.cores.flatMap fun core =>
      ((coreOf s.sys core).landings.filter fun l => decide (l.due ≤ cyc)).map fun l => .ev (.rowLanding core l.lid) noMsg

/-- A back-end phase: the cycle is checked first, then the phase's events are listed. -/
def expandBack (s : State) (dom phase : Nat) : Sys :=
  let s := { s with sys := guardCycle backOf s dom }
  match domAt s.sys dom with
  | some d => { s.sys with agenda := backTurns s d phase ++ s.sys.agenda }
  | none => s.sys

/-! ## The back end's events -/

/-- ENTRY_ISSUE (R14). -/
def execEntryIssue (core role : Nat) : State → Result := lift fun s => issueEntry backOf s core role

/-- ROW_SAMPLE (R74): stage 0 samples row k, stage 1 makes its scratchpad read (R77, R78). -/
def execRowSample (core role seq k stage : Nat) : State → Result := lift fun s =>
  if stage = 0 then sampleRow backOf s core role seq k else readRow backOf s core role seq k

/-- ROW_LANDING (R24). -/
def execRowLanding (core lid : Nat) : State → Result := lift fun s => landOne backOf s core lid

/-- SCALAR_ACCESS_SERVICE (R115). -/
def execScalarAccessService (core role : Nat) : State → Result := lift fun s => serveScalar backOf s core role

/-- The banks of cores that no transfer or walk takes in this tick (R76). -/
def busyBanks (s : State) (cores : List Nat) : List (Nat × Nat) :=
  cores.map fun c => (c, takenBanks backOf s (domOfCore s.sys c) ((domOfCore s.sys c).ttc s.gtc) c)

/-- TRANSFER_DELIVERY (R150, R171, R174). -/
def execTransferDelivery (_core xid phase : Nat) : State → Result := lift fun s =>
  match xferOf s.sys xid with
  | none => s.sys
  | some x => transferEvent (busyBanks s x.pools) s x phase

/-- COLL_WALK_DONE (R324, R329). -/
def execCollWalkDone (h gen : Nat) : State → Result := lift fun s => walkEvent (busyBanks s (walkCores s.sys h)) s h gen

/-- HANDLER_BACKEND_COMPLETE (R91): the answers that the instruction awaited land, and the next one may issue. -/
def execHandlerBackendComplete (core role : Nat) : State → Result := lift fun s =>
  let r := roleOf s.sys core role
  match r.hop with
  | none => s.sys
  | some h =>
    if s.gtc < h.ready then s.sys
    else if h.fence && fencesOk s.sys core s.gtc h.lands then
      setRole s.sys core role { r with hop := some { h with ready := s.gtc + 1 } }
    else makeLandings (setRole s.sys core role { r with hop := none }) core h.lands

/-- BACKEND_PUSH (R13, R41, R57): the word at the push point. A word that the encoding checks refuse raises its reason once
an entry is free; one that passes them is pushed, or in handler mode executed. -/
def execBackendPush (w : Nat) : State → Result :=
  match decodeNat w with
  | .error k => lift fun s =>
    let y := s.sys
    if !(me y).handler && 64 ≤ (me y).queue.length then y
    else raise s y y.curCore y.curRole (frontCause causeIllegal k (me y).pc)
  | .ok i =>
    match backOf i with
    | some b => back b i
    | none =>
      match i with
      | .vsave a => handlerOnly (backVsave a) i
      | .vrestore a => handlerOnly (backVrestore a) i
      | .replay a => handlerOnly (backReplay a) i
      | _ => lift fun s => s.sys

/-! ## Frame boundaries (R76, R84 to R86) -/

/-- A core had a bank that the timetable left idle in fewer cycles than the floor. -/
def belowFloor (d : Domain) (c : Core) : Bool :=
  c.busy.any fun n => decide (4096 < n + d.launch.floor)

/-- FRAME_BOUNDARY: a core whose banks were too busy in the frame just ended faults in every role, TRAPPC the PC of its front
end; charges and counts start again; in a thermal emergency the domain freezes here. -/
def execFrameBoundary (dom : Nat) : State → Result := lift fun s =>
  let y := s.sys
  match domAt y dom with
  | none => y
  | some d =>
    let c := d.ttc s.gtc
    if !d.inCycle then y
    else
      let y := d.cores.foldl (fun y core =>
        if belowFloor d (coreOf y core) then
          (List.range 3).foldl (fun y r => takeCause y s.gtc core r (domainCause 10 (roleOf y core r).pc 255)) y
        else y) y
      let y := d.cores.foldl (fun y core => setCore y { coreOf y core with energy := 0, busy := [] }) y
      match domAt y dom with
      | some d =>
        if y.mgmt.emergency && d.vd / 32 == y.mgmt.chip then
          settle backOf s (setDom y { d with st := .frozen, f := c, checked := some c, fronted := none, thermal := true }) dom
        else y
      | none => y

/-! ## Freezes and resumes (R89) -/

/-- PREEMPTION_ARRIVAL. -/
def execPreemptionArrival (dom : Nat) : State → Result := lift fun s =>
  let fresh := (domAt s.sys dom).any fun d => d.st == .run
  let y := preemptDomain s.sys s.gtc dom
  if fresh then settle backOf s y dom else y

/-- An entry whose row 0 guard bits are read again at a resume: those of the cross-row instructions (R230). -/
def crossRow : Instr → Bool
  | .vslideup _ _ _ | .vslidedn _ _ _ | .vperm _ _ _ | .vcompress _ _ | .vexpand _ _ | .vredsumU _ _ | .vredmin _ _
  | .vredmax _ _ | .vredminidx _ _ | .vredmaxidx _ _ | .vscanF _ _ => true
  | _ => false

/-- A core whose domain resumes: partially issued cross-row instructions read guard and sources as they stand now. -/
def resumeCore (y : Sys) (core : Nat) : Sys :=
  (List.range 3).foldl (fun y role =>
    let r := roleOf y core role
    let queue := r.queue.map fun e : Entry => if crossRow e.instr && e.issued.isSome then { e with acc := [] } else e
    setRole y core role { r with queue := queue }) y

/-- DOMAIN_RESUME (R89): at the resume tick G, TTBASE := G − F, and cycle F runs. -/
def execDomainResume (dom : Nat) : State → Result := lift fun s =>
  let y := s.sys
  match domAt y dom with
  | none => y
  | some d =>
    if d.st != .resuming || !d.clearOfCauses y then y
    else
      let d := { d with st := .run, ttbase := s.gtc - d.f, checked := none, preempt := [], saved := [] }
      let y := d.cores.foldl resumeCore (setDom y d)
      underruns s.gtc (restoredIfRunning y d.vd) d

/-- STOP (R368): every running domain of the device is held, frozen at F = g − TTBASE + 1; then the report follows. -/
def execStop : State → Result := vdRequest 4 .stop fun s vk =>
  schedule (holdDevice s s.sys vk) (s.gtc + 1) (.stopPublish vk) { noMsg with gen := (vdOf s.sys vk).reqNo, dl := s.gtc }

/-! ## Front-end reads of struck scalar registers (R378) -/

/-- The scalar registers that a word reads at the front end or the push point. -/
def scalarSources (y : Sys) (core role : Nat) (i : Instr) : List Nat :=
  match backOf i with
  | some b => (b.names (roleOf y core role).mode.ety).sregs
  | none =>
    match i with
    | .add _ a b | .sub _ a b | .and _ a b | .or _ a b | .xor _ a b | .sll _ a b | .srl _ a b | .sra _ a b
    | .mul _ a b | .mulh _ a b | .div _ a b | .rem _ a b | .slt _ a b | .sltu _ a b | .min _ a b | .max _ a b => [a, b]
    | .clz _ a | .popc _ a | .addi _ a _ | .andi _ a _ | .ori _ a _ | .xori _ a _ | .slli _ a _ | .srli _ a _
    | .srai _ a _ | .slti _ a _ | .slb _ a _ | .slh _ a _ | .slw _ a _ | .sld _ a _ | .beq a _ | .bne a _
    | .blt a _ | .bge a _ | .jalr _ a _ | .csrw _ a _ | .csrs _ a _ | .csrc _ a _ | .trap a | .svc a
    | .ttsync a _ | .vsave a | .vrestore a | .replay a => [a]
    | .ssb d a _ | .ssh d a _ | .ssw d a _ | .ssd d a _ => [d, a]
    | .bltu a _ | .bgeu a _ => [a, a + 1]
    | _ => []

/-- The first of them that an uncorrectable error has struck. -/
def struckSource (y : Sys) (core role : Nat) (i : Instr) : Option Nat :=
  (scalarSources y core role i).find? fun n => (coreOf y core).bad.contains (4, 32 * role + n)

/-- The storage error of a front-end read: its record, and domain fault 11 with the role's PC (R378, R379). -/
def frontStorage (s : State) (core role n : Nat) : Sys :=
  let y := noteStorage s.sys s.gtc core [(4, 32 * role + n)]
  raise s y core role (domainCause 11 (roleOf y core role).pc 255)

/-- Each of them that a single-bit error has struck is corrected and counted (R378). -/
def countScalars (s : State) (core role : Nat) (i : Instr) : State :=
  if (coreOf s.sys core).soft = [] then s
  else { s with sys := ((scalarSources s.sys core role i).filter fun n =>
    (coreOf s.sys core).soft.contains (4, 32 * role + n)).foldl (fun y n =>
      countCorrection y (sourceOf 0 (core % 192)) (vdKeyOf y core % 32) n) s.sys }

/-! ## What acts next -/

/-- What the step does: an instruction or event at a state, or the next state at once. -/
inductive Act where
  | run (i : Instr) (s : State)
  | go (s : State)

/-- The index in TEXT of the word that a role fetches: PC is aligned and lies in its TEXT section (R119). -/
def fetchIndex (r : RoleSt) : Option Nat :=
  let p := r.pc.toNat
  let b := r.textBase.toNat
  if b ≤ p ∧ (p - b) % 4 = 0 ∧ (p - b) / 4 < r.text.length then some ((p - b) / 4) else none

/-- The word that a role fetches, as its launch loaded it. -/
def fetchWord (r : RoleSt) : Option Word := (fetchIndex r).bind fun i => r.text[i]?

/-- The word that memory holds at a role's PC; the control program's does not lie in the tenant's memory. -/
def memoryWord (s : State) (core role : Nat) : Option Word :=
  if (domOfCore s.sys core).control then none
  else (loadVaNat s (vdKeyOf s.sys core) (roleOf s.sys core role).pc.toNat 4).map (BitVec.ofNat 32)

/-- The word that a role executes: of a loaded image that was rewritten meanwhile the old one or the new one (R109). -/
def chosenWord (s : State) (core role : Nat) (w : Word) : Word :=
  match memoryWord s core role with
  | some n => if n ≠ w && Config.fetchesNew s.gtc (3 * core + role) (roleOf s.sys core role).pc.toNat then n else w
  | none => w

/-- The turn of the front end of a role (R11, R33, R57): it fetches the word at its PC, decodes and executes it. A word
that decodes to no instruction is an illegal encoding at decode for OP below 0x1F, and at the push point for the others. -/
def frontAct (s : State) (core role : Nat) : Act :=
  let s := { s with sys := { s.sys with curCore := core, curRole := role } }
  if !mayExecute s core role then .go s
  else
    match fetchWord (roleOf s.sys core role) with
    | none => .go { s with sys := fetchFault s }
    | some w =>
      let w := chosenWord s core role w
      match decodeNat w.toNat with
      | .ok i =>
        match struckSource s.sys core role i with
        | some n => .go { s with sys := frontStorage s core role n }
        | none => .run i (countScalars s core role i)
      | .error _ => .run (if isFrontOp w.toNat then .decodeIllegalEncoding w.toNat else .backendPush w.toNat) s

/-- One scheduled event that is due, or none (log entry 1). -/
def dueAct (s : State) (late : Bool) : Act :=
  match takeDue s.gtc late s.sys.sched with
  | none => .go s
  | some (e, rest) =>
    .run e.2.1 { s with sys := { s.sys with sched := rest, msg := e.2.2, agenda := .due late :: s.sys.agenda } }

/-- The turns of every domain's cycle, by ascending physical core (R373). -/
def cycleTurns (y : Sys) : List Turn :=
  (y.doms.foldl (fun l d => putBy (fun d : Domain => d.cores.headD 0 * 2 ^ 64 + d.id) d l) []).map fun d => .dom d.id

/-- The front ends of a domain have their turns of its present cycle (R111). -/
def markFronts (y : Sys) (g : Nat) (d : Domain) : Sys :=
  if d.inCycle then setDom y { d with fronted := some (d.ttc g) } else y

/-- What acts next in a state: the head of the agenda; GTC ticks when nothing is left of the tick. -/
def nextAct (s : State) : Act :=
  match s.sys.agenda with
  | [] => .run .gtcTick s
  | t :: rest =>
    let s := { s with sys := { s.sys with agenda := rest } }
    match t with
    | .ev i m => .run i { s with sys := { s.sys with msg := m } }
    | .due late => dueAct s late
    | .front core role => frontAct s core role
    | .cycle => .go { s with sys := { s.sys with agenda := cycleTurns s.sys ++ rest } }
    | .dom d =>
      match domAt s.sys d with
      | some d => .go { s with sys := { markFronts s.sys s.gtc d with agenda := domainTurns s d ++ rest } }
      | none => .go s
    | .back d p => .go { s with sys := expandBack s d p }

/-- Nothing can happen any more: the module is without power (R390) and no event is due that could restore it. -/
def powerless (s : State) : Bool :=
  !s.sys.mgmt.power && s.sys.agenda == [] && s.sys.sched == [] && s.sys.posts == []

end Sys2Proof.Machine
end

