-- ==== Sys2Proof/Machine/Recovery.lean ====
section
/-! DEFINITION. Recovery (R381 to R393): link stalls, removal of a chip or of the host, thermal events, readiness, power. -/

namespace Sys2Proof.Machine

/-! ## Stalls (R381 to R384) -/

/-- Replace a port. -/
def setPort (y : Sys) (p : Nat) (v : Port) : Sys := { y with mgmt := { y.mgmt with ports := y.mgmt.ports.setIfInBounds p v } }

/-- A port with a stall of s ticks from tick g on, which one still under way outlasts or joins. -/
def Port.stalled (v : Port) (g s : Nat) : Port :=
  if g < v.stall then { v with stall := max v.stall (g + s), len := max v.stall (g + s) - (v.stall - v.len) }
  else { v with stall := g + s, len := s }

/-- A port stalls for s ticks, at most 32,000, and the link is retrained at the end. -/
def stallPort (y : Sys) (g p s : Nat) (v : Port) : Sys :=
  let w := v.stalled g (min s 32000)
  schedule (setPort y p w) w.stall (.linkRetrained p) noMsg

/-- A bit of READY clears (R392). -/
def clearReady (y : Sys) (g bit : Nat) : Sys :=
  if y.mgmt.ready.getLsbD bit then
    writeEvent { y with mgmt := { y.mgmt with ready := y.mgmt.ready &&& ~~~(1#64 <<< bit) } } g clsReadyLost noVd (sourceOf 4 0) bit 0 0
  else y

/-- The other chips of this chip's jobs. -/
def jobChips (y : Sys) : List Nat :=
  (y.vds.flatMap fun v => if v.key / 32 = y.mgmt.chip then v.chipTable.map Prod.fst else []).filter fun c => c != y.mgmt.chip

/-- Every path to a chip has been down for 32,000 ticks (R385): its route's, which was up before, and its alternate's, if any. -/
def pathGone (y : Sys) (g chip : Nat) : Bool :=
  let gone := fun (v : Port) => match v.lost with | some l => decide (l + 32000 ≤ g) | none => false
  let a := portAt y (Config.altPort chip)
  gone (portAt y (Config.routePort chip % 24)) && (!a.up && (a.lost.isNone || gone a))

/-- A port goes down (R382): its traffic moves to the alternate path after the stall; a chip to which no path is up then is
removed if none comes up in time (R385). The port is no longer trained (log entry 46). -/
def losePort (y : Sys) (g p s : Nat) : Sys :=
  let v := portAt y p
  let y := writeEvent y g clsPortDown noVd (sourceOf 2 p) 0 p (min s 32000)
  let y := stallPort y g p s { v with up := false, lost := if v.lost.isSome then v.lost else some g }
  let y := ((jobChips y).filter fun c => Config.routePort c % 24 == p || Config.altPort c == p).foldl (fun y c =>
    if (portAt y (viaPort y c)).lost.isSome then schedule y (g + 32000) (.pathDownExpiry c) { noMsg with aux := 2, party := p } else y) y
  clearReady y g (24 + p)

/-- LANE_SPARE (R381): the spare takes the lane's place; with the spare in use the port goes down (R382). -/
def execLaneSpare (port lane stall : Nat) : State → Result := lift fun s =>
  let v := portAt s.sys port
  if v.spare then losePort s.sys s.gtc port stall
  else
    let y := writeEvent s.sys s.gtc clsSpared noVd (sourceOf 2 port) lane port (min stall 32000)
    stallPort y s.gtc port stall { v with spare := true }

/-- PORT_DOWN (R382). -/
def execPortDown (port stall : Nat) : State → Result := lift fun s => losePort s.sys s.gtc port stall

/-- LINK_RETRAINED (R383): the link runs again, unless another stall has begun meanwhile. What it held was promised later by each tick
of the stall. -/
def execLinkRetrained (port : Nat) : State → Result := lift fun s =>
  let v := portAt s.sys port
  if v.stall ≠ s.gtc || v.len = 0 then s.sys else setPort s.sys port { v with len := 0 }

/-! ## Removal (R385 to R389) -/

/-- The addresses in memory of the 8-byte units that a transfer has still to read. -/
def Xfer.loads (y : Sys) (x : Xfer) : List Nat :=
  if !x.shadow.fromMemory || (4 ≤ x.kind && x.kind ≠ 6) then []
  else if x.stage = 0 then (x.pieces y).flatMap fun p => (List.range (p.n / 8 + 1)).filterMap fun i =>
    if 8 * i < p.n then some (p.src + 8 * i) else none
  else x.moves.flatMap fun m => (m.src.filter fun w => w.2.isNone).map Prod.fst

/-- Those of them that lie at a far end. -/
def loadsAt (s : State) (far : Nat) (x : Xfer) : List Nat :=
  let vk := vdKeyOf s.sys x.core
  (x.loads s.sys).filter fun a => (xlate s vk a).any fun t => farEnd s.sys vk t.pa == some far

/-- A transfer has still to read bytes at a far end, of its source or in a table walk (R386). -/
def readsAt (s : State) (far : Nat) (x : Xfer) : Bool :=
  let vk := vdKeyOf s.sys x.core
  loadsAt s far x != [] || (x.sides s.sys).any fun a => (tablePlaces s vk a).any fun p => farEnd s.sys vk p.2.2 == some far

/-- The source words that a walk has still to read of parties on a chip: their units' numbers, where they have a place. -/
def walkLoads (y : Sys) (far : Nat) (o : Obj) (c : Coll) (w : Walk) : List Nat :=
  match c.plan with
  | none => []
  | some p =>
    let ps := walkParties y o.vdid p c.expect w.absent
    w.left.flatMap fun u => u.leaves.flatMap fun l => l.filterMap fun v =>
      match ps[v.rank]? with
      | some q => if v.got.isNone && q.vk / 32 = far then walkKey y p q u v else none
      | none => none

/-- The last tick before which data of a far end could cross, at a removal (R386): now, or the tick at which its link went down. -/
def lastOpen (s : State) (far cause : Nat) : Nat :=
  if far = hostEnd then (if cause = 2 then s.gtc - 32001 else s.gtc)
  else
    let v := portAt s.sys (viaPort s.sys far)
    if !s.sys.mgmt.ready.getLsbD 6 then s.gtc - 32000
    else match v.lost with
      | some l => l
      | none => if s.gtc < v.stall then v.stall - v.len else s.gtc

/-- A transfer when a far end is removed (R386): its outstanding loads there complete at or before the later of its promised tick and
Tdet + 8,192, and some may have crossed if it could move before the link went down; none of a locked device's from the host (R370). -/
def Xfer.bound (s : State) (far last : Nat) (x : Xfer) : Xfer :=
  if !readsAt s far x then x
  else { x with
    due := max x.due (s.gtc + 8192)
    crossed := if (x.begun.any fun t => decide (t < last)) && !(far == hostEnd && (vdOf s.sys (vdKeyOf s.sys x.core)).tdi == 1)
      then far :: x.crossed else x.crossed }

/-- The same of a walk. -/
def Walk.bound (s : State) (far last : Nat) (o : Obj) (c : Coll) (w : Walk) : Walk :=
  if walkLoads s.sys far o c w = [] then w
  else { w with
    due := max w.due (s.gtc + 8192), crossed := if w.begun && decide (w.since < last) then far :: w.crossed else w.crossed }

/-- The loads outstanding at a removal are bounded (R386). -/
def boundLoads (s : State) (y : Sys) (far cause : Nat) : Sys :=
  let last := lastOpen s far cause
  { y with
    xfers := y.xfers.map (Xfer.bound s far last)
    objs := y.objs.map fun o : Obj => match o.body with
      | .coll c => { o with body := .coll { c with walks := c.walks.map (Walk.bound s far last o c) } }
      | _ => o }

/-- The outstanding loads from a far end of which some unit is filled (R379, R386): transfers and walks, once they are bounded. -/
def filledLoads (s : State) (y : Sys) (far : Nat) : Nat :=
  (y.xfers.filter fun x => (loadsAt s far x).any fun a => !x.hasCrossed far a).length +
  (y.objs.map fun o => match o.body with
    | .coll c => (c.walks.filter fun w => (walkLoads s.sys far o c w).any fun k => !w.hasCrossed far k).length
    | _ => 0).foldl (· + ·) 0

/-- Free the open queue entries that p names (R290; log entry 65). -/
def dropOpen (y : Sys) (p : Obj → QSlot → Bool) : Sys :=
  { y with objs := y.objs.map fun o : Obj => match o.body with
    | .queue q => { o with body := .queue { q with slots := q.slots.filter fun x => x.st != 1 || !p o x } }
    | _ => o }

/-- An event on its way from or to a removed chip: what a core there sends, or what its Tulle would serve (R388). A push of the host
has its answer (NOREPLY) at its tick. -/
def lostWith (chip : Nat) (e : Nat × Instr × HomeMsg) : Bool :=
  isHomeEvent e.2.1 && !(e.2.1 == .homeQpush && e.2.2.role == 3) &&
    ((homeField e.2.2.obj == 4 && chipField e.2.2.obj == chip) || chipOf e.2.2.core == chip)

/-- A shadow of a removed chip: what it has not forwarded is lost, and open entries under way are freed once they are there (R290,
R388). -/
def lostShadow (chip : Nat) (w : ProxyShadow) : ProxyShadow :=
  if w.chip ≠ chip then w
  else { w with waiting := [], flying := w.flying.map fun b => (b.1, b.2.map fun m => { m with gen := 1 }) }

/-- An object without the arrivals of a removed chip's parties in its open generation: they are absent at every later deadline
(R388). -/
def withoutParties (chip : Nat) (o : Obj) : Obj :=
  match o.body with
  | .barrier b => { o with body := .barrier { b with
      arrived := b.arrived &&& ~~~((b.chips.filter fun p => p.2 == chip).foldl (fun m p => m ||| partyBit p.1) 0)
      chips := b.chips.filter fun p => p.2 != chip } }
  | .coll c => match c.plan with
    | some p => { o with body := .coll { c with
        arrived := c.arrived &&& ~~~(((List.range p.parties.length).filter fun i => ((p.parties[i]?).getD (0, 0)).1 == chip).foldl
          (fun m i => m ||| partyBit i) 0) } }
    | none => o
  | _ => o

/-- A removal of a chip has been declared since which no device's job was provisioned that could use it again (R385). -/
def alreadyGone (y : Sys) (chip : Nat) : Bool :=
  y.mgmt.removed.any fun p => p.1 == chip && y.vds.all fun v => v.st == .absent || decide (v.since ≤ p.2)

/-- A chip is removed (R385, R388): events between it and its homes are gone, the open entries of its launches are
abandoned, its shadows' entries are lost, and nothing runs on it. -/
def removeChip (s : State) (chip cause : Nat) : Sys :=
  let y := s.sys
  let g := s.gtc
  if alreadyGone y chip || chip = y.mgmt.chip then y
  else
    let y := boundLoads s y chip cause
    let y := writeEvent y g clsChipGone noVd (sourceOf 4 0) cause chip (filledLoads s y chip)
    let y := { y with
      mgmt := { y.mgmt with removed := y.mgmt.removed ++ [(chip, g)] }
      sched := y.sched.filter fun e => !lostWith chip e
      answers := y.answers.filter fun a => a.far != some chip
      shadows := y.shadows.map (lostShadow chip)
      objs := y.objs.map (withoutParties chip)
      doms := y.doms.map fun d : Domain => if d.vd / 32 = chip then { d with st := .ended } else d }
    dropOpen y fun _ x => chipOf x.core == chip

/-- PRESENCE_NOTICE (R385, first rule). -/
def execPresenceNotice (chip : Nat) : State → Result := lift fun s => removeChip s chip 1

/-- PATH_DOWN_EXPIRY (R385, second rule); one that the loss of GTCSYNC has announced (AUX 1) only while it is lost, one that the
loss of a port has announced (AUX 2) only if no path has come up since. -/
def execPathDownExpiry (chip : Nat) : State → Result := lift fun s =>
  if s.sys.msg.aux = 1 && s.sys.mgmt.ready.getLsbD 6 then s.sys
  else if s.sys.msg.aux = 2 && !pathGone s.sys s.gtc chip then s.sys
  else removeChip s chip 2

/-- A TDI moves to ERROR: its device is held as by STOP (R370). -/
def tdiError (s : State) (y : Sys) (vk : Nat) : Sys := holdDevice s (setVd y { vdOf y vk with tdi := 3 }) vk

/-- The host is removed (R389). -/
def removeHost (s : State) (cause : Nat) : Sys :=
  let y := s.sys
  let g := s.gtc
  if y.mgmt.hostGone then y
  else
    let y := boundLoads s y hostEnd cause
    let y := writeEvent y g clsHostGone noVd (sourceOf 3 0) cause 0 (filledLoads s y hostEnd)
    let y := { y with mgmt := { y.mgmt with hostGone := true, removed := y.mgmt.removed ++ [(hostEnd, g)] } }
    let jobqs := (y.vds.filter fun v => v.st != .absent).map Vdev.jobq
    let y := dropOpen y fun o x => jobqs.contains o.key && x.prod == 63
    (y.vds.filter Vdev.locked).foldl (fun y v => tdiError s y v.key) y

/-- HOST_REMOVAL (R389): 1 Surprise Down, 2 a stall beyond the bound. -/
def execHostRemoval (cause : Nat) : State → Result := lift fun s => removeHost s cause

/-- HOST_LINK_RECOVERY (R384): a stall for region 1 and host pushes; once it has lasted more than 32,000 ticks the host is removed. -/
def execHostLinkRecovery (stall : Nat) : State → Result := lift fun s =>
  let y := writeEvent s.sys s.gtc clsHostRecov noVd (sourceOf 3 0) 0 0 stall
  let y := { y with mgmt := { y.mgmt with hostStall := max y.mgmt.hostStall (s.gtc + stall) } }
  if 32000 < stall then schedule y (s.gtc + 32001) (.hostRemoval 2) { noMsg with aux := 1 } else y

/-! ## Thermal events (R86, R390) -/

/-- TEMP shows the highest reading. -/
def noteTemp (y : Sys) (temp : Nat) : Sys := { y with mgmt := { y.mgmt with temp := temp % 65536 } }

/-- THERMAL_EMERGENCY: a reading at or above TEMERG; every running domain freezes at its next frame boundary. -/
def execThermalEmergency (sensor temp : Nat) : State → Result := lift fun s =>
  let y := noteTemp s.sys (max s.sys.mgmt.temp temp)
  if temp < y.mgmt.temerg then y
  else writeEvent { y with mgmt := { y.mgmt with emergency := true } } s.gtc clsThermal noVd (sourceOf 5 sensor) 1 sensor temp

/-- THERMAL_CLEAR: every sensor reads at least 2 °C below TEMERG; the thermal hold is removed from every domain. -/
def execThermalClear (sensor temp : Nat) : State → Result := lift fun s =>
  let y := noteTemp s.sys temp
  if !y.mgmt.emergency || y.mgmt.temerg < temp + 32 then y
  else
    let y := writeEvent { y with mgmt := { y.mgmt with emergency := false } } s.gtc clsThermal noVd (sourceOf 5 sensor) 2 sensor temp
    y.doms.foldl (fun y d => if d.thermal then tryResume (setDom y { d with thermal := false }) s.gtc d.id else y) y

/-- Events that come from outside the module; what was under way inside is gone with its power. -/
def isInput : Instr → Bool
  | .powerOn | .functionReady _ | .readyLost _ | .firstHeartbeat | .presenceNotice _ | .hostRemoval _ | .hostLinkRecovery _
  | .thermalEmergency _ _ | .thermalClear _ _ | .thermalCritical _ _ | .laneSpare _ _ _ | .portDown _ _ | .registerWrite _ _ _
  | .hostWrite _ _ _ _ _ | .hostRead _ _ _ _ | .jobpush _ _ _ | .jobstatRead _ | .s1rootWrite _ _ | .evsizeWrite _ | .evtailWrite _
  | .evlostClear _ | .evvecWrite _ | .thermWrite _ | .pallocWrite _ _ | .flr _ | .spdmRequest _ | .mctpVendorRead _ _
  | .chipTableWrite _ _ | .powerLoss => true
  | _ => false

/-- The module loses its power (R390, R397): everything volatile is gone, local HBM with it; the firmware slots and the host's
memory stay, and what was posted before has left. -/
def losePower (y : Sys) : Sys :=
  let m := y.mgmt
  { Sys.reset with
    mgmt := { Mgmt.reset with
      power := false, chip := m.chip, active := m.active, slotA := m.slotA, slotB := m.slotB, hostGone := m.hostGone }
    outbox := y.outbox, sched := y.sched.filter fun e => isInput e.2.1 && e.2.2.aux != 1
    posts := y.posts ++ [.wipe (physKey m.chip 0) (2 ^ 50)], free := y.free }

/-- THERMAL_CRITICAL: the record, the reset of every virtual device in ascending VDID, every bit of READY cleared with its record
(R392), power removed. -/
def execThermalCritical (sensor temp : Nat) : State → Result := lift fun s =>
  let y := noteTemp s.sys (max s.sys.mgmt.temp temp)
  if temp < y.mgmt.tcrit then y
  else
    let y := writeEvent y s.gtc clsThermal noVd (sourceOf 5 sensor) 3 sensor temp
    let y := (List.range 32).foldl (fun y n => resetDevice s y (y.mgmt.chip * 32 + n)) y
    losePower ((List.range 48).foldl (fun y b => clearReady y s.gtc b) y)

/-! ## Readiness and power (R391 to R393, R397) -/

/-- The event may set its bit: no reserved one, and an HBM bit only after KEYTAB (R391, R392). -/
def maySet (y : Sys) (bit : Nat) : Bool :=
  decide (1 ≤ bit) && decide (bit < 48) && (!(decide (12 ≤ bit) && decide (bit < 24)) || y.mgmt.ready.getLsbD 5)

/-- A port comes up (R382, R391): what was held for want of a path crosses from the next tick on. -/
def raisePort (y : Sys) (g p : Nat) : Sys :=
  let v := portAt y p
  setPort y p { v with up := true, lost := none, stall := min v.stall g }

/-- FUNCTION_READY (R392): its bit reads 1; KEYTAB brings slot 0 with a fresh key, a port comes up, GTCSYNC is not lost any more, and a
host that was removed is back (R389). -/
def execFunctionReady (bit : Nat) : State → Result := lift fun s =>
  let y := s.sys
  if !y.mgmt.power || !maySet y bit then y
  else
    let y := { y with mgmt := { y.mgmt with ready := y.mgmt.ready ||| (1#64 <<< bit) } }
    if bit = 5 then
      let (n, y) := takeFree y
      setKeySlot y y.mgmt.chip 0 { KeySlot.empty with kind := 1, gen := 1, key := Config.freshKey n }
    else if bit = 6 then
      { y with sched := y.sched.filter fun e => match e.2.1 with | .pathDownExpiry _ => e.2.2.aux != 1 | _ => true }
    else if bit = 7 then { y with mgmt := { y.mgmt with hostGone := false } }
    else if 24 ≤ bit then raisePort y s.gtc (bit - 24)
    else y

/-- READY_LOST (R392): the record; a port counts as down, GTCSYNC as the loss of every path (log entry 68), anything else as a critical
fault that resets every virtual device. -/
def execReadyLost (bit : Nat) : State → Result := lift fun s =>
  if !s.sys.mgmt.ready.getLsbD bit then s.sys
  else
    let y := clearReady s.sys s.gtc bit
    if 24 ≤ bit then
      let (n, y) := takeFree y
      losePort y s.gtc (bit - 24) (Config.stallLength n % 32001)
    else if bit = 6 then
      (jobChips y).foldl (fun y c => schedule y (s.gtc + 32000) (.pathDownExpiry c) { noMsg with aux := 1, party := c }) y
    else (List.range 32).foldl (fun y n => resetDevice s y (y.mgmt.chip * 32 + n)) y

/-- POWER_ON (R391): the rails come up with READY 0 and the firmware slots as they were left (R397). -/
def execPowerOn : State → Result := lift fun s =>
  let y := s.sys
  if y.mgmt.power then y
  else { y with mgmt := { y.mgmt with power := true, ready := 0, fwstate := .idle, hostGone := false } }

/-- POWER_LOSS (R397). -/
def execPowerLoss : State → Result := lift fun s => if s.sys.mgmt.power then losePower s.sys else s.sys

end Sys2Proof.Machine
end

