-- ==== Sys2Proof/Machine/Firmware.lean ====
section
/-! DEFINITION. Live update of the control firmware (R394 to R398): staging with its checks, and the states of an update. A
request's event is first the write of FWCTL (AUX 0), then its work (AUX 1). -/

namespace Sys2Proof.Machine

/-! ## Slots -/

/-- An image that a slot lacks. -/
def FwImage.none : FwImage := { svn := 0, hover := 0, hovmin := 0, digest := [] }

/-- The active slot. -/
def Mgmt.activeImage (m : Mgmt) : FwImage := (if m.active then m.slotB else m.slotA).getD .none

/-- The inactive slot. -/
def Mgmt.inactive (m : Mgmt) : Option FwImage := if m.active then m.slotA else m.slotB

/-- Replace the inactive slot. -/
def Mgmt.setInactive (m : Mgmt) (i : Option FwImage) : Mgmt := if m.active then { m with slotA := i } else { m with slotB := i }

/-- The number of the inactive slot. -/
def Mgmt.inactiveSlot (m : Mgmt) : Nat := b01 (!m.active)

/-- Go to a state, at a tick; each transition writes a FIRMWARE record (R397) with RESULT, the slot of the update and its
image's SVN. -/
def fwMove (y : Sys) (g : Nat) (st : FwState) (result : Nat) : Sys :=
  let m := y.mgmt
  writeEvent { y with mgmt := { m with fwstate := st, fwresult := result, fwtick := g } } g clsFirmware noVd (sourceOf 4 0) result
    m.inactiveSlot ((m.inactive.getD .none).svn)

/-! ## Requests (R395) -/

/-- An update is doing work that a request must wait for. -/
def fwWorking (m : Mgmt) : Bool := m.fwstate != .idle && m.fwstate != .staged

/-- Refuse a request with a RESULT. -/
def fwRefuse (y : Sys) (r : Nat) : Sys := { y with mgmt := { y.mgmt with fwresult := r } }

/-! ## Checks of an image (R394, R396) -/

/-- A reserved field of the header is zero. -/
def zerosAt (b : List Byte) (off n : Nat) : Bool := ((b.drop off).take n).all fun x => x == 0

/-- The image that a header describes. -/
def imageOf (b : List Byte) : FwImage := {
  svn := at' b 0x08 4, hover := at' b 0x0C 2, hovmin := at' b 0x0E 2, digest := (b.drop 0x20).take 48 }

/-- The result of the first check of R396 that an image fails; 0 if none. -/
def stageResult (m : Mgmt) (b body : List Byte) : Nat :=
  let part := fun (o n : Nat) => (b.drop o).take n
  let i := imageOf b
  if !(at' b 0 4 == 0x57464D4C && at' b 4 4 == 8192 && decide (1048576 ≤ at' b 0x10 8) && decide (at' b 0x10 8 ≤ 67108864) &&
      zerosAt b 0x18 8 && zerosAt b 0x50 48 && zerosAt b 0x156D 2707) then 4
  else if !Config.ed25519Verify (part 0x80 32) (part 0 0x840) (part 0x840 64) ||
      !Config.mldsaVerify (part 0xA0 1952) (part 0 0x840) (part 0x880 3309) ||
      sha384 (part 0x80 32 ++ part 0xA0 1952) != Config.fusedKeyHash then 4
  else if sha384 body != i.digest then 4
  else if i.svn < Config.fusedMinSvn then 5
  else if m.activeImage.hover < i.hovmin || i.hover < m.activeImage.hover then 6
  else 0

/-- STAGE: from IDLE the image is read and checked; then it is STAGED, or its slot is empty and the state IDLE. -/
def execStage : State → Result := lift fun s =>
  let y := s.sys
  let m := y.mgmt
  if y.msg.aux = 0 then
    if fwWorking m then fwRefuse y 1
    else if m.fwstate ≠ .idle then fwRefuse y 3
    else
      let y := fwMove { y with mgmt := m.setInactive none } s.gtc .staging 0
      let (t, y) := later y s.gtc
      schedule y t .stage { noMsg with aux := 1 }
  else if m.fwstate ≠ .staging then y
  else
    let vk := m.chip * 32
    let b := hostBytes s (vk / 32) m.fwarg 8192
    let size := at' b 0x10 8
    if m.fwarg % 4096 ≠ 0 ∨ field m.fwarg 63 50 ≠ 1 then fwMove y s.gtc .idle 4
    else
      let n := if size ≤ 67108864 then size else 0
      let r := stageResult m b (hostBytes s (vk / 32) (m.fwarg + 8192) n)
      let y := noteDma s y vk m.fwarg (8192 + n)
      if r = 0 then fwMove { y with mgmt := y.mgmt.setInactive (some (imageOf b)) } s.gtc .staged 0
      else fwMove y s.gtc .idle r

/-- ACTIVATE: from STAGED; new requests of virtual devices then answer BUSY. -/
def execActivate : State → Result := lift fun s =>
  let y := s.sys
  if fwWorking y.mgmt then fwRefuse y 1
  else if y.mgmt.fwstate ≠ .staged then fwRefuse y 3
  else
    let y := fwMove y s.gtc .quiescing y.mgmt.fwresult
    let y := schedule y (s.gtc + 1) .quiesceComplete noMsg
    schedule y (s.gtc + 1600000) .quiesceTimeout noMsg

/-- ABORT: from STAGED; the inactive slot is empty. -/
def execAbort : State → Result := lift fun s =>
  let y := s.sys
  if fwWorking y.mgmt then fwRefuse y 1
  else if y.mgmt.fwstate ≠ .staged then fwRefuse y 3
  else
    let y := fwMove y s.gtc .idle 0
    { y with mgmt := y.mgmt.setInactive none }

/-! ## Quiescing, handover, probation, rollback (R397) -/

/-- The firmware's current request and the launch units' current entries are complete. -/
def quiet (y : Sys) : Bool :=
  y.vds.all fun v => (!v.busy || v.st == .resetting) && (match v.fifo with | l :: _ => !l.served | [] => true)

/-- QUIESCE_COMPLETE: the active image writes the handover structure at its HOVER and stops. -/
def execQuiesceComplete : State → Result := lift fun s =>
  let y := s.sys
  if y.mgmt.fwstate ≠ .quiescing then y
  else if !quiet y then schedule y (s.gtc + 1) .quiesceComplete noMsg
  else
    let y := fwMove { y with mgmt := { y.mgmt with handover := y.mgmt.activeImage.hover } } s.gtc .handover y.mgmt.fwresult
    let (t, y) := later y s.gtc
    schedule y t .newImageStart noMsg

/-- QUIESCE_TIMEOUT: RESULT 8; the active image goes on, the slot keeps what was staged. -/
def execQuiesceTimeout : State → Result := lift fun s =>
  let m := s.sys.mgmt
  if m.fwstate = .quiescing && m.fwtick + 1600000 ≤ s.gtc then fwMove s.sys s.gtc .idle 8 else s.sys

/-- NEW_IMAGE_START: it reads the structure and takes no request. The tick of HANDOVER goes on to count. -/
def execNewImageStart : State → Result := lift fun s =>
  let m := s.sys.mgmt
  if m.fwstate ≠ .handover then s.sys
  else
    let y := fwMove s.sys s.gtc .probation m.fwresult
    schedule { y with mgmt := { y.mgmt with fwtick := m.fwtick } } (max (m.fwtick + 160000000) (s.gtc + 1)) .probationTimeout noMsg

/-- FIRST_HEARTBEAT: within 160,000,000 ticks of entering HANDOVER it ends PROBATION and ACTIVE flips; at power-on it sets
READY.FIRMWARE (R395). -/
def execFirstHeartbeat : State → Result := lift fun s =>
  let y := s.sys
  let m := y.mgmt
  if m.fwstate = .probation then
    if m.fwtick + 160000000 < s.gtc then y
    else
      let y := fwMove y s.gtc .idle 0
      { y with mgmt := { y.mgmt with active := !y.mgmt.active } }
  else if m.power then { y with mgmt := { m with ready := m.ready ||| 4 } }
  else y

/-- PROBATION_TIMEOUT: RESULT 7. -/
def execProbationTimeout : State → Result := lift fun s =>
  let m := s.sys.mgmt
  if m.fwstate = .probation && m.fwtick + 160000000 ≤ s.gtc then
    let y := fwMove s.sys s.gtc .rollback 7
    let (t, y) := later y s.gtc
    schedule y t .rollbackRestart noMsg
  else s.sys

/-- ROLLBACK_RESTART: the old image restarts from the unchanged structure; the inactive slot is empty. -/
def execRollbackRestart : State → Result := lift fun s =>
  let m := s.sys.mgmt
  if m.fwstate ≠ .rollback then s.sys
  else
    let y := fwMove s.sys s.gtc .idle m.fwresult
    { y with mgmt := y.mgmt.setInactive none }

end Sys2Proof.Machine
end

