-- ==== Sys2Proof/Machine/Host.lean ====
section
/-! DEFINITION. What the host and the chassis controller do to the device (R399 to R407): registers, the job queue, the host
window, management reads and measurements. A register event stands for an access that the function accepts; where
the TDI is in RUN that is one on its IDE stream (log entry 47). -/

namespace Sys2Proof.Machine

/-! ## The management block (R402, R403, R408) -/

/-- The management block after a change. -/
def withMgmt (y : Sys) (f : Mgmt → Mgmt) : Sys := { y with mgmt := f y.mgmt }

/-- A write of EVSIZE: the size, or an invalid one that disables the ring; HEAD and TAIL are 0. -/
def setEvsize (v : Nat) (m : Mgmt) : Mgmt := { m with evsize := v % 32, evhead := 0, evtail := 0, evposted := 0 }

/-- A write of EVTAIL, ignored if it is greater than HEAD or less than HEAD − 2^LOG2 (R403). -/
def setEvtail (v : Nat) (m : Mgmt) : Mgmt :=
  if v % 4294967296 ≤ m.evhead && decide (m.evhead ≤ v % 4294967296 + 2 ^ m.evsize) then { m with evtail := v % 4294967296 } else m

/-- A write of EVLOST: a 1 in any bit clears it. -/
def clearEvlost (v : Nat) (m : Mgmt) : Mgmt := if v % 4294967296 = 0 then m else { m with evlost := 0 }

/-- A write of EVVEC, ignored below 32. -/
def setEvvec (v : Nat) (m : Mgmt) : Mgmt := if v % 64 < 32 then m else { m with evvec := v % 64 }

/-- A write of THERM, ignored as a whole if TCRIT would lie below TEMERG + 32. -/
def setTherm (v : Nat) (m : Mgmt) : Mgmt :=
  if field v 31 16 < field v 15 0 + 32 then m else { m with tcrit := field v 31 16, temerg := field v 15 0 }

/-- The sum of the power allocations but one. -/
def otherWatts (m : Mgmt) (n : Nat) : Nat :=
  (List.range 32).foldl (fun a k => if k = n then a else a + (m.palloc[k]?).getD 0) 0

/-- A write of PALLOC(n), ignored if the sum would exceed 1,500 W. -/
def setPalloc (n v : Nat) (m : Mgmt) : Mgmt :=
  if 1500 < otherWatts m n + field v 11 0 then m else { m with palloc := m.palloc.setIfInBounds n (field v 11 0) }

/-- EVSIZE_WRITE. -/
def execEvsizeWrite (v : Nat) : State → Result := lift fun s => withMgmt s.sys (setEvsize v)
/-- EVTAIL_WRITE. -/
def execEvtailWrite (v : Nat) : State → Result := lift fun s => withMgmt s.sys (setEvtail v)
/-- EVLOST_CLEAR. -/
def execEvlostClear (v : Nat) : State → Result := lift fun s => withMgmt s.sys (clearEvlost v)
/-- EVVEC_WRITE. -/
def execEvvecWrite (v : Nat) : State → Result := lift fun s => withMgmt s.sys (setEvvec v)
/-- THERM_WRITE. -/
def execThermWrite (v : Nat) : State → Result := lift fun s => withMgmt s.sys (setTherm v)
/-- PALLOC_WRITE. -/
def execPallocWrite (n v : Nat) : State → Result := lift fun s => withMgmt s.sys (setPalloc n v)

/-! ## Guest registers and the job queue (R404, R405) -/

/-- S1ROOT: bits [56:6]. Every stage-1 translation of the virtual device is invalidated (R147, R404); what an old one has posted is
visible from the next tick on, from which a read of the register completes once no transfer uses one. -/
def setS1root (y : Sys) (vk v : Nat) : Sys :=
  dropCached (setVd y { vdOf y vk with s1root := field v 56 6 * 64 }) vk false 0 0

/-- S1ROOT_WRITE. -/
def execS1rootWrite (fn v : Nat) : State → Result := lift fun s => setS1root s.sys (fnDevice s.sys fn) v

/-- Whether a scheduled event is a host push of a virtual device. -/
def isPushOf (vk : Nat) (e : Nat × Instr × HomeMsg) : Bool := isHostPush e.2.2 e.2.1 && e.2.2.gen == vk

/-- An event of a function that a fence holds up (AUX 1), with its place in the port's order (DL). -/
def heldAs (y : Sys) (vk : Nat) (e : Nat × Instr × HomeMsg) : Option Nat :=
  match e.2.1 with
  | .hostWrite fn _ _ _ _ | .hostRead fn _ _ _ | .jobpush fn _ _ => if e.2.2.aux == 1 && fnDevice y fn == vk then some e.2.2.dl else none
  | _ => none

/-- The place in the port's order of what the event under way does to a function: that which it got when it was first held up, or
the next. -/
def placeInLine (y : Sys) (vk : Nat) : Nat :=
  if y.msg.aux = 1 then y.msg.dl else (y.sched.filterMap (heldAs y vk)).foldl max 0 + 1

/-- Earlier accesses of a function that a fence holds up: the port serves in order (R188). -/
def heldBefore (y : Sys) (vk : Nat) : Bool :=
  y.sched.any fun e => match e.2.1 with
    | .jobpush _ _ _ => false
    | _ => (heldAs y vk e).any fun k => decide (k < placeInLine y vk)

/-- A push of the host leaves for the home of the job queue: a closing qpush by party 63 (R316), registered within 1,600 ticks of its
arrival at the port, but after the function's earlier pushes and not before it leaves. -/
def sendPush (y : Sys) (g arrival vk v : Nat) : Sys :=
  let (n, y) := takeFree y
  let t := y.sched.foldl (fun m e => if isPushOf vk e then max m e.1 else m) (max (g + 1) (arrival + 1 + Config.regDelay n % 1600))
  schedule y t .homeQpush {
    noMsg with obj := (vdOf y vk).jobq, party := 63, gen := vk, dl := v % 2 ^ 64, aux := 1, core := vk / 32 * 192, role := 3 }

/-- A push of the host arrives (R405): discarded and counted while the device is not RUNNING or with EP set; held up behind
earlier accesses that a fence holds up (log entry 99); else sent. -/
def hostPush (y : Sys) (g vk v : Nat) (ep : Bool) : Sys :=
  let d := vdOf y vk
  if d.st ≠ .running || ep then setVd y { d with jobRefused := min (d.jobRefused + 1) 65535 }
  else
    let y := setVd y { d with jobPending := d.jobPending + 1, jobPushes := d.jobPushes + 1 }
    if hostDeferred y vk then schedule y (g + 1) (.jobpush (vk % 32) v ep) { noMsg with aux := 1, dl := placeInLine y vk, gen := g }
    else sendPush y g g vk v

/-- JOBPUSH; AUX 1 is one that has arrived before and was held up. -/
def execJobpush (fn v : Nat) (ep : Bool) : State → Result := lift fun s =>
  let y := s.sys
  let vk := fnDevice y fn
  if y.msg.aux ≠ 1 then hostPush y s.gtc vk v ep
  else if heldBefore y vk then schedule y (s.gtc + 1) (.jobpush fn v ep) y.msg
  else sendPush y s.gtc y.msg.gen vk v

/-- JOBSTAT as it reads. -/
def jobstatOf (v : Vdev) : Nat := v.jobLast % 16 * 2 ^ 48 + v.jobRefused % 65536 * 2 ^ 32 + v.jobAccepted % 4294967296

/-- A read of JOBSTAT is completed once every push that the port took before it has registered (R405): of the first `pushes`. -/
def readJobstat (s : State) (fn pushes : Nat) : Sys :=
  let y := s.sys
  let d := vdOf y (fnDevice y fn)
  if d.jobPushes - d.jobPending < pushes && decide (pushes ≤ d.jobPushes) then
    schedule y (s.gtc + 1) (.jobstatRead fn) { noMsg with aux := 1, gen := pushes }
  else sendOut y (.readCompletion fn 0x10 (toBytes 8 (jobstatOf d)) false)

/-- JOBSTAT_READ. -/
def execJobstatRead (fn : Nat) : State → Result := lift fun s =>
  readJobstat s fn (if s.sys.msg.aux = 1 then s.sys.msg.gen else (vdOf s.sys (fnDevice s.sys fn)).jobPushes)

/-! ## Register writes and reads (R6, R349, R395, R400) -/

/-- The event of a request of VDCTL; KEYLOAD's is that of its record's KIND (R352, R360). -/
def requestEvent (s : State) (vk req : Nat) : Option Instr :=
  if req = 1 then some .provision else if req = 2 then some .preempt else if req = 3 then some .restore
  else if req = 4 then some .stop else if req = 5 then some .continueReq else if req = 6 then some .resetReq
  else if req = 7 then some .inval2
  else if req = 8 then
    some (if at' (keyRecord s vk) 1 1 = 2 then .keyloadWindow else if at' (keyRecord s vk) 1 1 = 3 then .keyloadImport else .keyloadRetire)
  else if req = 9 then some .aperture else none

/-- A write of VDCTL: a nonzero REQ issues its request in this tick; an unassigned one is a BADREQ, unless the device is
busy. -/
def writeVdctl (s : State) (vk v : Nat) : Sys :=
  let req := v % 256
  if req = 0 then s.sys
  else match requestEvent s vk req with
    | some i => schedule s.sys s.gtc i { noMsg with obj := vk }
    | none =>
      match refusal s.sys (vdOf s.sys vk) req with
      | some r => setResult s.sys vk r 0
      | none => s.sys

/-- A write of FWCTL (R395). -/
def writeFwctl (y : Sys) (g v : Nat) : Sys :=
  let req := v % 256
  if req = 1 then schedule y g .stage noMsg
  else if req = 2 then schedule y g .activate noMsg
  else if req = 3 then schedule y g .abort noMsg
  else fwRefuse y 2

/-- A write to the block of a virtual device (R349). -/
def writeVdBlock (s : State) (vk off v : Nat) : Sys :=
  let y := s.sys
  let d := vdOf y vk
  if off = 0x000 then writeVdctl s vk v
  else if off = 0x010 then setVd y { d with arg0 := v % 2 ^ 64 }
  else if off = 0x018 then setVd y { d with arg1 := v % 2 ^ 64 }
  else if off = 0x020 then (if field v 63 48 = 0 then y else setVd y { d with s2count := 0 })
  else y

/-- A write to guest registers (R404). -/
def writeGuest (s : State) (vk off v : Nat) : Sys :=
  if off = 0x000 then setS1root s.sys vk v
  else if off = 0x008 then hostPush s.sys s.gtc vk v false
  else s.sys

/-- A write to the management block (R395, R402, R408). -/
def writeBlock (s : State) (off v : Nat) : Sys :=
  let y := s.sys
  if off = 0x020 then writeFwctl y s.gtc v
  else if off = 0x028 then withMgmt y fun m => { m with fwarg := v % 2 ^ 64 }
  else if off = 0x040 then withMgmt y fun m => { m with evbase := field v 49 12 * 4096 }
  else if off = 0x048 then withMgmt y (setEvsize v)
  else if off = 0x058 then withMgmt y (setEvtail v)
  else if off = 0x060 then withMgmt y (clearEvlost v)
  else if off = 0x068 then withMgmt y (setEvvec v)
  else if off = 0x080 then withMgmt y (setTherm v)
  else if 0x100 ≤ off ∧ off < 0x200 then withMgmt y (setPalloc ((off - 0x100) / 8) v)
  else y

/-- A write of 8 bytes to the MSI-X table of a function (R363, R400): the address of a vector, or its data and mask bit; a vector
that is pending sends its message once it is unmasked. -/
def writeMsix (y : Sys) (fn off v : Nat) : Sys :=
  let e := msixAt y fn (off / 16)
  if 1024 ≤ off then y
  else if off % 16 = 0 then setMsix y { e with addr := v % 2 ^ 64 }
  else
    let e := { e with data := field v 31 0, mask := v.testBit 32 }
    if e.pend && !e.mask then sendOut (setMsix y { e with pend := false }) (.msix fn (off / 16) e.addr e.data) else setMsix y e

/-- The size of BAR4 (R400). -/
def hostWindow : Nat := 2 ^ 36

/-- Where the events for register accesses put BAR2: from 2^20 on, beyond every BAR0 (log entry 84). -/
def bar2 : Nat := 1048576

/-- Traffic that a TDI in RUN refuses: not on its IDE stream (R370). -/
def refusesTraffic (v : Vdev) (ide : Bool) : Bool := v.tdi == 2 && !ide

/-- REGISTER_WRITE: an aligned 8-byte write to BAR0 of a function (R400), or to BAR2; RO fields and offsets that no table assigns
ignore it. While the TDI is in RUN, BAR0 takes it on the IDE stream alone (R401). -/
def execRegisterWrite (fn off v : Nat) : State → Result := lift fun s =>
  let chip := s.sys.mgmt.chip
  if refusesTraffic (vdOf s.sys (fnDevice s.sys fn)) s.sys.msg.ide && decide (off < bar2) then
    tdiError s (sendOut s.sys (.unsupported fn (hostWindow + off))) (fnDevice s.sys fn)
  else if off % 8 ≠ 0 then s.sys
  else if bar2 ≤ off then writeMsix s.sys fn (off - bar2) v
  else if fn ≠ 0 then writeGuest s (chip * 32 + fn) off v
  else if off < 0x10000 then writeBlock s off v
  else if off < 0x30000 then writeVdBlock s (chip * 32 + (off - 0x10000) / 0x1000) (off % 0x1000) v
  else if 0x40000 ≤ off ∧ off < 0x40020 then writeGuest s (chip * 32) (off - 0x40000) v
  else s.sys

/-- The code of a firmware state (R395). -/
def fwCode : FwState → Nat
  | .idle => 0 | .staging => 1 | .staged => 2 | .quiescing => 3 | .handover => 4 | .probation => 5 | .rollback => 6

/-- The code of a virtual device's state (R349). -/
def vdCode : VdState → Nat
  | .absent => 0 | .provisioning => 1 | .running => 2 | .preempting => 3 | .saved => 4 | .stopping => 5 | .stopped => 6
  | .resetting => 7 | .restoring => 8

/-- VDSTATUS (R349). -/
def vdstatusOf (v : Vdev) : Nat :=
  v.tdi * 2 ^ 24 + v.detail % 256 * 65536 + v.result % 256 * 256 + b01 v.dpready * 128 + b01 v.stoppedBit * 64 +
  b01 v.savelate * 32 + b01 v.busy * 16 + vdCode v.st

/-- FWSTATUS (R395). -/
def fwstatusOf (m : Mgmt) : Nat :=
  m.activeImage.svn % 65536 * 2 ^ 32 + m.activeImage.hover % 65536 * 65536 + m.fwresult % 256 * 256 + b01 m.active * 16 +
  fwCode m.fwstate

/-- TEMP as it reads: its reset value until the sensors are read first; a reading that an event has brought stands while it is at or
above TEMERG; one below brings no event and is free (log entry 72). -/
def tempNow (g : Nat) (m : Mgmt) : Nat :=
  if m.temerg ≤ m.temp then m.temp else if m.sensed then Config.sensorMax g % m.temerg else 0

/-- A register of the management block as it reads (R402). -/
def readBlock (g : Nat) (m : Mgmt) (off : Nat) : Nat :=
  if off = 0x000 then m.ready.toNat
  else if off = 0x008 then m.chip % 524288
  else if off = 0x010 then g
  else if off = 0x028 then m.fwarg
  else if off = 0x030 then fwstatusOf m
  else if off = 0x040 then m.evbase
  else if off = 0x048 then m.evsize
  else if off = 0x050 then (m.evhead + 4294967296 - m.evposted) % 4294967296
  else if off = 0x058 then m.evtail
  else if off = 0x060 then m.evlost
  else if off = 0x068 then m.evvec
  else if off = 0x080 then m.tcrit * 65536 + m.temerg
  else if off = 0x088 then tempNow g m
  else if off = 0x090 then m.watts % 65536
  else if 0x100 ≤ off ∧ off < 0x200 then (m.palloc[(off - 0x100) / 8]?).getD 0
  else 0

/-- A register of a virtual device's block as it reads (R349); VDCTL is write-only. -/
def readVdBlock (v : Vdev) (off : Nat) : Nat :=
  if off = 0x008 then vdstatusOf v
  else if off = 0x010 then v.arg0
  else if off = 0x018 then v.arg1
  else if off = 0x020 then v.s2count % 65536 * 2 ^ 48 + v.s2gran % 2 ^ 41
  else 0

/-- A guest register as it reads (R404); JOBPUSH is write-only. -/
def readGuest (v : Vdev) (off : Nat) : Nat :=
  if off = 0x000 then v.s1root
  else if off = 0x010 then jobstatOf v
  else if off = 0x018 then v.tdi * 16 + vdCode v.st
  else 0

/-- The guest register that an offset of BAR0 of a function names. -/
def guestOff (fn off : Nat) : Option Nat :=
  if fn ≠ 0 then some off else if 0x40000 ≤ off ∧ off < 0x40020 then some (off - 0x40000) else none

/-- BAR0 of a function as it reads (R400). -/
def readBar0 (s : State) (fn off : Nat) : Nat :=
  let y := s.sys
  let chip := y.mgmt.chip
  match guestOff fn off with
  | some o => readGuest (vdOf y (chip * 32 + fn)) o
  | none =>
    if off < 0x10000 then readBlock s.gtc y.mgmt off
    else if off < 0x30000 then readVdBlock (vdOf y (chip * 32 + (off - 0x10000) / 0x1000)) (off % 0x1000)
    else 0

/-- The size of BAR0 of a function (R400). -/
def bar0Size (fn : Nat) : Nat := if fn = 0 then 0x80000 else 0x1000

/-- The bytes of the MSI-X table of a function (R400). -/
def msixTable (y : Sys) (fn : Nat) : List Byte :=
  (List.range 64).flatMap fun k =>
    let e := msixAt y fn k
    toBytes 8 e.addr ++ toBytes 4 e.data ++ toBytes 4 (b01 e.mask)

/-- The pending bits of a function (R400). -/
def msixPba (y : Sys) (fn : Nat) : Nat := (List.range 64).foldl (fun a k => a + b01 (msixAt y fn k).pend * 2 ^ k) 0

/-- A byte of BAR2 of a function as it reads (R400). -/
def readBar2 (y : Sys) (fn off : Nat) : Byte :=
  if off < 0x400 then ((msixTable y fn)[off]?).getD 0
  else if 0x2000 ≤ off && off < 0x2008 then ((toBytes 8 (msixPba y fn))[off - 0x2000]?).getD 0
  else 0

/-! ## The host window (R188, R399, R401) -/

/-- What host accesses to a virtual device wait for: its cores' fences into HST (R177). -/
def hostMustWait (y : Sys) (vk : Nat) : Bool :=
  (vdOf y vk).cores.any fun c => !waitMet y c false (coreOf y c).toHst

/-- S2FAULT counts a failed access (R349, R401). -/
def countFault (y : Sys) (vk ia : Nat) : Sys :=
  let v := vdOf y vk
  setVd y { v with s2count := min (v.s2count + 1) 65535, s2gran := ia / 65536 }

/-- The events that a host access to n bytes meets in its table walks and, if it reads, in its own lines (R355, R377, R380). -/
def hostEvents (s : State) (vk off n : Nat) (reads : Bool) : List LineEvent :=
  placeEvents s vk ((List.range (ceilDiv n 64 + 1)).flatMap fun i =>
    let a := if i = 0 then off else (off / 64 + i) * 64
    if off + n ≤ a then []
    else walkPlaces2 s vk a ++ if reads then ((xlate2 s vk a).map fun x => (x.slot, x.ia, x.pa)).toList else [])

/-- Write the records of a host access. -/
def noteHost (s : State) (y : Sys) (vk off n : Nat) (reads : Bool) : Sys :=
  (hostEvents s vk off n reads).foldl (fun y e => writeLineEvent y s.gtc vk e) y

/-- A piece of a line that a host write carries, and where it goes; none where it fails: no stage-2 translation, or no WR (R401). -/
def writePlace (s : State) (vk ia : Nat) : Option Xlat := (xlate2 s vk ia).filter Xlat.wr

/-- A piece of a host write: stored under the key that its stage-2 leaf names, with EP poisoned and recorded as of origin 2, or
discarded. -/
def hostPiece (s : State) (vk : Nat) (ep : Bool) (y : Sys) (p : Nat × List RdByte) : Sys :=
  if p.2 = [] then y
  else match writePlace s vk p.1 with
    | none => noteHost s y vk p.1 p.2.length false
    | some x =>
      let r := writePhys s vk x p.2 none
      let y := noteWindow s { y with posts := y.posts ++ r.1 } vk none s.gtc r.1
      let y := noteDirty (noteStage2 s y vk p.1) (if r.1 = [] then [] else dirtyX s vk x)
      if ep then writeEvent y s.gtc clsPoison (vk % 32) (sourceOf 3 0) 2 (x.pa / 64 * 64) 0 else y

/-- The granules in which a host write fails, with an address in each: it is counted once for each. -/
def failedGranules (s : State) (vk : Nat) (ps : List (Nat × List RdByte)) : List Nat :=
  (ps.filter fun p => p.2 != [] && (writePlace s vk p.1).isNone).foldl (fun l p =>
    if l.any fun a => a / 65536 == p.1 / 65536 then l else l ++ [p.1]) []

/-- HOST_WRITE through BAR4. -/
def execHostWrite (fn off : Nat) (data : List Byte) (ep ide : Bool) : State → Result := lift fun s =>
  let y := s.sys
  let vk := fnDevice y fn
  if refusesTraffic (vdOf y vk) ide then tdiError s (sendOut y (.unsupported fn off)) vk
  else if heldBefore y vk || hostMustWait y vk then
    schedule y (s.gtc + 1) (.hostWrite fn off data ep ide) { noMsg with aux := 1, dl := placeInLine y vk }
  else
    let ps := cutLines data.length off (data.map fun b => ⟨b, ep, 0⟩)
    (failedGranules s vk ps).foldl (fun y a => countFault y vk a) (ps.foldl (hostPiece s vk ep) y)

/-- A read that the function accepts of its registers, at an offset beyond the host window (R400, R404, R405; log entry 84). -/
def readRegisters (s : State) (fn len o : Nat) : Sys :=
  let y := s.sys
  let off := hostWindow + o
  if bar2 ≤ o then
    if o + len ≤ bar2 + 0x4000 then
      sendOut y (.readCompletion fn off ((List.range len).map fun i => readBar2 y fn (o - bar2 + i)) false)
    else sendOut y (.unsupported fn off)
  else if len ≠ 8 || o % 8 ≠ 0 || bar0Size fn ≤ o then sendOut y (.unsupported fn off)
  else if guestOff fn o = some 0x010 then readJobstat s fn (vdOf y (fnDevice y fn)).jobPushes
  else if guestOff fn o = some 0 && (y.msg.aux ≠ 2 || usesOld s (fnDevice y fn) false 0 0) then
    schedule y (s.gtc + 1) (.hostRead fn off len true) { noMsg with aux := 2 }
  else sendOut y (.readCompletion fn off (toBytes 8 (readBar0 s fn o)) false)

/-- HOST_READ through BAR4: data, Unsupported Request where no stage-2 translation is, EP for a poisoned line. An offset beyond the
window stands for a read of BAR0 or BAR2 (log entry 84). -/
def execHostRead (fn off len : Nat) (ide : Bool) : State → Result := lift fun s =>
  let y := s.sys
  let vk := fnDevice y fn
  if refusesTraffic (vdOf y vk) ide && decide (off < hostWindow + bar2) then tdiError s (sendOut y (.unsupported fn off)) vk
  else if hostWindow ≤ off then readRegisters s fn len (off - hostWindow)
  else if heldBefore y vk || hostMustWait y vk then
    schedule y (s.gtc + 1) (.hostRead fn off len ide) { noMsg with aux := 1, dl := placeInLine y vk }
  else
    let bytes := (List.range len).map fun i => (xlate2 s vk (off + i)).map fun x => readPhys s vk x.slot x.ia x.pa
    let y := noteHost s (noteStage2 s y vk off) vk off len true
    if bytes.any Option.isNone then sendOut y (.unsupported fn off)
    else
      let bs := bytes.filterMap fun b => b
      sendOut y (.readCompletion fn off (bs.map RdByte.val) (bs.any RdByte.poison))

/-! ## Measurements and management messages (R406, R407) -/

/-- The measurement blocks of a function (R407). -/
def measurements (y : Sys) (vk : Nat) : List (List Byte) :=
  let v := vdOf y vk
  [Config.bootRomDigest, y.mgmt.activeImage.digest ++ toBytes 4 y.mgmt.activeImage.svn,
   Config.fusedKeyHash ++ toBytes 4 Config.fusedMinSvn, v.descDigest, v.imageChain]

/-- The content of an SPDM response: the measurements (KIND 0), the TDISP interface report with blocks 2 and 4 (KIND 1, R370), or what
another message of SPDM, IDE_KM or TDISP brings, which the manual does not give (log entry 31). -/
def spdmContent (y : Sys) (vk kind : Nat) (transcript : List Byte) : List (List Byte) :=
  let b := measurements y vk
  if kind = 0 then b
  else if kind = 1 then [(b[1]?).getD [], (b[3]?).getD [], Config.interfaceReport transcript]
  else [Config.spdmAnswer transcript]

/-- SPDM_REQUEST (R407): the response to the request that the message carries, of the kind in its GEN, with its two signatures over the
function's transcript up to and with it. -/
def execSpdmRequest (fn : Nat) : State → Result := lift fun s =>
  let y := s.sys
  let before := ((getBy Prod.fst fn y.mgmt.transcripts).map Prod.snd).getD [] ++ y.msg.data
  let b := spdmContent y (fnDevice y fn) y.msg.gen before
  let t := before ++ b.flatten
  sendOut { y with mgmt := { y.mgmt with transcripts := putBy Prod.fst (fn, t) y.mgmt.transcripts } } (.spdm fn b (Config.spdmSign t))

/-- MCTP_VENDOR_READ: kind 0 a register of the management block, 1 VDSTATUS of virtual device `off`, 2 one of the last 256
event records, the oldest first. -/
def execMctpVendorRead (kind off : Nat) : State → Result := lift fun s =>
  let y := s.sys
  let data :=
    if kind = 0 then toBytes 8 (readBar0 s 0 (off % 0x10000))
    else if kind = 1 then toBytes 8 (readBar0 s 0 (0x10008 + off % 32 * 0x1000))
    else (y.mgmt.recent[off]?).getD []
  sendOut y (.mctp kind off data)

end Sys2Proof.Machine
end

