-- ==== Sys2Proof/Machine/Dispatch.lean ====
section
/-! DEFINITION. What every instruction word and every event of the table does: one arm for each, which calls its meaning. -/

namespace Sys2Proof.Machine

/-- The meaning of an instruction or event at a state. -/
def exec (i : Instr) (s : State) : Host.Outcome State Fault Refusal :=
  match i with
  | .backendPush w => Sys2Proof.Machine.execBackendPush w s
  | .entryIssue core role => Sys2Proof.Machine.execEntryIssue core role s
  | .rowSample core role seq k stage => Sys2Proof.Machine.execRowSample core role seq k stage s
  | .rowLanding core lid => Sys2Proof.Machine.execRowLanding core lid s
  | .frameBoundary dom => Sys2Proof.Machine.execFrameBoundary dom s
  | .preemptionArrival dom => Sys2Proof.Machine.execPreemptionArrival dom s
  | .domainResume dom => Sys2Proof.Machine.execDomainResume dom s
  | .handlerBackendComplete core role => Sys2Proof.Machine.execHandlerBackendComplete core role s
  | .scalarAccessService core role => Sys2Proof.Machine.execScalarAccessService core role s
  | .transferDelivery core xid phase => Sys2Proof.Machine.execTransferDelivery core xid phase s
  | .xinvComplete core xid => Sys2Proof.Machine.execXinvComplete core xid s
  | .barrierResolution h => Sys2Proof.Machine.execBarrierResolution h s
  | .lockReleaseEffect h => Sys2Proof.Machine.execLockReleaseEffect h s
  | .queueAbandonment h launch => Sys2Proof.Machine.execQueueAbandonment h launch s
  | .proxyBatchSend chip h => Sys2Proof.Machine.execProxyBatchSend chip h s
  | .proxyBatchArrival chip h n => Sys2Proof.Machine.execProxyBatchArrival chip h n s
  | .launchUnitServe vd => Sys2Proof.Machine.execLaunchUnitServe vd s
  | .launchStart vd => Sys2Proof.Machine.execLaunchStart vd s
  | .counterCompletion h c => Sys2Proof.Machine.execCounterCompletion h c s
  | .collResolution h => Sys2Proof.Machine.execCollResolution h s
  | .collWalkDone h gen => Sys2Proof.Machine.execCollWalkDone h gen s
  | .vdSaved vd => Sys2Proof.Machine.execVdSaved vd s
  | .saveDeadlineExpiry vd => Sys2Proof.Machine.execSaveDeadlineExpiry vd s
  | .stopPublish vd => Sys2Proof.Machine.execStopPublish vd s
  | .flr fn => Sys2Proof.Machine.execFlr fn s
  | .vdResetComplete vd => Sys2Proof.Machine.execVdResetComplete vd s
  | .s2faultClear vd v => Sys2Proof.Machine.execS2faultClear vd v s
  | .lockInterfaceRequest fn => Sys2Proof.Machine.execLockInterfaceRequest fn s
  | .stopInterfaceRequest fn => Sys2Proof.Machine.execStopInterfaceRequest fn s
  | .evsizeWrite v => Sys2Proof.Machine.execEvsizeWrite v s
  | .evtailWrite v => Sys2Proof.Machine.execEvtailWrite v s
  | .evlostClear v => Sys2Proof.Machine.execEvlostClear v s
  | .evvecWrite v => Sys2Proof.Machine.execEvvecWrite v s
  | .thermWrite v => Sys2Proof.Machine.execThermWrite v s
  | .pallocWrite n v => Sys2Proof.Machine.execPallocWrite n v s
  | .registerWrite fn off v => Sys2Proof.Machine.execRegisterWrite fn off v s
  | .s1rootWrite fn v => Sys2Proof.Machine.execS1rootWrite fn v s
  | .jobpush fn v ep => Sys2Proof.Machine.execJobpush fn v ep s
  | .jobstatRead fn => Sys2Proof.Machine.execJobstatRead fn s
  | .hostWrite fn off data ep ide => Sys2Proof.Machine.execHostWrite fn off data ep ide s
  | .hostRead fn off len ide => Sys2Proof.Machine.execHostRead fn off len ide s
  | .spdmRequest fn => Sys2Proof.Machine.execSpdmRequest fn s
  | .mctpVendorRead kind off => Sys2Proof.Machine.execMctpVendorRead kind off s
  | .laneSpare port lane stall => Sys2Proof.Machine.execLaneSpare port lane stall s
  | .portDown port stall => Sys2Proof.Machine.execPortDown port stall s
  | .linkRetrained port => Sys2Proof.Machine.execLinkRetrained port s
  | .hostLinkRecovery stall => Sys2Proof.Machine.execHostLinkRecovery stall s
  | .presenceNotice chip => Sys2Proof.Machine.execPresenceNotice chip s
  | .pathDownExpiry chip => Sys2Proof.Machine.execPathDownExpiry chip s
  | .hostRemoval cause => Sys2Proof.Machine.execHostRemoval cause s
  | .thermalEmergency sensor temp => Sys2Proof.Machine.execThermalEmergency sensor temp s
  | .thermalClear sensor temp => Sys2Proof.Machine.execThermalClear sensor temp s
  | .thermalCritical sensor temp => Sys2Proof.Machine.execThermalCritical sensor temp s
  | .functionReady bit => Sys2Proof.Machine.execFunctionReady bit s
  | .readyLost bit => Sys2Proof.Machine.execReadyLost bit s
  | .mode g p e r t => Sys2Proof.Machine.execMode g p e r t s
  | .add d a b => Sys2Proof.Machine.execAdd d a b s
  | .sub d a b => Sys2Proof.Machine.execSub d a b s
  | .and d a b => Sys2Proof.Machine.execAnd d a b s
  | .or d a b => Sys2Proof.Machine.execOr d a b s
  | .xor d a b => Sys2Proof.Machine.execXor d a b s
  | .sll d a b => Sys2Proof.Machine.execSll d a b s
  | .srl d a b => Sys2Proof.Machine.execSrl d a b s
  | .sra d a b => Sys2Proof.Machine.execSra d a b s
  | .mul d a b => Sys2Proof.Machine.execMul d a b s
  | .mulh d a b => Sys2Proof.Machine.execMulh d a b s
  | .div d a b => Sys2Proof.Machine.execDiv d a b s
  | .rem d a b => Sys2Proof.Machine.execRem d a b s
  | .slt d a b => Sys2Proof.Machine.execSlt d a b s
  | .sltu d a b => Sys2Proof.Machine.execSltu d a b s
  | .min d a b => Sys2Proof.Machine.execMin d a b s
  | .max d a b => Sys2Proof.Machine.execMax d a b s
  | .clz d a => Sys2Proof.Machine.execClz d a s
  | .popc d a => Sys2Proof.Machine.execPopc d a s
  | .addi d a k => Sys2Proof.Machine.execAddi d a k s
  | .andi d a k => Sys2Proof.Machine.execAndi d a k s
  | .ori d a k => Sys2Proof.Machine.execOri d a k s
  | .xori d a k => Sys2Proof.Machine.execXori d a k s
  | .slli d a k => Sys2Proof.Machine.execSlli d a k s
  | .srli d a k => Sys2Proof.Machine.execSrli d a k s
  | .srai d a k => Sys2Proof.Machine.execSrai d a k s
  | .slti d a k => Sys2Proof.Machine.execSlti d a k s
  | .lui d k => Sys2Proof.Machine.execLui d k s
  | .pcrel d k => Sys2Proof.Machine.execPcrel d k s
  | .slb d a o => Sys2Proof.Machine.execSlb d a o s
  | .slh d a o => Sys2Proof.Machine.execSlh d a o s
  | .slw d a o => Sys2Proof.Machine.execSlw d a o s
  | .sld d a o => Sys2Proof.Machine.execSld d a o s
  | .ssb d a o => Sys2Proof.Machine.execSsb d a o s
  | .ssh d a o => Sys2Proof.Machine.execSsh d a o s
  | .ssw d a o => Sys2Proof.Machine.execSsw d a o s
  | .ssd d a o => Sys2Proof.Machine.execSsd d a o s
  | .beq a o => Sys2Proof.Machine.execBeq a o s
  | .bne a o => Sys2Proof.Machine.execBne a o s
  | .blt a o => Sys2Proof.Machine.execBlt a o s
  | .bge a o => Sys2Proof.Machine.execBge a o s
  | .bltu a o => Sys2Proof.Machine.execBltu a o s
  | .bgeu a o => Sys2Proof.Machine.execBgeu a o s
  | .jal o => Sys2Proof.Machine.execJal o s
  | .jalr d a k => Sys2Proof.Machine.execJalr d a k s
  | .csrr d c => Sys2Proof.Machine.execCsrr d c s
  | .csrw d a c => Sys2Proof.Machine.execCsrw d a c s
  | .csrs d a c => Sys2Proof.Machine.execCsrs d a c s
  | .csrc d a c => Sys2Proof.Machine.execCsrc d a c s
  | .trap a => Sys2Proof.Machine.execTrap a s
  | .svc a => Sys2Proof.Machine.execSvc a s
  | .ttsync a k => Sys2Proof.Machine.execTtsync a k s
  | .ttmark d => Sys2Proof.Machine.execTtmark d s
  | .vsave a => Sys2Proof.Machine.execVsave a s
  | .vrestore a => Sys2Proof.Machine.execVrestore a s
  | .replay a => Sys2Proof.Machine.execReplay a s
  | .vadd d a b => Sys2Proof.Machine.execVadd d a b s
  | .vsub d a b => Sys2Proof.Machine.execVsub d a b s
  | .vmul d a b => Sys2Proof.Machine.execVmul d a b s
  | .vmulh d a b => Sys2Proof.Machine.execVmulh d a b s
  | .vmacc d a b => Sys2Proof.Machine.execVmacc d a b s
  | .vmin d a b => Sys2Proof.Machine.execVmin d a b s
  | .vmax d a b => Sys2Proof.Machine.execVmax d a b s
  | .vand d a b => Sys2Proof.Machine.execVand d a b s
  | .vor d a b => Sys2Proof.Machine.execVor d a b s
  | .vxor d a b => Sys2Proof.Machine.execVxor d a b s
  | .vsll d a b => Sys2Proof.Machine.execVsll d a b s
  | .vsrl d a b => Sys2Proof.Machine.execVsrl d a b s
  | .vsra d a b => Sys2Proof.Machine.execVsra d a b s
  | .vabs d a => Sys2Proof.Machine.execVabs d a s
  | .vaddsat d a b => Sys2Proof.Machine.execVaddsat d a b s
  | .vsubsat d a b => Sys2Proof.Machine.execVsubsat d a b s
  | .vclz d a => Sys2Proof.Machine.execVclz d a s
  | .vpopc d a => Sys2Proof.Machine.execVpopc d a s
  | .vcmpeq d a b => Sys2Proof.Machine.execVcmpeq d a b s
  | .vcmpne d a b => Sys2Proof.Machine.execVcmpne d a b s
  | .vcmplt d a b => Sys2Proof.Machine.execVcmplt d a b s
  | .vcmple d a b => Sys2Proof.Machine.execVcmple d a b s
  | .mand d a b => Sys2Proof.Machine.execMand d a b s
  | .mor d a b => Sys2Proof.Machine.execMor d a b s
  | .mxor d a b => Sys2Proof.Machine.execMxor d a b s
  | .mnot d a => Sys2Proof.Machine.execMnot d a s
  | .mcount d a => Sys2Proof.Machine.execMcount d a s
  | .mfirst d a => Sys2Proof.Machine.execMfirst d a s
  | .vbcast d a => Sys2Proof.Machine.execVbcast d a s
  | .vextract d a b => Sys2Proof.Machine.execVextract d a b s
  | .vid d => Sys2Proof.Machine.execVid d s
  | .vsel d a b => Sys2Proof.Machine.execVsel d a b s
  | .vperm d a b => Sys2Proof.Machine.execVperm d a b s
  | .vcompress d a => Sys2Proof.Machine.execVcompress d a s
  | .vexpand d a => Sys2Proof.Machine.execVexpand d a s
  | .vslideup d a k => Sys2Proof.Machine.execVslideup d a k s
  | .vslidedn d a k => Sys2Proof.Machine.execVslidedn d a k s
  | .vredsumO d a => Sys2Proof.Machine.execVredsumO d a s
  | .vredsumU d a => Sys2Proof.Machine.execVredsumU d a s
  | .vredmin d a => Sys2Proof.Machine.execVredmin d a s
  | .vredmax d a => Sys2Proof.Machine.execVredmax d a s
  | .vredminidx d a => Sys2Proof.Machine.execVredminidx d a s
  | .vredmaxidx d a => Sys2Proof.Machine.execVredmaxidx d a s
  | .vscanO d a => Sys2Proof.Machine.execVscanO d a s
  | .vscanF d a => Sys2Proof.Machine.execVscanF d a s
  | .vgrant d a => Sys2Proof.Machine.execVgrant d a s
  | .vfadd d a b => Sys2Proof.Machine.execVfadd d a b s
  | .vfsub d a b => Sys2Proof.Machine.execVfsub d a b s
  | .vfmul d a b => Sys2Proof.Machine.execVfmul d a b s
  | .vfma d a b => Sys2Proof.Machine.execVfma d a b s
  | .vfnma d a b => Sys2Proof.Machine.execVfnma d a b s
  | .vfmin d a b => Sys2Proof.Machine.execVfmin d a b s
  | .vfmax d a b => Sys2Proof.Machine.execVfmax d a b s
  | .vfdiv d a b => Sys2Proof.Machine.execVfdiv d a b s
  | .vfsqrt d a => Sys2Proof.Machine.execVfsqrt d a s
  | .vfexp2 d a => Sys2Proof.Machine.execVfexp2 d a s
  | .vflog2 d a => Sys2Proof.Machine.execVflog2 d a s
  | .vfabs d a => Sys2Proof.Machine.execVfabs d a s
  | .vfneg d a => Sys2Proof.Machine.execVfneg d a s
  | .vfcmpeq d a b => Sys2Proof.Machine.execVfcmpeq d a b s
  | .vfcmplt d a b => Sys2Proof.Machine.execVfcmplt d a b s
  | .vfcmple d a b => Sys2Proof.Machine.execVfcmple d a b s
  | .vfcmpun d a b => Sys2Proof.Machine.execVfcmpun d a b s
  | .vcvt d a x => Sys2Proof.Machine.execVcvt d a x s
  | .vcvtsr d a x => Sys2Proof.Machine.execVcvtsr d a x s
  | .vpack d a b x => Sys2Proof.Machine.execVpack d a b x s
  | .vunpack d a x => Sys2Proof.Machine.execVunpack d a x s
  | .vscacc d a b => Sys2Proof.Machine.execVscacc d a b s
  | .vscext d a b => Sys2Proof.Machine.execVscext d a b s
  | .vscset d a b => Sys2Proof.Machine.execVscset d a b s
  | .vbinadd d a b => Sys2Proof.Machine.execVbinadd d a b s
  | .vbinfold d a b => Sys2Proof.Machine.execVbinfold d a b s
  | .vbinmerge d a b => Sys2Proof.Machine.execVbinmerge d a b s
  | .vw2pmul d a b => Sys2Proof.Machine.execVw2pmul d a b s
  | .mmabO d a b => Sys2Proof.Machine.execMmabO d a b s
  | .mmabF d a b => Sys2Proof.Machine.execMmabF d a b s
  | .mmad d a b => Sys2Proof.Machine.execMmad d a b s
  | .mtbl a b => Sys2Proof.Machine.execMtbl a b s
  | .mmal d a b => Sys2Proof.Machine.execMmal d a b s
  | .xscacc d a b x => Sys2Proof.Machine.execXscacc d a b x s
  | .oclaim a => Sys2Proof.Machine.execOclaim a s
  | .orelease a => Sys2Proof.Machine.execOrelease a s
  | .oload a x => Sys2Proof.Machine.execOload a x s
  | .aclear d => Sys2Proof.Machine.execAclear d s
  | .aload d x => Sys2Proof.Machine.execAload d x s
  | .astore d x => Sys2Proof.Machine.execAstore d x s
  | .tshape d a => Sys2Proof.Machine.execTshape d a s
  | .vld d a k => Sys2Proof.Machine.execVld d a k s
  | .vst d a k => Sys2Proof.Machine.execVst d a k s
  | .vlds d a b => Sys2Proof.Machine.execVlds d a b s
  | .vsts d a b => Sys2Proof.Machine.execVsts d a b s
  | .vldt d a b => Sys2Proof.Machine.execVldt d a b s
  | .vldf d a b => Sys2Proof.Machine.execVldf d a b s
  | .vgath d a b => Sys2Proof.Machine.execVgath d a b s
  | .vscat d a b => Sys2Proof.Machine.execVscat d a b s
  | .vscadd d a b => Sys2Proof.Machine.execVscadd d a b s
  | .vscaddBin d a b => Sys2Proof.Machine.execVscaddBin d a b s
  | .vamo d a b o => Sys2Proof.Machine.execVamo d a b o s
  | .mld d a => Sys2Proof.Machine.execMld d a s
  | .mst d a => Sys2Proof.Machine.execMst d a s
  | .vbind d a => Sys2Proof.Machine.execVbind d a s
  | .vunbind d => Sys2Proof.Machine.execVunbind d s
  | .xgo d a => Sys2Proof.Machine.execXgo d a s
  | .xdrain d a b => Sys2Proof.Machine.execXdrain d a b s
  | .xtag d a => Sys2Proof.Machine.execXtag d a s
  | .pgreq d a b => Sys2Proof.Machine.execPgreq d a b s
  | .xinv a b => Sys2Proof.Machine.execXinv a b s
  | .xfence f t => Sys2Proof.Machine.execXfence f t s
  | .arrive d o l => Sys2Proof.Machine.execArrive d o l s
  | .bwait d o l => Sys2Proof.Machine.execBwait d o l s
  | .barshed d o l => Sys2Proof.Machine.execBarshed d o l s
  | .barjoin d o l => Sys2Proof.Machine.execBarjoin d o l s
  | .acq d o l => Sys2Proof.Machine.execAcq d o l s
  | .acqM d o l => Sys2Proof.Machine.execAcqM d o l s
  | .rel o => Sys2Proof.Machine.execRel o s
  | .bind o l => Sys2Proof.Machine.execBind o l s
  | .qpush d o l => Sys2Proof.Machine.execQpush d o l s
  | .qrecv d o l => Sys2Proof.Machine.execQrecv d o l s
  | .qproxy d o l => Sys2Proof.Machine.execQproxy d o l s
  | .launch d o l => Sys2Proof.Machine.execLaunch d o l s
  | .cwait d o l => Sys2Proof.Machine.execCwait d o l s
  | .cancel d o => Sys2Proof.Machine.execCancel d o s
  | .sfence x => Sys2Proof.Machine.execSfence x s
  | .coll d o l => Sys2Proof.Machine.execColl d o l s
  | .collwait d o l => Sys2Proof.Machine.execCollwait d o l s
  | .collabort d o => Sys2Proof.Machine.execCollabort d o s
  | .decodeIllegalEncoding w => Sys2Proof.Machine.execDecodeIllegalEncoding w s
  | .stage2InvalidationComplete vd => Sys2Proof.Machine.execStage2InvalidationComplete vd s
  | .startInterfaceRequest fn => Sys2Proof.Machine.execStartInterfaceRequest fn s
  | .chipTableWrite vd table => Sys2Proof.Machine.execChipTableWrite vd table s
  | .gtcTick => Sys2Proof.Machine.execGtcTick s
  | .homeArrive => Sys2Proof.Machine.execHomeArrive s
  | .homeBwait => Sys2Proof.Machine.execHomeBwait s
  | .homeBarshed => Sys2Proof.Machine.execHomeBarshed s
  | .homeBarjoin => Sys2Proof.Machine.execHomeBarjoin s
  | .homeAcq => Sys2Proof.Machine.execHomeAcq s
  | .homeRel => Sys2Proof.Machine.execHomeRel s
  | .homeBind => Sys2Proof.Machine.execHomeBind s
  | .homeQpush => Sys2Proof.Machine.execHomeQpush s
  | .homeQrecv => Sys2Proof.Machine.execHomeQrecv s
  | .shadowQproxy => Sys2Proof.Machine.execShadowQproxy s
  | .homeLaunch => Sys2Proof.Machine.execHomeLaunch s
  | .homeCwait => Sys2Proof.Machine.execHomeCwait s
  | .homeCancel => Sys2Proof.Machine.execHomeCancel s
  | .homeColl => Sys2Proof.Machine.execHomeColl s
  | .homeCollwait => Sys2Proof.Machine.execHomeCollwait s
  | .homeCollabort => Sys2Proof.Machine.execHomeCollabort s
  | .provision => Sys2Proof.Machine.execProvision s
  | .preempt => Sys2Proof.Machine.execPreempt s
  | .restore => Sys2Proof.Machine.execRestore s
  | .stop => Sys2Proof.Machine.execStop s
  | .continueReq => Sys2Proof.Machine.execContinueReq s
  | .resetReq => Sys2Proof.Machine.execResetReq s
  | .inval2 => Sys2Proof.Machine.execInval2 s
  | .keyloadRetire => Sys2Proof.Machine.execKeyloadRetire s
  | .keyloadWindow => Sys2Proof.Machine.execKeyloadWindow s
  | .keyloadImport => Sys2Proof.Machine.execKeyloadImport s
  | .aperture => Sys2Proof.Machine.execAperture s
  | .stage => Sys2Proof.Machine.execStage s
  | .activate => Sys2Proof.Machine.execActivate s
  | .abort => Sys2Proof.Machine.execAbort s
  | .quiesceComplete => Sys2Proof.Machine.execQuiesceComplete s
  | .quiesceTimeout => Sys2Proof.Machine.execQuiesceTimeout s
  | .newImageStart => Sys2Proof.Machine.execNewImageStart s
  | .firstHeartbeat => Sys2Proof.Machine.execFirstHeartbeat s
  | .probationTimeout => Sys2Proof.Machine.execProbationTimeout s
  | .rollbackRestart => Sys2Proof.Machine.execRollbackRestart s
  | .powerOn => Sys2Proof.Machine.execPowerOn s
  | .tret => Sys2Proof.Machine.execTret s
  | .halt => Sys2Proof.Machine.execHalt s
  | .powerLoss => Sys2Proof.Machine.execPowerLoss s

end Sys2Proof.Machine
end

