-- ==== Sys2Proof/Machine/Step.lean ====
section
/-! DEFINITION. One step of the machine: what acts next (Machine/Engine.lean) acts. A tick takes many steps: the agenda lists
what is left of it, and an empty agenda means that GTC ticks. -/

namespace Sys2Proof.Machine

/-- One step. A module without power and with nothing due that could restore it stops by name. -/
def step (s : State) : Host.Outcome State Fault Refusal :=
  if powerless s then .fault .noPower
  else
    match nextAct s with
    | .run i t => exec i t
    | .go t => .next t

/-- A partition in which role L owns all 64 vector registers and 8 tiles exist. -/
def wholePart : Nat := 2 + 8 * 4 + 64 * 64 + 64 * 8192 + 64 * 1048576

/-- The role L of a launch whose TEXT section is one word; its next stamp is 16, as after a `ttsync` to 16. -/
def oneWordRole (w : Nat) : RoleSt := { RoleSt.cleared with
  text := [BitVec.ofNat 32 w], halted := false, counted := false, p := 15 }

/-- The domain of that launch: core 0 of virtual device 0, at TTC 0. -/
def oneWordDomain (id gtc : Nat) : Domain := { Domain.none with id := id, cores := [0], st := .run, ttbase := gtc }

/-- The state with a launch on core 0 of virtual device 0 whose role L has the one word as its TEXT section, and whose turn
it is (log entry 11): the next step fetches and runs it. -/
def State.withFetchWord (s : State) (_nbits w : Nat) : State :=
  let y := s.sys
  let c := { coreOf y 0 with part := d64 wholePart, dom := y.nextDom }
  let y := setCore y (c.setRole 0 (oneWordRole w))
  let y := setDom y (oneWordDomain y.nextDom s.gtc)
  let y := setVd y { vdOf y 0 with
    st := .running, cores := [0], dieobj := List.replicate 4 (0, 4096), tulobj := (0, 16384) }
  { s with sys := { y with nextDom := y.nextDom + 1, mgmt := { y.mgmt with power := true }, agenda := [.front 0 0] } }

end Sys2Proof.Machine
end

