-- ==== Sys2Proof/Safety.lean ====
section
/-! DEFINITION. What counts as a safe run, the state's invariant, and the words in which statements say what an
instruction leaves behind. -/

namespace Sys2Proof.Machine

/-- The physical memory has its canonical form, so that equal memories are equal data. -/
def State.Inv (s : State) : Prop := Memory.wf s.mem = true

/-! ## States after an instruction of the front end -/

/-- The state in which the acting role has become r and nothing else has changed. -/
def State.withMe (s : State) (r : RoleSt) : State := { s with sys := setMe s.sys r }

/-- The state after the acting role has written v to s[d] and goes on with the next word. -/
def State.wrote (s : State) (d : Nat) (v : Dword) : State := s.withMe { (me s.sys).setS d v with pc := (me s.sys).pc + 4 }

/-- The state after the acting role goes on at an address. -/
def State.goneTo (s : State) (pc : Dword) : State := s.withMe { me s.sys with pc := pc }

/-- The state after the acting role has met a cause (R91, R128). -/
def State.raises (s : State) (k : Cause) : State := { s with sys := raise s s.sys s.sys.curCore s.sys.curRole k }

/-- No earlier instruction of the acting role has yet to write one of these scalar registers (R12). -/
abbrev State.readable (s : State) (ns : List Nat) : Prop := ∀ n ∈ ns, s.sys.waits n = false

/-- No earlier instruction of the acting role has yet to write a control register (R122). -/
abbrev State.csrSettled (s : State) (c : Nat) : Prop := s.sys.waitsCsr c = false

/-- The domain of the acting role's core. -/
def State.myDom (s : State) : Domain := domOfCore s.sys s.sys.curCore

/-- TTC of the acting role's domain. -/
def State.ttc (s : State) : Nat := s.myDom.ttc s.gtc

/-- The acting role's core. -/
def State.myCore (s : State) : Core := coreOf s.sys s.sys.curCore

/-- The acting role is one of L, C and S. -/
abbrev State.hasRole (s : State) : Prop := s.sys.curRole < 3

/-! ## Homes -/

/-- The state in which the home that serves the present message has made y of the machine and answers with these words. -/
def State.answering (s : State) (y : Sys) (first status who value : Nat) : State :=
  { s with sys := reply y s.gtc s.sys.msg first status who value }

/-- The present message, as one to the Tulle of its core's own chip. -/
def State.toTulle (s : State) : HomeMsg := { s.sys.msg with obj := chipOf s.sys.msg.core % 524288 * 131072 + 65536 }

/-! ## The back end -/

/-- The domain of a core runs, and the present cycle has been checked for faults (R82): what is due in it takes effect. -/
def State.clearCycle (s : State) (core : Nat) : Prop :=
  ∃ d, domAt s.sys (coreOf s.sys core).dom = some d ∧ d.st = .run ∧ d.checked = some (d.ttc s.gtc)

/-- The scratchpad reads that rows of a core have still to make. -/
def Sys.pendsOf (y : Sys) (core : Nat) : List Pend := (coreOf y core).pends

/-- The landings in flight on a core. -/
def Sys.landingsOf (y : Sys) (core : Nat) : List Landing := (coreOf y core).landings

/-- Every register but one reads as before, in storage: the vector registers of a core. -/
def Core.sameVecBut (c k : Core) (r : Nat) : Prop := ∀ v i, v ≠ r → k.vec v i = c.vec v i

end Sys2Proof.Machine
end

