-- ==== Sys2Proof/Certificates/Slice0/Obligations.lean ====
section
/-! DEFINITION. The statements for the provers. -/

open Sys2Proof Sys2Proof.Machine

/-! ## Scalar arithmetic -/

/-- R112: the operations of OP 0x02, their FN codes, and what each writes to s[sd] once its sources are there; the
role goes on at the next word and nothing else changes. -/
def Obligations.RegisterOperations : Prop :=
  ∀ (s : State) (d a b : Nat), s.readable [a, b] →
    let x := (me s.sys).s a
    let y := (me s.sys).s b
    exec (.add d a b) s = .next (s.wrote d (x + y)) ∧
    exec (.sub d a b) s = .next (s.wrote d (x - y)) ∧
    exec (.and d a b) s = .next (s.wrote d (x &&& y)) ∧
    exec (.or d a b) s = .next (s.wrote d (x ||| y)) ∧
    exec (.xor d a b) s = .next (s.wrote d (x ^^^ y)) ∧
    exec (.sll d a b) s = .next (s.wrote d (x <<< (y &&& 63))) ∧
    exec (.srl d a b) s = .next (s.wrote d (x >>> (y &&& 63))) ∧
    exec (.sra d a b) s = .next (s.wrote d (x.sshiftRight' (y &&& 63))) ∧
    exec (.mul d a b) s = .next (s.wrote d (x * y)) ∧
    exec (.mulh d a b) s = .next (s.wrote d ((x.signExtend 128 * y.signExtend 128).extractLsb' 64 64)) ∧
    exec (.div d a b) s = .next (s.wrote d
      (if y = 0 then 0xFFFFFFFFFFFFFFFF else BitVec.ofInt 64 (x.toInt.tdiv y.toInt))) ∧
    exec (.rem d a b) s = .next (s.wrote d (if y = 0 then x else BitVec.ofInt 64 (x.toInt.tmod y.toInt))) ∧
    exec (.slt d a b) s = .next (s.wrote d (if x.toInt < y.toInt then 1 else 0)) ∧
    exec (.sltu d a b) s = .next (s.wrote d (if x.toNat < y.toNat then 1 else 0)) ∧
    exec (.min d a b) s = .next (s.wrote d (if x.toInt ≤ y.toInt then x else y)) ∧
    exec (.max d a b) s = .next (s.wrote d (if x.toInt ≤ y.toInt then y else x)) ∧
    exec (.clz d a) s = .next (s.wrote d (if x = 0 then 64 else BitVec.ofNat 64 (63 - Nat.log2 x.toNat))) ∧
    exec (.popc d a) s = .next (s.wrote d (BitVec.ofNat 64 ((List.range 64).countP fun i => x.getLsbD i))) ∧
    (d < 32 → a < 32 → b < 32 →
      (∀ p ∈ [(0x000, Instr.add d a b), (0x001, .sub d a b), (0x002, .and d a b), (0x003, .or d a b), (0x004, .xor d a b),
          (0x005, .sll d a b), (0x006, .srl d a b), (0x007, .sra d a b), (0x008, .mul d a b), (0x009, .mulh d a b),
          (0x00A, .div d a b), (0x00B, .rem d a b), (0x00C, .slt d a b), (0x00D, .sltu d a b), (0x00E, .min d a b),
          (0x00F, .max d a b)],
        decodeNat (0x04000000 + 0x100000 * d + 0x8000 * a + 0x400 * b + p.1) = .ok p.2) ∧
      ∀ p ∈ [(0x010, Instr.clz d a), (0x011, .popc d a)],
        decodeNat (0x04000000 + 0x100000 * d + 0x8000 * a + p.1) = .ok p.2)

/-- R113: the immediate operations, their opcodes, and what each writes to s[sd]; p is the address of the word itself.
-/
def Obligations.ImmediateOperations : Prop :=
  ∀ (s : State) (d a i : Nat), i < 32768 → s.readable [a] →
    let x := (me s.sys).s a
    let p := (me s.sys).pc
    let imm := (BitVec.ofNat 15 i).signExtend 64
    let raw := (BitVec.ofNat 15 i).setWidth 64
    exec (.addi d a i) s = .next (s.wrote d (x + imm)) ∧
    exec (.andi d a i) s = .next (s.wrote d (x &&& raw)) ∧
    exec (.ori d a i) s = .next (s.wrote d (x ||| raw)) ∧
    exec (.xori d a i) s = .next (s.wrote d (x ^^^ raw)) ∧
    exec (.slli d a i) s = .next (s.wrote d (x <<< (i % 64))) ∧
    exec (.srli d a i) s = .next (s.wrote d (x >>> (i % 64))) ∧
    exec (.srai d a i) s = .next (s.wrote d (x.sshiftRight (i % 64))) ∧
    exec (.slti d a i) s = .next (s.wrote d (if x.toInt < imm.toInt then 1 else 0)) ∧
    exec (.lui d i) s = .next (s.wrote d (imm * 32768)) ∧
    exec (.pcrel d i) s = .next (s.wrote d (p + 4 * imm)) ∧
    (d < 32 → a < 32 →
      (∀ q ∈ [(0x03, Instr.addi d a i), (0x04, .andi d a i), (0x05, .ori d a i), (0x06, .xori d a i), (0x0A, .slti d a i)],
        decodeNat (0x2000000 * q.1 + 0x100000 * d + 0x8000 * a + i) = .ok q.2) ∧
      (∀ q ∈ [(0x07, Instr.slli d a (i % 64)), (0x08, .srli d a (i % 64)), (0x09, .srai d a (i % 64))],
        decodeNat (0x2000000 * q.1 + 0x100000 * d + 0x8000 * a + i % 64) = .ok q.2) ∧
      ∀ q ∈ [(0x0B, Instr.lui d i), (0x0C, .pcrel d i)],
        decodeNat (0x2000000 * q.1 + 0x100000 * d + i) = .ok q.2)

/-- R111, R11: a scalar register but s0 takes the written value, s0 reads as zero whatever is written to it, and every
other register of the role, every other role and every other core stay as they were. R12: an instruction of the front
end that reads a scalar register which an earlier back-end entry has yet to write waits: nothing changes. Every
instruction with scalar sources but ttsync, which waits alike, is named. -/
def Obligations.ScalarFrameAndWaits : Prop :=
  (∀ (s : State) (d : Nat) (v : Dword), s.hasRole → d < 32 →
    let t := s.wrote d v
    (∀ n, (me t.sys).s n = if n = 0 then 0 else if n = d then v else (me s.sys).s n) ∧
    (me t.sys).pc = (me s.sys).pc + 4 ∧
    { me t.sys with sregs := (me s.sys).sregs, pc := (me s.sys).pc } = me s.sys ∧
    (∀ c r, r < 3 → (c ≠ s.sys.curCore ∨ r ≠ s.sys.curRole) → roleOf t.sys c r = roleOf s.sys c r) ∧
    (∀ c, c ≠ s.sys.curCore → coreOf t.sys c = coreOf s.sys c) ∧
    { t.myCore with roles := s.myCore.roles } = s.myCore ∧
    t.mem = s.mem ∧ t.gtc = s.gtc ∧ { t.sys with cores := s.sys.cores } = s.sys) ∧
  (∀ (s : State) (a : Nat), s.sys.waits a = true → (me s.sys).sacc = none →
    (∀ d b i o c,
      ∀ x ∈ [Instr.add d a b, .add d b a, .sub d a b, .sub d b a, .and d a b, .and d b a, .or d a b, .or d b a,
          .xor d a b, .xor d b a, .sll d a b, .sll d b a, .srl d a b, .srl d b a, .sra d a b, .sra d b a,
          .mul d a b, .mul d b a, .mulh d a b, .mulh d b a, .div d a b, .div d b a, .rem d a b, .rem d b a,
          .slt d a b, .slt d b a, .sltu d a b, .sltu d b a, .min d a b, .min d b a, .max d a b, .max d b a,
          .clz d a, .popc d a, .addi d a i, .andi d a i, .ori d a i, .xori d a i, .slli d a i, .srli d a i, .srai d a i,
          .slti d a i, .slb d a o, .slh d a o, .slw d a o, .sld d a o, .ssb d a o, .ssh d a o, .ssw d a o, .ssd d a o,
          .ssb a b o, .ssh a b o, .ssw a b o, .ssd a b o, .beq a o, .bne a o, .blt a o, .bge a o, .bltu a o, .bgeu a o,
          .jalr d a i, .csrw d a c, .csrs d a c, .csrc d a c, .trap a, .svc a, .ttsync a i],
        exec x s = .next s))

/-! ## Branches and jumps -/

/-- R117: the six branches, their codes, and the illegal encoding with reason 6 of bltu and bgeu with an odd sa. R118:
jal and jalr; a jalr target that is not a multiple of 4 raises ALIGN at the word with no register written. -/
def Obligations.BranchesAndJumps : Prop :=
  ((∀ (s : State) (a o : Nat), o < 131072 → s.readable [a] →
    let x := (me s.sys).s a
    let p := (me s.sys).pc
    let target := p + 4 * (BitVec.ofNat 17 o).signExtend 64
    exec (.beq a o) s = .next (s.goneTo (if x = 0 then target else p + 4)) ∧
    exec (.bne a o) s = .next (s.goneTo (if x ≠ 0 then target else p + 4)) ∧
    exec (.blt a o) s = .next (s.goneTo (if x.toInt < 0 then target else p + 4)) ∧
    exec (.bge a o) s = .next (s.goneTo (if 0 ≤ x.toInt then target else p + 4)) ∧
    (s.readable [a + 1] →
      let y := (me s.sys).s (a + 1)
      exec (.bltu a o) s = .next (s.goneTo (if x.toNat < y.toNat then target else p + 4)) ∧
      exec (.bgeu a o) s = .next (s.goneTo (if y.toNat ≤ x.toNat then target else p + 4)))) ∧
  (∀ (a o : Nat), a < 32 → o < 131072 →
    (∀ q ∈ [(0, Instr.beq a o), (1, .bne a o), (2, .blt a o), (3, .bge a o)],
      decodeNat (0x20000000 + 0x100000 * a + 0x20000 * q.1 + o) = .ok q.2) ∧
    ∀ q ∈ [(4, Instr.bltu a o), (5, .bgeu a o)],
      decodeNat (0x20000000 + 0x100000 * a + 0x20000 * q.1 + o) = if a % 2 = 0 then .ok q.2 else .error 6)) ∧
  (∀ (s : State) (d a i o : Nat), i < 32768 → o < 131072 → s.readable [a] →
    let r := me s.sys
    let target := r.s a + 4 * (BitVec.ofNat 15 i).signExtend 64
    exec (.jal o) s = .next (s.withMe { r.setS 31 (r.pc + 4) with pc := r.pc + 4 * (BitVec.ofNat 17 o).signExtend 64 }) ∧
    (target.toNat % 4 = 0 → exec (.jalr d a i) s = .next (s.withMe { r.setS d (r.pc + 4) with pc := target })) ∧
    (target.toNat % 4 ≠ 0 → exec (.jalr d a i) s = .next (s.raises (frontCause 9 0 r.pc))))

/-! ## Scalar access to the scratchpad -/

/-- R114: the address and the checks of the scalar loads and stores, in order; an access that passes waits for its
bank-cycle, no earlier than c + 1 + e / 2 (R115). A load whose data has yet to be produced waits, a store also for its
data (R12). R115, R114: a waiting scalar access is served in a bank-cycle that its banks have free: a load writes the
sign-extended bytes, lowest first, a store the data's bytes; then the role goes on at the next word, after an access to another core's scratchpad no
later than after one of its own (log entry 77). A load changes no
storage, a store no other byte and no flag, tag or mark. R378: a load that traps POISON marks the struck lines it reads. -/
def Obligations.ScalarAccesses : Prop :=
  (∀ (s : State) (d a off : Nat), off < 8192 → (me s.sys).sacc = none →
    let r := me s.sys
    let addr := (r.s a + (BitVec.ofNat 13 off).signExtend 64).toNat
    ∀ p ∈ [(Instr.slb d a off, true, 0), (.slh d a off, true, 1), (.slw d a off, true, 2), (.sld d a off, true, 3),
        (.ssb d a off, false, 0), (.ssh d a off, false, 1), (.ssw d a off, false, 2), (.ssd d a off, false, 3)],
      let n := 2 ^ p.2.2
      s.readable (if p.2.1 then [a] else [d, a]) →
      (2 ^ 32 ≤ addr ∨ spAddr s.sys s.sys.curCore addr = none → exec p.1 s = .next (s.raises (frontCause 10 0 r.pc))) ∧
      ∀ t o, addr < 2 ^ 32 → spAddr s.sys s.sys.curCore addr = some (t, o) →
        (o % n ≠ 0 → exec p.1 s = .next (s.raises (frontCause 9 0 r.pc))) ∧
        (o % n = 0 → p.2.1 = true → (∃ j < n, (coreOf s.sys t).poisoned (o + j) = true) →
          exec p.1 s = .next { s with
            sys := raise s (markStruck s.sys s.gtc t o n) s.sys.curCore s.sys.curRole (frontCause 11 0 r.pc) }) ∧
        (o % n = 0 → (p.2.1 = true → ∀ j < n, (coreOf s.sys t).poisoned (o + j) = false) →
          exec p.1 s = .next (s.withMe { r with sacc := some {
            isLoad := p.2.1, wd := p.2.2, core := t, off := o, rd := d, data := (r.s d).toNat % 256 ^ n
            after := s.ttc + 1 + crossDelay s.sys.curCore t / 2 } }))) ∧
  (∀ (s : State) (core role : Nat) (x : ScalarAccess), role < 3 → x.rd < 32 → (roleOf s.sys core role).sacc = some x →
    s.clearCycle core →
    let d := domOfCore s.sys core
    let r := roleOf s.sys core role
    let n := 2 ^ x.wd
    x.after ≤ d.ttc s.gtc → takenBanks backOf s d (d.ttc s.gtc) x.core &&& banksOf x.off n = 0 →
    ∃ t, exec (.scalarAccessService core role) s = .next t ∧
      (roleOf t.sys core role).sacc = none ∧ (roleOf t.sys core role).pc = r.pc + 4 ∧
      (x.isLoad = true →
        (∀ k, (roleOf t.sys core role).s k = if k ≠ 0 ∧ k = x.rd then
          (BitVec.ofNat (8 * n) (ofBytes ((List.range n).map fun j => (coreOf s.sys x.core).sbyte (x.off + j)))).signExtend 64
          else r.s k) ∧
        ∀ c, (coreOf t.sys c).pool = (coreOf s.sys c).pool) ∧
      (x.isLoad = false →
        (∀ k, (roleOf t.sys core role).s k = r.s k) ∧
        (∀ b, (coreOf t.sys x.core).sbyte b =
          if x.off ≤ b ∧ b < x.off + n then BitVec.ofNat 8 (x.data / 256 ^ (b - x.off)) else (coreOf s.sys x.core).sbyte b) ∧
        (∀ c, c ≠ x.core → (coreOf t.sys c).pool = (coreOf s.sys c).pool)) ∧
      (∀ c, (coreOf t.sys c).flags0 = (coreOf s.sys c).flags0 ∧ (coreOf t.sys c).tags = (coreOf s.sys c).tags ∧
        (coreOf t.sys c).poison = (coreOf s.sys c).poison ∧ (coreOf t.sys c).masks = (coreOf s.sys c).masks) ∧
      t.mem = s.mem ∧ t.gtc = s.gtc)

/-! ## Control registers -/

/-- R120: csrr, csrw, csrs and csrc give s[sd] the value that the register had, and write s[sa], x | s[sa] or x &
~s[sa] under the register's Access codes; s[sa] is read before s[sd] is written. All four complete so once no entry of the
role's queue has still to land in the register; until then they wait (R122). R123: what the control registers read
as; TTC, TTBASE and GTC as they stand when the instruction executes. R6, R123 to R125: what a write leaves in the
control registers: VL at most VLMAX, VTYPE's SLICES at least 3, the fields that are reserved zero, STREAMEND cleared
where a 1 is written, DET alone of CFG; TRAPPC in handler mode alone; and the read-only registers as they were. -/
def Obligations.ControlRegisters : Prop :=
  (∀ (s : State) (d a c : Nat), s.hasRole → s.csrSettled c →
    let x := readCsr s s.sys.curCore s.sys.curRole c
    let put := fun v => { s with sys := setCore s.sys (writeCsr s.myCore s.sys.curRole c v) }
    exec (.csrr d c) s = .next (s.wrote d x) ∧
    (s.readable [a] →
      exec (.csrw d a c) s = .next ((put ((me s.sys).s a)).wrote d x) ∧
      exec (.csrs d a c) s = .next ((put (x ||| (me s.sys).s a)).wrote d x) ∧
      exec (.csrc d a c) s = .next ((put (x &&& ~~~((me s.sys).s a))).wrote d x))) ∧
  (∀ (s : State) (d a c : Nat), s.sys.waitsCsr c = true →
    ∀ i ∈ [Instr.csrr d c, .csrw d a c, .csrs d a c, .csrc d a c], exec i s = .next s) ∧
  (∀ (s : State), s.hasRole →
    let r := me s.sys
    let c := s.myCore
    ∀ p ∈ [(0x000, BitVec.ofNat 64 r.csrs.vl), (0x002, BitVec.ofNat 64 r.vcp), (0x003, BitVec.ofNat 64 r.csrs.vtype),
        (0x004, r.csrs.seed), (0x005, r.csrs.strip), (0x006, r.csrs.binbase), (0x007, r.csrs.flagcause),
        (0x008, r.csrs.wgen), (0x009, r.csrs.xdue), (0x010, r.csrs.shadow.xsrc), (0x011, r.csrs.shadow.xdst),
        (0x012, r.csrs.shadow.xstride0), (0x013, r.csrs.shadow.xstride1), (0x014, r.csrs.shadow.xcount0),
        (0x015, r.csrs.shadow.xcount1), (0x016, r.csrs.shadow.xchan), (0x017, r.csrs.shadow.xopt),
        (0x020, BitVec.ofNat 64 r.trapcause), (0x021, r.trappc), (0x022, r.trapelem), (0x040, c.part), (0x041, c.cfg),
        (0x042, c.dirty), (0x043, c.dirtya), (0x044, c.vdid), (0x045, c.lease), (0x046, c.streamend), (0x047, c.tsm),
        (0x048, c.tsn), (0x049, c.tsk), (0x060, BitVec.ofNat 64 (if s.myDom.st = .run then s.gtc - s.myDom.ttbase else s.myDom.f)),
        (0x061, BitVec.ofNat 64 s.myDom.ttbase), (0x062, BitVec.ofNat 64 s.gtc)],
      readCsr s s.sys.curCore s.sys.curRole p.1 = p.2) ∧
  (∀ (s : State) (v : Dword), s.hasRole →
    let core := s.sys.curCore
    let role := s.sys.curRole
    let after := fun n => { s with sys := setCore s.sys (writeCsr s.myCore role n v) }
    let reads := fun (t : State) n => readCsr t core role n
    (∀ n ∈ [0x004, 0x005, 0x010, 0x011, 0x012, 0x013, 0x014, 0x015, 0x042], reads (after n) n = v) ∧
    reads (after 0x000) 0x000 = BitVec.ofNat 64 (min v.toNat s.myCore.vlmax) ∧
    reads (after 0x003) 0x003 = BitVec.ofNat 64 (if v.toNat % 8 < 3 then 3 else v.toNat % 8) ∧
    reads (after 0x006) 0x006 = v &&& 0xFFFF ∧
    reads (after 0x016) 0x016 = v &&& 7 ∧
    reads (after 0x043) 0x043 = v &&& 0xFF ∧
    reads (after 0x046) 0x046 = s.myCore.streamend &&& ~~~v ∧
    reads (after 0x041) 0x041 = (s.myCore.cfg &&& ~~~1#64) ||| (v &&& 1) ∧
    reads (after 0x021) 0x021 = (if (me s.sys).handler then v else (me s.sys).trappc) ∧
    (∀ n ∈ [0x002, 0x008, 0x009, 0x020, 0x022, 0x040, 0x044, 0x045, 0x047, 0x048, 0x049, 0x060, 0x061, 0x062],
      ∀ k, reads (after n) k = reads s k))

/-! ## MODE and stamps -/

/-- R37, R66, R69, R91: MODE sets the group mode, and a DELTA of 1 or more the pending delta, which handler mode
ignores; ttmark writes NS and leaves P and D alone. NS is P + D, or P + 1 without a delta. -/
def Obligations.ModeAndMark : Prop :=
  ∀ (s : State) (g p e rm t d : Nat),
    let r := me s.sys
    exec (.mode g p e rm t) s = .next (s.withMe { r with
      mode := { guard := g, gpol := p == 1, ety := etyOf e, rm := rmOf rm }
      d := if 1 ≤ t ∧ r.handler = false then t else r.d, pc := r.pc + 4 }) ∧
    r.ns = (if 1 ≤ r.d then r.p + r.d else r.p + 1) ∧
    exec (.ttmark d) s = .next (s.wrote d (BitVec.ofInt 64 r.ns))

/-- R68: ttsync makes T = s[sa] + zext(imm15) the next stamp; a target at or before P or before c + 2 is the
passed-sync fault, with P and D unchanged; in handler mode it has no effect. -/
def Obligations.TimetableSync : Prop :=
  ∀ (s : State) (a i : Nat), i < 32768 → s.readable [a] →
    let r := me s.sys
    let target := (r.s a + (BitVec.ofNat 15 i).setWidth 64).toNat
    (r.handler = true → exec (.ttsync a i) s = .next (s.goneTo (r.pc + 4))) ∧
    (r.handler = false → ((target : Int) ≤ r.p ∨ target < s.ttc + 2) →
      exec (.ttsync a i) s = .next (s.raises (domainCause 3 r.pc 255))) ∧
    (r.handler = false → r.p < (target : Int) → s.ttc + 2 ≤ target →
      let r' := { r with p := (target : Int) - 1, d := 0, pWord := r.pc, pc := r.pc + 4 }
      exec (.ttsync a i) s = .next (s.withMe r') ∧ r'.ns = target ∧
      ∀ d, 1 ≤ d → RoleSt.ns { r' with d := d } = (target : Int) - 1 + d)

/-! ## Traps and handler mode -/

/-- R126, R132, R91: trap and svc raise their causes with the code s[sa], TRAPPC being the next word's address; in a
handler that has not been entered at this very tick each ends the launch FAULTED. R128, R89, R131: a role outside
handler mode that meets a cause of the front end or the push point sets its program state aside, copies it, writes
TRAPCAUSE, TRAPPC and TRAPELEM, starts at the first word of TEXT, and its running domain freezes at F = c. TRAPELEM is
the whole code for trap and svc; otherwise QPOS 0xFF and the code. -/
def Obligations.TrapsTaken : Prop :=
  (∀ (s : State) (a : Nat), s.readable [a] →
    let r := me s.sys
    exec (.trap a) s = .next (s.raises (frontCause 5 (r.s a).toNat (r.pc + 4))) ∧
    exec (.svc a) s = .next (s.raises (frontCause 6 (r.s a).toNat (r.pc + 4))) ∧
    ∀ x, r.aside = some x → x.tick ≠ s.gtc → s.myDom.st ≠ .ended → ∀ i ∈ [Instr.trap a, .svc a],
      ∃ t, exec i s = .next t ∧ domAt t.sys s.myDom.id = some { s.myDom with st := .ended, endStatus := 3, f := s.ttc }) ∧
  (∀ (s : State) (code elem : Nat) (pc : Dword), s.hasRole → (me s.sys).aside = none → elem < 65536 →
    domAt s.sys s.myCore.dom = some s.myDom → s.myDom.st = .run →
    let r := me s.sys
    let t := s.raises (frontCause code elem pc)
    (me t.sys).handler = true ∧ (me t.sys).trapcause = code ∧ (me t.sys).trappc = pc ∧
    ((me t.sys).trapelem = if code = 5 ∨ code = 6 then BitVec.ofNat 64 elem else BitVec.ofNat 64 (0xFF * 65536 + elem)) ∧
    (me t.sys).pc = r.textBase ∧ (me t.sys).armed = false ∧
    ((me t.sys).sregs, (me t.sys).p, (me t.sys).d, (me t.sys).mode, (me t.sys).csrs) = (r.sregs, r.p, r.d, r.mode, r.csrs) ∧
    (∃ a, (me t.sys).aside = some a ∧ a.pc = pc ∧ (a.sregs, a.p, a.d, a.mode, a.csrs) = (r.sregs, r.p, r.d, r.mode, r.csrs) ∧
      a.armed = r.armed ∧ a.halted = r.halted ∧ a.front = true) ∧
    (me t.sys).queue = r.queue ∧ (me t.sys).nextSeq = r.nextSeq ∧
    t.myDom = { s.myDom with st := .frozen, f := s.ttc, faulted := s.myDom.faulted || code == 4 } ∧
    (∀ c q, q < 3 → (c ≠ s.sys.curCore ∨ q ≠ s.sys.curRole) → roleOf t.sys c q = roleOf s.sys c q) ∧
    t.mem = s.mem ∧ t.gtc = s.gtc)

/-- R129: tret restores what was set aside and clears the cause, the front end going on at TRAPPC after a cause of the
front end or the push point and at the set-aside PC otherwise, with TRAPPC as it was and TRAPELEM 0 (log entry 14); after a domain fault it ends the launch FAULTED;
outside handler mode it raises CONTEXT. It waits for the handler's unfinished back-end instruction (R91). R89, R129:
when the last cause of a frozen domain is gone, tret makes it RESUMING, and its resume is on its way; while another
role is in its handler the domain stays frozen. R130, R131, R71: halt outside handler mode stops the front end and
disarms the role, and its completion is counted once its queue is empty; in a PREEMPT handler it reports the core's
save; in any other it ends the launch FAULTED. -/
def Obligations.TrapReturnAndHalt : Prop :=
  (∀ (s : State), s.hasRole →
    let r := me s.sys
    (r.aside = none → exec .tret s = .next (s.raises (frontCause 12 0 r.pc))) ∧
    ∀ a, r.aside = some a →
      (r.hop.isSome = true → exec .tret s = .next s) ∧
      (r.hop = none → r.trapcause = 4 → s.myDom.st ≠ .ended →
        ∃ t, exec .tret s = .next t ∧ domAt t.sys s.myDom.id = some { s.myDom with st := .ended, endStatus := 3, f := s.ttc }) ∧
      (r.hop = none → r.trapcause ≠ 4 →
        (r.trapcause = 7 ∨ s.sys.curRole ≠ 0 ∨ s.myDom.preempt = []) →
        ∃ t, exec .tret s = .next t ∧ (me t.sys).handler = false ∧ (me t.sys).aside = none ∧
          (me t.sys).pc = (if a.front then r.trappc else a.pc) ∧
          ((me t.sys).sregs, (me t.sys).p, (me t.sys).d, (me t.sys).mode, (me t.sys).csrs) = (a.sregs, a.p, a.d, a.mode, a.csrs) ∧
          (me t.sys).armed = a.armed ∧ (me t.sys).halted = a.halted ∧
          ((me t.sys).trapcause, (me t.sys).trappc, (me t.sys).trapelem) = (0, r.trappc, 0))) ∧
  (∀ (s : State) (a : Aside), s.hasRole → s.sys.curCore ∈ s.myDom.cores → (me s.sys).aside = some a → (me s.sys).hop = none →
    (me s.sys).trapcause ≠ 4 → (me s.sys).trapcause ≠ 7 →
    domAt s.sys s.myCore.dom = some s.myDom → s.myDom.st = .frozen → s.myDom.preempt = [] →
    s.myDom.thermal = false → s.myDom.stopHold = false → s.myDom.cancel = false →
    ∃ t, exec .tret s = .next t ∧
      ((∀ c ∈ s.myDom.cores, ∀ q < 3, (c ≠ s.sys.curCore ∨ q ≠ s.sys.curRole) → (roleOf s.sys c q).handler = false) →
        t.myDom = { s.myDom with st := .resuming } ∧
        ∃ k, t.sys.sched = s.sys.sched ++ [(s.gtc + 1 + k, .domainResume s.myDom.id, noMsg)]) ∧
      ((∃ c ∈ s.myDom.cores, ∃ q < 3, (c ≠ s.sys.curCore ∨ q ≠ s.sys.curRole) ∧ (roleOf s.sys c q).handler = true) →
        t.myDom = s.myDom ∧ t.sys.sched = s.sys.sched)) ∧
  (∀ (s : State), s.hasRole →
    let r := me s.sys
    (r.aside = none → r.handler = false → ∃ t, exec .halt s = .next t ∧ (me t.sys).halted = true ∧ (me t.sys).armed = false ∧
      (me t.sys).pc = r.pc + 4 ∧ (me t.sys).sregs = r.sregs ∧ (me t.sys).queue = r.queue ∧
      (r.counted = false → r.queue = [] → s.myDom.control = false → (me t.sys).counted = true ∧
        t.sys.sched = s.sys.sched ++ [(s.gtc,
          .counterCompletion s.myDom.launch.counter (3 * s.myDom.indexOf s.sys.curCore + s.sys.curRole), noMsg)]) ∧
      ((r.counted = true ∨ r.queue ≠ []) → t.sys.sched = s.sys.sched)) ∧
    (∀ a, r.aside = some a → r.trapcause = 7 → domAt s.sys s.myCore.dom = some s.myDom →
      ∃ t, exec .halt s = .next t ∧ (me t.sys).halted = true ∧ s.myDom.indexOf s.sys.curCore ∈ t.myDom.saved) ∧
    (∀ a, r.aside = some a → r.trapcause ≠ 7 → s.myDom.st ≠ .ended →
      ∃ t, exec .halt s = .next t ∧ domAt t.sys s.myDom.id = some { s.myDom with st := .ended, endStatus := 3, f := s.ttc }))

/-- R57, R13: an illegal encoding of a front-end word raises ILLEGAL with its reason at decode; one of a back-end word
at the push point, once the queue has a free entry, and a legal back-end word is what BACKEND_PUSH executes. -/
def Obligations.IllegalEncodings : Prop :=
  ∀ (s : State) (w k : Nat),
    (decodeNat w = .error k →
      exec (.decodeIllegalEncoding w) s = .next (s.raises (frontCause 1 k (me s.sys).pc)) ∧
      (((me s.sys).handler = true ∨ (me s.sys).queue.length < 64) →
        exec (.backendPush w) s = .next (s.raises (frontCause 1 k (me s.sys).pc))) ∧
      ((me s.sys).handler = false → 64 ≤ (me s.sys).queue.length → exec (.backendPush w) s = .next s)) ∧
    (∀ i, decodeNat w = .ok i → ((backOf i).isSome = true ∨ ∃ a, i = .vsave a ∨ i = .vrestore a ∨ i = .replay a) →
      exec (.backendPush w) s = exec i s)

/-! ## A step -/

/-- R11, R33, R57, R119: when it is the turn of a role that may execute, the step runs the instruction that its word
decodes to, as that role; a word that decodes to none is an illegal encoding; a PC outside TEXT raises FETCH; a
register that an uncorrectable error has struck is not read (R378). R109: the word is the one that the launch loaded, or the one
that memory now holds there. -/
def Obligations.StepRunsDecoded : Prop :=
  ∀ (s : State) (core role : Nat) (rest : List Turn), s.sys.agenda = .front core role :: rest →
    let t : State := { s with sys := { s.sys with agenda := rest, curCore := core, curRole := role } }
    let r := roleOf s.sys core role
    mayExecute t core role = true →
    (∀ x, fetchWord r = some x →
      let w := chosenWord t core role x
      (w = x ∨ memoryWord t core role = some w) ∧
      (∀ i, decodeNat w.toNat = .ok i → struckSource t.sys core role i = none →
        step s = exec i (countScalars t core role i) ∧ ((coreOf t.sys core).soft = [] → countScalars t core role i = t)) ∧
      (∀ i n, decodeNat w.toNat = .ok i → struckSource t.sys core role i = some n →
        step s = .next { t with sys := frontStorage t core role n }) ∧
      (∀ k, decodeNat w.toNat = .error k →
        step s = exec (if isFrontOp w.toNat then .decodeIllegalEncoding w.toNat else .backendPush w.toNat) t)) ∧
    (fetchWord r = none → step s = .next (t.raises (frontCause 8 0 r.pc)))

/-- The step serves the agenda of a tick: a listed event is run with its message, and with nothing left GTC ticks (log
entry 1: the order within a tick is the model's choice). Only a module without power and with nothing due stops
(R390). -/
def Obligations.StepServesAgenda : Prop :=
  ∀ (s : State),
    (s.sys.agenda = [] → powerless s = false → step s = exec .gtcTick s) ∧
    (∀ i m rest, s.sys.agenda = .ev i m :: rest →
      step s = exec i { s with sys := { s.sys with agenda := rest, msg := m } }) ∧
    (∀ f, step s = .fault f ↔ f = .noPower ∧ powerless s = true) ∧
    (∀ r, step s ≠ .refused r)

/-! ## The back end: push, handler mode, issue, sample, landing -/

/-- R13, R66, R67, R70, R121: a back-end word that passes the checks of the push point is pushed with its stamp NS,
its sequence number, the values of the scalar registers it names, and the group mode and control registers as they
stand; P becomes the stamp, D 0, and the role is armed. BACKEND_PUSH of its word is that push. -/
def Obligations.BackEndPush : Prop :=
  ∀ (s : State) (i : Instr) (b : Back), backOf i = some b → (me s.sys).handler = false →
    let r := me s.sys
    let n := b.names r.mode.ety
    r.queue.length < 64 → pushCause s.myCore s.sys.curRole r n = none → s.sys.waitsCsr 0x000 = false → s.readable n.sregs →
    handleCause s.sys s.sys.curCore r n = none → (s.ttc : Int) + 2 ≤ r.ns →
    ∃ e,
      let pushed := s.withMe { r with
        queue := r.queue ++ [e], nextSeq := r.nextSeq + 1, p := r.ns, d := 0, armed := true, pWord := r.pc, pc := r.pc + 4
        lastSf := i == .sfence 3 }
      exec i s = .next pushed ∧ (∀ w, decodeNat w = .ok i → exec (.backendPush w) s = .next pushed) ∧
      e.instr = i ∧ e.addr = r.pc ∧ (e.stamp : Int) = r.ns ∧ e.seq = r.nextSeq ∧ e.ops = n.sregs.map r.s ∧ e.mode = r.mode ∧
      (e.vl, e.vtype, e.seed, e.strip, e.bin) = (r.csrs.vl, r.csrs.vtype, r.csrs.seed, r.csrs.strip, r.csrs.binbase) ∧
      (isXgo i = true → e.shadow = r.csrs.shadow) ∧ (e.issued, e.prog, e.start) = (none, 0, 0) ∧ e.afterSf = r.lastSf

/-- R13, R41, R61, R12, R122, R67: the push point in order: it waits for a free entry, checks the encoding, then the
ownership of the registers, waits for VL and the scalar sources, checks the handle, and takes a push later than stamp
− 2 as the late-push fault. -/
def Obligations.PushPoint : Prop :=
  ∀ (s : State) (i : Instr) (b : Back), backOf i = some b → (me s.sys).handler = false →
    let r := me s.sys
    let n := b.names r.mode.ety
    (64 ≤ r.queue.length → exec i s = .next s) ∧
    (r.queue.length < 64 →
      (∀ k, n.reason s.myCore.det = some k → exec i s = .next (s.raises (frontCause 1 k r.pc))) ∧
      (∀ v, n.reason s.myCore.det = none → n.notOwned s.myCore.partN s.sys.curRole = some v →
        exec i s = .next (s.raises (frontCause 2 v r.pc))) ∧
      (pushCause s.myCore s.sys.curRole r n = none →
        ((s.sys.waitsCsr 0x000 = true ∨ ∃ a ∈ n.sregs, s.sys.waits a = true) → exec i s = .next s) ∧
        (s.sys.waitsCsr 0x000 = false → s.readable n.sregs →
          (∀ h, n.handle = some h → (handleForm (chipOf s.sys.curCore) (r.s h).toNat = false ∨
              allocated s.sys (vdKeyOf s.sys s.sys.curCore) (r.s h).toNat = false) →
            exec i s = .next (s.raises (frontCause 3 0 r.pc))) ∧
          (handleCause s.sys s.sys.curCore r n = none → r.ns < (s.ttc : Int) + 2 →
            exec i s = .next (s.raises (domainCause 2 r.pc 255))))))

/-- R16, R17: which vector registers a role may name. Below CBASE they are L's, below SBASE C's, below RBASE S's; a
ring register is written by the writer role of its code and read by its reader role; no role may name one at or past
NV. A word passes the check only if the role may read its sources and write its destinations, each pair of a 64-bit
type lies in one range, in the ring with one code, and its tiles are below NACC. -/
def Obligations.RegisterOwnership : Prop :=
  ∀ (part role v : Nat), partOk part = true → role < 3 →
    (nv part ≤ v → mayRead part role v = false ∧ mayWrite part role v = false) ∧
    (v < rbase part →
      (mayRead part role v = true ↔ role = (if v < cbase part then 0 else if v < sbase part then 1 else 2)) ∧
      (mayWrite part role v = true ↔ role = (if v < cbase part then 0 else if v < sbase part then 1 else 2))) ∧
    (rbase part ≤ v → v < nv part →
      ∀ p ∈ [(0, 0, 1), (1, 0, 2), (2, 1, 0), (3, 1, 2), (4, 2, 0), (5, 2, 1), (6, 3, 1), (7, 3, 0)], rdir part v = p.1 →
        (mayWrite part role v = true ↔ role = p.2.1) ∧ (mayRead part role v = true ↔ role = p.2.2)) ∧
    (∀ n : Names, n.notOwned part role = none ↔
      (∀ p ∈ n.regs, if p.2 then mayWrite part role p.1 = true else mayRead part role p.1 = true) ∧
      (∀ r ∈ n.pairs, ((rbase part ≤ r ∧ r < nv part) ↔ (rbase part ≤ r + 1 ∧ r + 1 < nv part)) ∧
        (rbase part ≤ r ∧ r < nv part → rdir part r = rdir part (r + 1))) ∧
      ∀ t ∈ n.tiles, t < nacc part) ∧
    (∀ d a b, ∀ i ∈ [Instr.vadd d a b, .vfadd d a b, .vsel d a b], ∀ t ∈ [ETy.i64, .f64], ∃ o, backOf i = some o ∧
      (o.names t).pairs = [d, a, b] ∧
      (o.names t).regs = [(d, true), (d + 1, true), (a, false), (a + 1, false), (b, false), (b + 1, false)])

/-- R133, R91: vsave, vrestore and replay raise CONTEXT outside handler mode. In it an illegal word or a bad register
raises its cause (which ends the launch FAULTED), and while an earlier back-end word is unfinished a back-end word
waits. R91, R128: a back-end word in handler mode that passes its checks, its deadline reached, executes: it takes its
effect of issue, then its rows, each with its landings at once, goes on at the next word, and is complete no sooner
than its last landing at issue is due, which holds back the role's next back-end word. A check or a row that stops it, or a
storage error that it reads (R378), ends the launch FAULTED. R91, log entry 4: at its completion tick a handler-mode back-end word lands the results that
wait for it, and the next may issue; before that tick nothing happens. -/
def Obligations.HandlerModeWords : Prop :=
  ((∀ (s : State) (a : Nat), (me s.sys).handler = false → (me s.sys).queue.length < 64 →
    ∀ i ∈ [Instr.vsave a, .vrestore a, .replay a], exec i s = .next (s.raises (frontCause 12 0 (me s.sys).pc))) ∧
  (∀ (s : State) (i : Instr), (me s.sys).handler = true → (me s.sys).hop.isSome = true →
    ((backOf i).isSome = true ∨ ∃ a, i = .vsave a ∨ i = .vrestore a ∨ i = .replay a) → exec i s = .next s)) ∧
  (∀ (s : State) (i : Instr) (b : Back), s.hasRole →
    (backOf i = some b ∨ ∃ a, (i = .vsave a ∧ b = backVsave a) ∨ (i = .vrestore a ∧ b = backVrestore a) ∨
      (i = .replay a ∧ b = backReplay a)) →
    (me s.sys).handler = true → (me s.sys).hop = none →
    let r := me s.sys
    let n := b.names r.mode.ety
    let core := s.sys.curCore
    let role := s.sys.curRole
    let e := handlerEntry s r core i n.sregs
    let op := b.op ⟨s, core, role⟩ e
    let y := op.noted s.sys
    let ls := (op.issue ()).1
    let run := handlerRows b s core role op.rows
      ⟨makeNow (op.fire y) core ls, lastDue s.ttc ls, { e with acc := (op.issue ()).2 }, ls.filter Landing.waited, none⟩
    let early := op.check () ≠ none ∨ ∃ j < op.busy, op.late j ≠ none
    let met := fun (ps : List (Nat × Nat)) => struckUses ps ⟨s, core, role⟩ e op (run.due - s.ttc + 1)
    let struck := met s.myCore.bad
    pushCause s.myCore s.sys.curRole r n = none → handleCause s.sys core r n = none → op.deadline ≤ s.gtc → op.ready () = true →
    (¬ early → run.stop = none → struck = [] → met s.myCore.soft = [] →
      exec i s = .next { s with sys := setRole run.y core role { roleOf run.y core role with
        pc := (roleOf run.y core role).pc + 4, lastSf := i == .sfence 3
        hop := some ⟨s.gtc + (run.due - s.ttc), run.later, match i with | .collwait _ _ _ => true | _ => false⟩ } } ∧
      ∀ l ∈ ls, l.due ≤ run.due) ∧
    (¬ early → run.stop ≠ none → exec i s = .next { s with
      sys := endDomain s run.y (domOfCore run.y core) 3 }) ∧
    (¬ early → run.stop = none → struck ≠ [] → exec i s = .next { s with
      sys := endDomain s (noteStorage s.sys s.gtc core struck) s.myDom 3 }) ∧
    (early → exec i s = .next { s with sys := endDomain s y (domOfCore y core) 3 }) ∧
    ((∀ a, i ≠ .vrestore a ∧ i ≠ .replay a) → y = s.sys)) ∧
  (∀ (s : State) (core role : Nat) (h : HandlerOp), role < 3 → (roleOf s.sys core role).hop = some h →
    (s.gtc < h.ready → exec (.handlerBackendComplete core role) s = .next s) ∧
    (h.ready ≤ s.gtc → h.fence = true → fencesOk s.sys core s.gtc h.lands = true →
      exec (.handlerBackendComplete core role) s = .next { s with
        sys := setRole s.sys core role { roleOf s.sys core role with hop := some { h with ready := s.gtc + 1 } } }) ∧
    (h.ready ≤ s.gtc → h.fence = false ∨ fencesOk s.sys core s.gtc h.lands = false → exec (.handlerBackendComplete core role) s = .next { s with
      sys := h.lands.foldl (fun y l => makeLanding y core l)
        (setRole s.sys core role { roleOf s.sys core role with hop := none }) }))

/-- R14, R65: in a cycle that no fault has stopped, the role's first entry that has not issued issues if its stamp is
this cycle, with its effect of issue and its landings in flight; an entry with another stamp does not, and nothing
changes. R82, R87, R128: a cycle in which some back end meets a fault takes no effect: whichever of its events comes
first, the domain is frozen at F = c, with no entry issued in it. -/
def Obligations.IssueOrFault : Prop :=
  (∀ (s : State) (core role : Nat) (e : Entry), s.clearCycle core → role < 3 →
    (roleOf s.sys core role).queue.find? (fun x => x.issued.isNone) = some e →
    let c := (domOfCore s.sys core).ttc s.gtc
    let op := opAt backOf s core role e
    let y := op.fire s.sys
    let issued := setRole y core role ((roleOf y core role).setEntry { e with issued := some c, acc := (op.issue ()).2 })
    (e.stamp = c → exec (.entryIssue core role) s = .next { s with
      sys := retire backOf s (addLandings issued core (op.issue ()).1) core role }) ∧
    (e.stamp ≠ c → exec (.entryIssue core role) s = .next s)) ∧
  (∀ (s : State) (core role seq k lid : Nat) (d : Domain), role < 3 → domAt s.sys (coreOf s.sys core).dom = some d →
    d.id = (coreOf s.sys core).dom → d.st = .run → d.checked ≠ some (d.ttc s.gtc) →
    cycleCauses backOf s d (d.ttc s.gtc) ≠ [] → (∀ c ∈ d.cores, (coreOf s.sys c).dom = d.id) →
    (∀ c ∈ d.cores, ∀ q < 3, (roleOf s.sys c q).aside = none) →
    ∀ i ∈ [Instr.entryIssue core role, .rowSample core role seq k 0, .rowSample core role seq k 1, .rowLanding core lid],
      ∃ t d', exec i s = .next t ∧ domAt t.sys d.id = some d' ∧ d'.st = .frozen ∧ d'.f = d.ttc s.gtc ∧
        d'.checked = some (d.ttc s.gtc) ∧ t.mem = s.mem ∧ t.gtc = s.gtc)

/-- R74, R87: in a cycle that no fault has stopped, row k of an issued entry samples: the entry has started k + 1
rows, and the row's landings and scratchpad reads are on their way. A row that is not the entry's next does not
sample. -/
def Obligations.RowSample : Prop :=
  ∀ (s : State) (core role seq k : Nat) (e : Entry) (ls : List Landing) (ps : List Pend), s.clearCycle core → role < 3 →
    (roleOf s.sys core role).queue.find? (fun x => x.seq == seq) = some e → e.issued.isSome = true →
    let op := opAt backOf s core role e
    (e.prog = k → op.sample k = .ok (ls, ps) →
      ∃ t, exec (.rowSample core role seq k 0) s = .next t ∧
        (coreOf t.sys core).pends = s.sys.pendsOf core ++ ps ∧
        (coreOf t.sys core).landings.map (fun l => { l with lid := 0 }) =
          (s.sys.landingsOf core ++ ls.filter fun l => !l.toS0).map (fun l => { l with lid := 0 }) ∧
        (∃ q, (roleOf s.sys core role).queue.map (fun x => if x.seq == seq then
            { e with prog := k + 1, acc := (op.keep k).getD e.acc } else x) = q ++ (roleOf t.sys core role).queue) ∧
        (coreOf t.sys core).pool = (coreOf s.sys core).pool ∧ (coreOf t.sys core).masks = (coreOf s.sys core).masks ∧
        (∀ c, c ≠ core → coreOf t.sys c = coreOf s.sys c) ∧ t.mem = s.mem ∧ t.gtc = s.gtc) ∧
    (e.prog ≠ k → exec (.rowSample core role seq k 0) s = .next s)

/-- R24, R16, R19, R123: in a cycle that no fault has stopped, a landing that is due is made: a row of a vector
register or tile or a vector of an operand slot takes its enabled containers and no other byte of its storage changes,
DIRTY or DIRTYA takes the register's bit, and the tag of a ring register counts up with a last row; a mask takes its
enabled bits; a scalar or control register takes its value. R151, R153: a row in the scratchpad of a core stores its enabled
bytes and no other, sets the flags of their words, and clears the mark of a granule that it writes whole. R167: a row through a
write stream stores each enabled container at its element's address of the chunk, nothing in the register; with the last row the
cursor moves on, and a wrap sets the register's bit of STREAMEND. Other cores, memory and GTC stay. Log entry 91: a landing
that a freeze has already made only ends. -/
def Obligations.LandingWrites : Prop :=
  ∀ (s : State) (core lid : Nat) (l : Landing), s.clearCycle core → l.urole < 3 →
    (s.sys.landingsOf core).find? (fun x => x.lid == lid) = some l →
    l.due ≤ (domOfCore s.sys core).ttc s.gtc →
    let c := coreOf s.sys core
    let word := if l.ticket = 0 then (l.data[0]?).getD 0 else answerWord s.sys l
    ∃ t, exec (.rowLanding core lid) s = .next t ∧ t.mem = s.mem ∧ t.gtc = s.gtc ∧
      let k := coreOf t.sys core
      let byte := fun (n : Nat) => BitVec.ofNat 8 ((l.data[n / 4]?).getD 0 / 256 ^ (n % 4))
      let row := fun (old new : Mem) (base : Nat) => ∀ a, Mem.read new a =
        if base ≤ a ∧ a < base + 256 ∧ l.enable.testBit ((a - base) / 4) then byte (a - base) else Mem.read old a
      k.landings = c.landings.filter (fun x => x.lid != lid) ∧
      (l.done = true → { k with landings := c.landings, roles := c.roles } = c ∧ ∀ q n, (k.role q).s n = (c.role q).s n) ∧
      (l.done = false →
      (l.tgt = .vec → l.strm = false →
        row c.pool k.pool (2048 * l.reg + 256 * l.row) ∧ k.dirty = c.dirty ||| (1#64 <<< l.reg) ∧
        (∀ v, isRing c.partN v = true → v - rbase c.partN < 8 → k.ringTag v =
          if v = l.reg ∧ l.last = true then (c.ringTag v + 1) % 65536 else c.ringTag v)) ∧
      (l.tgt = .tile → row c.pool k.pool (tileBase c.partN l.reg + 256 * l.row) ∧ k.dirtya = c.dirtya ||| (1#64 <<< l.reg)) ∧
      (l.tgt = .slot → row c.omem k.omem (32768 * l.reg + 256 * l.row) ∧ k.pool = c.pool) ∧
      (l.tgt = .mask → l.reg < 16 → l.row * c.lanes + c.lanes ≤ 512 → ∀ m i, i < 512 → m < 16 → k.mbit m i =
        if m = l.reg ∧ m ≠ 0 ∧ l.row * c.lanes ≤ i ∧ i < l.row * c.lanes + c.lanes ∧ l.enable.testBit (i - l.row * c.lanes) then
          word.testBit (i - l.row * c.lanes)
        else c.mbit m i) ∧
      (l.tgt = .scalar → l.reg < 32 → ∀ n, (k.role l.urole).s n = if n = l.reg ∧ n ≠ 0 then
        BitVec.ofNat 64 word else (c.role l.urole).s n) ∧
      (l.tgt = .csr →
        let r := (k.role l.urole).csrs
        let q := (c.role l.urole).csrs
        (r.vl = if l.reg = 0 then word else q.vl) ∧
        ∀ x ∈ [(0x005, r.strip, q.strip), (0x007, r.flagcause, q.flagcause), (0x008, r.wgen, q.wgen), (0x009, r.xdue, q.xdue),
            (0x047, k.tsm, c.tsm), (0x048, k.tsn, c.tsn), (0x049, k.tsk, c.tsk)],
          x.2.1 = if l.reg = x.1 then BitVec.ofNat 64 word else x.2.2) ∧
      (l.tgt = .spad → ∀ x, spTarget s.sys core l.addr = some x →
        let old := coreOf s.sys x
        let new := coreOf t.sys x
        let o := field l.addr 21 0
        let on := fun (a : Nat) => o ≤ a ∧ a < o + 256 ∧ l.enable.testBit (a - o) = true
        (∀ a, (on a → new.sbyte a = byte (a - o)) ∧ (¬ on a → new.sbyte a = old.sbyte a)) ∧
        (∀ w, ((∃ b < 4, on (4 * w + b)) → new.flagCause w = 0) ∧ ((∀ b < 4, ¬ on (4 * w + b)) → new.flagCause w = old.flagCause w)) ∧
        (∀ g, g ∈ new.poison ↔ g ∈ old.poison ∧ ¬ ∀ i < 64, on (64 * g + i)) ∧ new.tags = old.tags) ∧
      (∀ st, l.tgt = .vec → l.strm = true → c.streamAt l.addr = some st →
        let place := fun (w : Nat) => elemAddr s.sys core st.base (l.disp + 4 * ((l.row * c.lanes + w : Nat) : Int))
        let on := fun (w x o : Nat) => w < c.lanes ∧ l.enable.testBit (c.phys w) = true ∧ place w = some (x, o)
        (∀ w x o, on w x o → ∀ b < 4, (coreOf t.sys x).sbyte (o + b) = BitVec.ofNat 8 ((l.data[c.phys w]?).getD 0 / 256 ^ b)) ∧
        (∀ x a, (∀ w o, on w x o → a < o ∨ o + 4 ≤ a) → (coreOf t.sys x).sbyte a = (coreOf s.sys x).sbyte a) ∧
        k.dirty = c.dirty ∧ (l.last = false → k.streams = c.streams ∧ k.streamend = c.streamend) ∧
        ∀ a b q x y z, l.last = true → st.cur = [a, b, q] → st.count = [x, y, z] →
          let wraps := x ≤ a + 1 ∧ y ≤ b + 1 ∧ z ≤ q + 1
          k.streams = c.streams.map (fun r => if r.sid = l.addr then { st with
            cur := if a + 1 < x then [a + 1, b, q] else if b + 1 < y then [0, b + 1, q] else if q + 1 < z then [0, 0, q + 1] else [0, 0, 0]
            ended := st.ended || decide wraps } else r) ∧
          k.streamend = if wraps then c.streamend ||| (1#64 <<< st.reg) else c.streamend) ∧
      (l.tgt ∈ [.vec, .tile, .slot, .mask, .spad, .csr] → ∀ q n, (k.role q).s n = (c.role q).s n) ∧
      (l.strm = false → l.tgt ≠ .spad → ∀ x, x ≠ core → coreOf t.sys x = coreOf s.sys x))

/-! ## What rows compute -/

/-- R219, R220, R224, R77: row k of an integer instruction lands λ + k cycles after its issue in vd (and vd + 1 under
a 64-bit type), for its active elements; sub-element j of the value is the operation's result of sub-elements j of the
sources, which are the bits of va, vb and (vmacc) vd. R243 to R247: row k of vscacc, vscext, vscset, vbinadd, vbinmerge,
vbinfold and vw2pmul lands λ + k (f64 and vbinfold: 8 + 2k) cycles after its issue, for each active element: the partial times both
scales, rounded, added to vd, rounded; the scale pair of a magnitude; the value times the inverse scale; the record of sixteen
registers with a value added, two records merged, a record folded; the dot product with W2P weights. R210: a record to which a
finite value is added, without overflow, has each bin's 40-bit digit of the scaled magnitude added, COUNT counts, and flag 4 tells
of bits lost below the last bin. -/
def Obligations.IntegerLanes : Prop :=
  (∀ (v : Env) (e : Entry) (d a b k : Nat),
    let t := e.mode.ety
    let w := widthOf t
    let p := 2 ^ w
    let num := fun x : Nat => if isSigned t then sx w x else (x : Int)
    let fit := fun x : Int => if isSigned t then max (-(p / 2 : Int)) (min x (p / 2 - 1)) else max 0 (min x (p - 1))
    let A := fun i j => subOf t (v.value e (pairOf (wideOf t) a) i) j
    let B := fun i j => subOf t (v.value e (pairOf (wideOf t) b) i) j
    let D := fun i j => subOf t (v.value e (pairOf (wideOf t) d) i) j
    let rows := fun (x : Instr) (lam : Nat) (srcs : List Nat) (f : Nat → Nat → Int) =>
      v.rowStop e k (srcs.flatMap (pairOf (wideOf t))) (pairOf (wideOf t) d) = none →
      ∃ (o : Back) (val : Nat → Nat), backOf x = some o ∧
        (o.op v e).sample k = .ok ((List.range (pairOf (wideOf t) d).length).map fun j =>
          landRow v e (e.t v + lam + k) (d + j) k (v.active e) (fun i => val i / 2 ^ (32 * j) % 2 ^ 32) (k + 1 == v.c.rows e.vl), []) ∧
        ∀ i j, j < subsOf t → (subOf t (val i) j : Int) = f i j % p
    (isInt t = true →
    rows (.vadd d a b) 3 [a, b] (fun i j => A i j + B i j) ∧
    rows (.vsub d a b) 3 [a, b] (fun i j => A i j - B i j) ∧
    rows (.vmul d a b) 5 [a, b] (fun i j => A i j * B i j) ∧
    rows (.vmulh d a b) 5 [a, b] (fun i j => num (A i j) * num (B i j) / p) ∧
    rows (.vmacc d a b) 5 [d, a, b] (fun i j => D i j + A i j * B i j) ∧
    rows (.vmin d a b) 3 [a, b] (fun i j => min (num (A i j)) (num (B i j))) ∧
    rows (.vmax d a b) 3 [a, b] (fun i j => max (num (A i j)) (num (B i j))) ∧
    (isSigned t = true → rows (.vabs d a) 3 [a] (fun i j => (sx w (A i j)).natAbs)) ∧
    rows (.vaddsat d a b) 3 [a, b] (fun i j => fit (num (A i j) + num (B i j))) ∧
    rows (.vsubsat d a b) 3 [a, b] (fun i j => fit (num (A i j) - num (B i j)))) ∧
    (isInt t = true ∨ t = .b32 →
    rows (.vand d a b) 3 [a, b] (fun i j => (A i j &&& B i j : Nat)) ∧
    rows (.vor d a b) 3 [a, b] (fun i j => (A i j ||| B i j : Nat)) ∧
    rows (.vxor d a b) 3 [a, b] (fun i j => (A i j ^^^ B i j : Nat)) ∧
    rows (.vsll d a b) 3 [a, b] (fun i j => A i j * 2 ^ (B i j % w)) ∧
    rows (.vsrl d a b) 3 [a, b] (fun i j => A i j / 2 ^ (B i j % w)) ∧
    rows (.vsra d a b) 3 [a, b] (fun i j => sx w (A i j) / 2 ^ (B i j % w)) ∧
    rows (.vclz d a) 3 [a] (fun i j => if A i j = 0 then w else w - 1 - Nat.log2 (A i j)) ∧
    rows (.vpopc d a) 3 [a] (fun i j => ((List.range w).countP fun n => (A i j).testBit n : Nat)))) ∧
  (∀ (v : Env) (e : Entry) (d a b k : Nat),
    let t := e.mode.ety
    let n := v.c.rows e.vl
    let f32 := Fmt.ieee 8 23
    let A := fun i => v.elem e a i
    let B := fun i => v.elem e b i
    let D := fun i => v.elem e d i
    let dr := fun i => e.draw 1 i 0
    let scale := fun (x j : Nat) => Fmt.sc12.val (x / 65536 ^ j % 4096)
    let group := fun r i => Binned.ofWords fun c => v.elem e (r + c) i
    let base := sx 16 e.bin.toNat
    let rows := fun (x : Instr) (lam step : Nat) (srcs dsts : List Nat) (f : Nat → Nat → Nat) =>
      v.rowStop e k srcs dsts = none → ∃ o, backOf x = some o ∧ (o.op v e).sample k =
        .ok ((List.range dsts.length).map fun j =>
          landRow v e (e.t v + lam + step * k) ((dsts[j]?).getD 0) k (v.active e) (fun i => f i j) (k + 1 == n), [])
    let regs := fun r : Nat => (List.range 16).map fun c => r + c
    let words := fun (r : Nat → Binned) i j => ((r i).words[j]?).getD 0
    rows (.vscacc d a b) 6 1 [d, a, b] [d] (fun i _ =>
      let q := roundTo f32 e.mode.rm (dr i) ((((fmtOf t).val (A i)).mul (scale (B i) 0)).mul (scale (B i) 1))
      roundTo f32 e.mode.rm (dr i) ((f32.val (D i)).add e.mode.rm (f32.val q))) ∧
    rows (.vscext d a b) 4 1 [a, b] [d] (fun i _ =>
      let x := (f32.val (A i)).abs
      let g := f32.val (B i)
      if x.isNan ∨ x.isInf ∨ g.isNan ∨ g.isInf ∨ g.isZero ∨ g.sign then 0xFFF + 65536 * 0xFFF
      else if x.isZero then 0
      else roundTo .sc12 .rup .none (x.div g) + 65536 * roundTo .sc12 .rdn .none (g.div x)) ∧
    rows (.vscset d a b) 4 1 [a, b] [d] (fun i _ => roundTo f32 e.mode.rm (dr i) ((f32.val (A i)).mul (scale (B i) 1))) ∧
    rows (.vbinadd d a b) (if t = .f64 then 8 else 6) (if t = .f64 then 2 else 1) (regs a ++ pairOf (wideOf t) b) (regs d)
      (words fun i => (group a i).add ((fmtOf t).val (v.value e (pairOf (wideOf t) b) i)) base) ∧
    rows (.vbinmerge d a b) 6 1 (regs a ++ regs b) (regs d) (words fun i => (group a i).merge (group b i)) ∧
    rows (.vbinfold d a b) 8 2 (regs a ++ regs b) [d, d + 1] (fun i j =>
      (if b = a then group a i else (group a i).merge (group b i)).fold base / 2 ^ (32 * j) % 2 ^ 32) ∧
    ((t = .i8x4 ∨ t = .uint8x4) → rows (.vw2pmul d a b) 5 1 [a, b] [d] (fun i _ =>
      (((List.range 4).map fun j =>
        let x := A i / 256 ^ j % 256
        (if t = ETy.i8x4 then sx 8 x else (x : Int)) * w2pUnits (B i / 256 ^ j % 256)).sum % 2 ^ 32).toNat))) ∧
  (∀ (r : Binned) (neg : Bool) (m : Nat) (ex : Int) (b : Int),
    let sh := ex + 240 - b
    let z := if 0 ≤ sh then m * 2 ^ sh.toNat else m / 2 ^ (-sh).toNat
    let x := r.add (.fin neg m ex false) b
    r.bins.length = 6 → (∀ p ∈ r.bins, p.natAbs < 2 ^ 62) → sh ≤ 240 → z < 2 ^ 240 →
    x.bins = ((List.range 6).zip r.bins).map (fun p =>
      p.2 + (if neg then -1 else 1) * ((z / 2 ^ (40 * (5 - p.1)) % 2 ^ 40 : Nat) : Int)) ∧
    x.count = min (r.count + 1) (2 ^ 32 - 1) ∧
    x.flags = r.flags ||| (if sh < 0 ∧ m % 2 ^ (-sh).toNat ≠ 0 then 16 else 0))

/-- R219, R225, R226: row k of a compare lands at t + 3 + k the bit of each active element: equality of the bits, or
the order as signed numbers under i32 and i64 and as unsigned ones otherwise; row k of a mask operation the
combination of the mask bits. R237, R239, R196: vfabs and vfneg clear and turn the sign bit of each sub-element of the
packed and 32-bit float types, a NaN too; vfcmpeq, vfcmplt, vfcmple and vfcmpun under f32 compare with +0 equal to −0,
a NaN being unordered with everything. R236 to R238: a row of the floating-point arithmetic gives each sub-element the exact
result, rounded once to the type under the group mode's rounding, λ + k cycles after its issue (6, f64: 8 + 2k; quotient, root,
exponential and logarithm: 20 + 4k, f64 36 + 8k); vfmin and vfmax give one of the operands, −0 below +0, or the canonical NaN.
R240 to R242: vcvt, vcvtsr (under srnd), vpack and vunpack convert each value of the source's type and round it to the element
type, one value a sub-element, packed from two or four registers, or unpacked into as many. -/
def Obligations.MasksAndFloatCompares : Prop :=
  (∀ (v : Env) (e : Entry) (d a b k : Nat),
    let t := e.mode.ety
    let A := fun i => v.value e (pairOf (wideOf t) a) i
    let B := fun i => v.value e (pairOf (wideOf t) b) i
    let num := fun x : Nat => if t = .i32 ∨ t = .i64 then sx (widthOf t) x else (x : Int)
    let row := fun (f : Nat → Bool) => ([{ Landing.of v e (e.t v + 3 + k) .mask with
      reg := d, row := k, last := k + 1 == v.c.rows e.vl
      enable := maskOf v.c.lanes fun l => v.active e (k * v.c.lanes + l)
      data := [maskOf v.c.lanes fun l => f (k * v.c.lanes + l)] }], ([] : List Pend))
    (∀ x ∈ [(Instr.vcmpeq d a b, fun i => A i == B i), (.vcmpne d a b, fun i => A i != B i),
        (.vcmplt d a b, fun i => decide (num (A i) < num (B i))), (.vcmple d a b, fun i => decide (num (A i) ≤ num (B i)))],
      v.rowStop e k (pairOf (wideOf t) a ++ pairOf (wideOf t) b) [] = none →
      t ∈ [.i32, .i64, .uint32, .uint64, .b32] →
      ∃ o, backOf x.1 = some o ∧ (o.op v e).sample k = .ok (row x.2)) ∧
    ∀ x ∈ [(Instr.mand d a b, fun i => v.c.mbit a i && v.c.mbit b i), (.mor d a b, fun i => v.c.mbit a i || v.c.mbit b i),
        (.mxor d a b, fun i => v.c.mbit a i ^^ v.c.mbit b i), (.mnot d a, fun i => !v.c.mbit a i)],
      ∃ o, backOf x.1 = some o ∧ (o.op v e).sample k = .ok (row x.2)) ∧
  (∀ (v : Env) (e : Entry) (d a b k : Nat),
    let t := e.mode.ety
    let n := v.c.rows e.vl
    (t ∈ [.f32, .bf16x2, .f16x2, .f8ax4, .f8bx4] → v.rowStop e k [a] [d] = none →
      ∀ x ∈ [(Instr.vfabs d a, fun z => z % 2 ^ (widthOf t - 1)), (.vfneg d a, fun z => z ^^^ 2 ^ (widthOf t - 1))],
        ∃ (o : Back) (val : Nat → Nat), backOf x.1 = some o ∧ (o.op v e).sample k =
          .ok ([landRow v e (e.t v + 3 + k) d k (v.active e) val (k + 1 == n)], []) ∧
        ∀ i j, j < subsOf t → subOf t (val i) j = x.2 (subOf t (v.elem e a i) j)) ∧
    (t = .f32 → v.rowStop e k [a, b] [] = none →
      let A := fun i => Fmt.val (.ieee 8 23) (v.elem e a i)
      let B := fun i => Fmt.val (.ieee 8 23) (v.elem e b i)
      ∀ x ∈ [(Instr.vfcmpeq d a b, fun i => (A i).eq (B i)), (.vfcmplt d a b, fun i => (A i).lt (B i)),
          (.vfcmple d a b, fun i => (A i).lt (B i) || (A i).eq (B i)),
          (.vfcmpun d a b, fun i => (A i).isNan || (B i).isNan)],
        ∃ o, backOf x.1 = some o ∧ (o.op v e).sample k =
          .ok ([landMask v e (e.t v + 4 + k) d k (v.active e) x.2 (k + 1 == n)], []))) ∧
  (∀ (v : Env) (e : Entry) (d a b k : Nat), isFsum e.mode.ety = true →
    let t := e.mode.ety
    let m := fmtOf t
    let rm := e.mode.rm
    let bits := fun r i j => subOf t (v.value e (pairOf (wideOf t) r) i) j
    let A := fun i j => m.val (bits a i j)
    let B := fun i j => m.val (bits b i j)
    let D := fun i j => m.val (bits d i j)
    let rows := fun (x : Instr) (lam step : Nat) (srcs : List Nat) (f : Nat → Nat → Nat) =>
      v.rowStop e k (srcs.flatMap (pairOf (wideOf t))) (pairOf (wideOf t) d) = none →
      ∃ (o : Back) (val : Nat → Nat), backOf x = some o ∧
        (o.op v e).sample k = .ok ((List.range (pairOf (wideOf t) d).length).map fun j =>
          landRow v e (e.t v + lam + step * k) (d + j) k (v.active e) (fun i => val i / 2 ^ (32 * j) % 2 ^ 32) (k + 1 == v.c.rows e.vl), []) ∧
        ∀ i j, j < subsOf t → subOf t (val i) j = f i j
    let fpu := if t = .f64 then (8, 2) else (6, 1)
    let xfu := if t = .f64 then (36, 8) else (20, 4)
    let sum := fun (x : Instr) (srcs : List Nat) (f : Nat → Nat → Sys2Proof.Machine.Num) =>
      rows x fpu.1 fpu.2 srcs (fun i j => roundTo m rm (e.draw (subsOf t) i j) (f i j))
    let special := fun (x : Instr) (srcs : List Nat) (f : Nat → Nat → Sys2Proof.Machine.Num) =>
      rows x xfu.1 xfu.2 srcs (fun i j => roundTo m rm (e.draw (subsOf t) i j) (f i j))
    sum (.vfadd d a b) [a, b] (fun i j => (A i j).add rm (B i j)) ∧
    sum (.vfsub d a b) [a, b] (fun i j => (A i j).add rm (B i j).neg) ∧
    sum (.vfmul d a b) [a, b] (fun i j => (A i j).mul (B i j)) ∧
    sum (.vfma d a b) [d, a, b] (fun i j => ((A i j).mul (B i j)).add rm (D i j)) ∧
    sum (.vfnma d a b) [d, a, b] (fun i j => (D i j).add rm ((A i j).mul (B i j)).neg) ∧
    special (.vfdiv d a b) [a, b] (fun i j => (A i j).div (B i j)) ∧
    special (.vfsqrt d a) [a] (fun i j => (A i j).sqrt) ∧
    (t ≠ .f64 → special (.vfexp2 d a) [a] (fun i j => (A i j).exp2) ∧ special (.vflog2 d a) [a] (fun i j => (A i j).log2)) ∧
    rows (.vfmin d a b) fpu.1 fpu.2 [a, b] (fun i j => if (A i j).isNan ∨ (B i j).isNan then m.nan
      else if (B i j).below (A i j) then bits b i j else bits a i j) ∧
    rows (.vfmax d a b) fpu.1 fpu.2 [a, b] (fun i j => if (A i j).isNan ∨ (B i j).isNan then m.nan
      else if (A i j).below (B i j) then bits b i j else bits a i j)) ∧
  (∀ (v : Env) (e : Entry) (d a b k s : Nat),
    let t := e.mode.ety
    let u := etyOf s
    let n := v.c.rows e.vl
    let from' := fun (rm : RMode) (dr : Draw) (x j : Nat) => roundTo (fmtOf t) rm dr ((fmtOf u).val (subOf u x j)) % 2 ^ widthOf t
    let lands := fun (lam : Nat) (dsts : List Nat) (val : Nat → Nat → Nat) => (List.range dsts.length).map fun q =>
      landRow v e (e.t v + lam + k) ((dsts[q]?).getD 0) k (v.active e) (val q) (k + 1 == n)
    (subsOf t = subsOf u → v.rowStop e k (pairOf (wideOf u) a) (pairOf (wideOf t) d) = none →
      ∀ x ∈ [(Instr.vcvt d a s, 4, e.mode.rm), (.vcvtsr d a s, 5, .srnd)],
        ∃ (o : Back) (val : Nat → Nat), backOf x.1 = some o ∧
          (o.op v e).sample k = .ok (lands x.2.1 (pairOf (wideOf t) d) (fun q i => val i / 2 ^ (32 * q) % 2 ^ 32), []) ∧
          ∀ i j, j < subsOf t → subOf t (val i) j =
            from' x.2.2 (e.draw (subsOf t) i j) (v.value e (pairOf (wideOf u) a) i) j) ∧
    (∀ m ∈ [2, 4], subsOf t = m * subsOf u → t ≠ .b32 → t ≠ .bin → u ≠ .b32 → u ≠ .bin →
      let srcs := if m = 4 then [a, a + 1, b, b + 1] else [a, b]
      v.rowStop e k srcs [d] = none →
      ∃ (o : Back) (val : Nat → Nat), backOf (.vpack d a b s) = some o ∧
        (o.op v e).sample k = .ok (lands 4 [d] (fun _ => val), []) ∧
        ∀ i p, p < subsOf t → subOf t (val i) p = from' e.mode.rm (e.draw (subsOf t) i p)
          (v.elem e ((srcs[p / subsOf u]?).getD 0) i) (p % subsOf u)) ∧
    (∀ m ∈ [2, 4], subsOf u = m * subsOf t → t ≠ .b32 → t ≠ .bin → u ≠ .b32 → u ≠ .bin →
      let dsts := (List.range m).map fun q => d + q
      v.rowStop e k [a] dsts = none →
      ∃ (o : Back) (val : Nat → Nat → Nat), backOf (.vunpack d a s) = some o ∧
        (o.op v e).sample k = .ok (lands 4 dsts val, []) ∧
        ∀ i q j, q < m → j < subsOf t → subOf t (val q i) j = from' e.mode.rm (e.draw (subsOf u) i (q * subsOf t + j))
          (v.elem e a i) (q * subsOf t + j)))

/-- R227, R228: mcount and mfirst land n + 3 cycles after issue the count and the least index of the active elements
with their mask bit set (all ones for none), with VL = 0 at issue; vid gives each active element its index and vbcast
the scalar's low bits in each sub-element, of which an SC12 writes 12 (log entry 74). Rows before the last keep what they have counted or found. R228 to R230: vslideup,
vslidedn, vperm, vcompress, vexpand, vsel and vextract move elements, the cross-row ones from sources held at issue (R221; where no
landing is due then, the registers as they stand), with 0 from an index at or past VL. R207, R215, R231 to R234: vredsum.o is the
ordered sum of the active elements' sub-elements, vredsum.u the canonical tree over the ordered sums of the lanes; vredmin and
vredmax the least and greatest, their index forms with the lowest index; vscan.o the running ordered sums, vscan.f those of each
row after the carry of the rows before. R235: vgrant grants min(R, VLMAX) and lands VL, STRIPBASE and the remainder. That an
element below a start index leaves the scalar alone is log entry 76, a reduction with VL = 0 log entry 75. -/
def Obligations.ScalarsAndIndices : Prop :=
  (∀ (v : Env) (e : Entry) (d a k : Nat),
    let n := v.c.rows e.vl
    let t := e.mode.ety
    (∃ o, backOf (.mcount d a) = some o ∧
      (e.vl = 0 → v.c.lanes ≠ 0 → (o.op v e).issue () = ([landScalar v e (e.t v + 3) d 0], [])) ∧
      (k + 1 = n → e.acc = [] → (o.op v e).sample k = .ok ([landScalar v e (e.t v + 3 + n) d
        (((List.range n).map fun r => ((v.rowElems e r).filter fun i => v.active e i && v.c.mbit a i).length).foldl (· + ·) 0)], [])) ∧
      ∀ x l, e.acc = x :: l ∨ (k = 0 ∧ e.acc = [] ∧ x = 0) →
        let upTo := x + ((v.rowElems e k).filter fun i => v.active e i && v.c.mbit a i).length
        (o.op v e).keep k = some [upTo] ∧
        (o.op v e).sample k = .ok (if k + 1 = n then [landScalar v e (e.t v + 3 + n) d upTo] else [], [])) ∧
    (∃ o, backOf (.mfirst d a) = some o ∧
      (e.vl = 0 → v.c.lanes ≠ 0 → (o.op v e).issue () = ([landScalar v e (e.t v + 3) d (2 ^ 64 - 1)], [])) ∧
      (k + 1 = n → e.acc = [] → (o.op v e).sample k = .ok ([landScalar v e (e.t v + 3 + n) d
        ((((List.range n).flatMap (v.rowElems e)).find? fun i => v.active e i && v.c.mbit a i).getD (2 ^ 64 - 1))], [])) ∧
      ∀ x l, e.acc = x :: l ∨ (k = 0 ∧ e.acc = [] ∧ x = 2 ^ 64 - 1) →
        let upTo := if x = 2 ^ 64 - 1 then ((v.rowElems e k).find? fun i => v.active e i && v.c.mbit a i).getD x else x
        (o.op v e).keep k = some [upTo] ∧
        (o.op v e).sample k = .ok (if k + 1 = n then [landScalar v e (e.t v + 3 + n) d upTo] else [], [])) ∧
    (v.rowStop e k [] (pairOf (wideOf t) d) = none →
      let lands := fun (lam : Nat) (val : Nat → Nat) => (List.range (pairOf (wideOf t) d).length).map fun j =>
        landRow v e (e.t v + lam + k) (d + j) k (v.active e) (fun i => val i / 2 ^ (32 * j) % 2 ^ 32) (k + 1 == n)
      (∃ (o : Back) (val : Nat → Nat), backOf (.vid d) = some o ∧ (o.op v e).sample k = .ok (lands 3 val, []) ∧
        ∀ i, i < 2 ^ 32 → val i = i) ∧
      ∃ (o : Back) (val : Nat → Nat), backOf (.vbcast d a) = some o ∧ (o.op v e).sample k = .ok (lands 2 val, []) ∧
        ∀ i j, j < subsOf t → subOf t (val i) j = e.op 0 % 2 ^ writtenBits t)) ∧
  (∀ (v : Env) (e : Entry) (d a b imm k : Nat),
    let t := e.mode.ety
    let w := wideOf t
    let n := v.c.rows e.vl
    let h := v.held e
    let X := fun i => h.val (pairOf w a) i
    let act := (List.range e.vl).filter h.guard
    let fresh := ∀ r ∈ pairOf w a ++ [b], v.ringStale r = false
    let moves := fun (x : Instr) (lam step : Nat) (takes : Nat → Bool) (val : Nat → Nat) =>
      fresh → ∃ (o : Back) (f : Nat → Nat), backOf x = some o ∧ (o.op v e).rows = n ∧
        (o.op v e).sample k = .ok ((List.range (pairOf w d).length).map fun j =>
          landRow v e (e.t v + lam + step * k) (d + j) k (fun i => decide (i < e.vl) && decide (e.start ≤ i) && takes i)
            (fun i => f i / 2 ^ (32 * j) % 2 ^ 32) (k + 1 == n), []) ∧
        ∀ i, i < e.vl → takes i = true → f i = val i
    (e.acc = [] → (∀ l ∈ v.c.landings, l.due ≠ v.now) →
      (∀ r i, h.vec r i = v.c.vec r i) ∧ ∀ i, h.guard i = v.c.guard e.mode i) ∧
    moves (.vslideup d a imm) 6 1 (fun i => h.guard i && decide (imm ≤ i)) (fun i => X (i - imm)) ∧
    moves (.vslidedn d a imm) 6 1 h.guard (fun i => if i + imm < e.vl then X (i + imm) else 0) ∧
    moves (.vperm d a b) 10 2 h.guard (fun i => if h.vec b i < e.vl then X (h.vec b i) else 0) ∧
    moves (.vcompress d a) 10 2 (fun i => decide (i < act.length)) (fun i => X ((act[i]?).getD 0)) ∧
    moves (.vexpand d a) 10 2 h.guard (fun i => X (act.filter fun j => decide (j < i)).length) ∧
    (∃ o, backOf (.vextract d a b) = some o ∧
      ((o.op v e).issue ()).1 = (if e.vl ≤ e.op 0 then [landScalar v e (e.t v + 6 + n) d 0] else []) ∧
      (v.rowStop e.unguarded k (pairOf w a) [] = none → (o.op v e).sample k =
        .ok (if e.op 0 < e.vl ∧ e.start ≤ e.op 0 ∧ e.op 0 / v.c.lanes = k then
          let x := v.value e (pairOf w a) (e.op 0)
          [landScalar v e (e.t v + 6 + n) d (if t = .i32 ∧ 2 ^ 31 ≤ x % 2 ^ 32 then x % 2 ^ 32 + (2 ^ 64 - 2 ^ 32) else if t = .i32 then x % 2 ^ 32 else x)]
          else [], []))) ∧
    (v.rowStopOn e k (((pairOf w a).map fun r => (r, v.active e)) ++ (pairOf w b).map fun r =>
        (r, fun i => decide (e.start ≤ i) && !v.c.guard e.mode i))
        ((pairOf w d).map fun r => (r, fun i => decide (e.start ≤ i))) [] none = none →
      ∃ o, backOf (.vsel d a b) = some o ∧ (o.op v e).sample k = .ok ((List.range (pairOf w d).length).map fun j =>
        landRow v e (e.t v + 3 + k) (d + j) k (fun i => decide (i < e.vl) && decide (e.start ≤ i))
          (fun i => (if v.c.guard e.mode i then v.value e (pairOf w a) i else v.value e (pairOf w b) i) / 2 ^ (32 * j) % 2 ^ 32)
          (k + 1 == n), []))) ∧
  ∀ (v : Env) (e : Entry) (d a k : Nat),
    let t := e.mode.ety
    let w := wideOf t
    let n := v.c.rows e.vl
    let h := v.held e
    let f := fmtOf t
    let rm := e.mode.rm
    let fp := isFp t
    let fresh := ∀ r ∈ pairOf w a, v.ringStale r = false
    let act := (List.range e.vl).filter h.guard
    let sub := fun (i j : Nat) => subOf t (h.val (pairOf w a) i) j
    let dr := fun (i j : Nat) => e.draw (subsOf t) i j
    let add := fun (r : Draw) (x y : Nat) => if fp then roundTo f rm r ((f.val x).add rm (f.val y)) else (x + y) % 2 ^ widthOf t
    let origin := if fp then 2 ^ (widthOf t - 1) else 0
    let sum := fun (ps : List (Nat × Nat)) => ps.foldl (fun s p => add (dr p.1 p.2) s (sub p.1 p.2)) origin
    let subs := fun (els : List Nat) => els.flatMap fun i => (List.range (subsOf t)).map fun j => (i, j)
    let most := fun (before : Nat → Nat → Bool) (from' : Nat) => (subs act).foldl (fun s p =>
      if (f.val s).isNan ∨ (f.val (sub p.1 p.2)).isNan then f.nan
      else if before (sub p.1 p.2) s then sub p.1 p.2 else s) from'
    let lower := fun x y => (f.val x).below (f.val y)
    let higher := fun x y => (f.val y).below (f.val x)
    let result := fun (lam : Nat) (dsts vals : List Nat) => (List.range dsts.length).map fun j =>
      landRow v e (e.t v + lam) ((dsts[j]?).getD 0) 0 (fun i => i == 0 && (e.start == 0 || decide (e.start < e.vl)))
        (fun _ => (vals[j]?).getD 0) true
    let tree := fun (x : Instr) (dsts vals : List Nat) => fresh → ∃ o, backOf x = some o ∧ (o.op v e).rows = max n 1 ∧
      (o.op v e).sample k = .ok (if k + 1 = max n 1 then result (8 + max n 1) dsts vals else [], [])
    let parts := fun z : Nat => if w then [z % 2 ^ 32, z / 2 ^ 32 % 2 ^ 32] else [z]
    let best := fun (before : Nat → Nat → Bool) (from' : Nat) =>
      match act.find? fun i => (f.val (h.vec a i)).isNan with
      | some i => [f.nan, i]
      | none => match act with
        | [] => [from', 2 ^ 32 - 1]
        | i :: l => let z := l.foldl (fun m i => if before (h.vec a i) (h.vec a m) then i else m) i
          [h.vec a z, z]
    (∃ o, backOf (.vredsumO d a) = some o ∧
      (o.op v e).issue () = (result (4 + e.vl) (pairOf w d) (parts (sum (subs act))), [])) ∧
    tree (.vredsumU d a) (pairOf w d) (parts (((canonical (fun (x y : Nat × Nat) => (add (dr y.2 0) x.1 y.1, x.2)) 7
      ((List.range v.c.lanes).map fun l => (sum (subs (act.filter fun i => i % v.c.lanes == l)), l))).head?.map Prod.fst).getD 0)) ∧
    tree (.vredmin d a) (pairOf w d) (parts (most lower (f.inf false))) ∧
    tree (.vredmax d a) (pairOf w d) (parts (most higher (f.inf true))) ∧
    (w = false → tree (.vredminidx d a) [d, d + 1] (best lower (f.inf false)) ∧
      tree (.vredmaxidx d a) [d, d + 1] (best higher (f.inf true))) ∧
    (∃ (o : Back) (val : Nat → Nat), backOf (.vscanO d a) = some o ∧
      (o.op v e).issue () = ((List.range n).flatMap fun r => (List.range (pairOf w d).length).map fun j =>
        landRow v e (e.t v + 4 + min e.vl (v.c.lanes * (r + 1))) (d + j) r (fun i => decide (e.start ≤ i) && act.contains i)
          (fun i => val i / 2 ^ (32 * j) % 2 ^ 32) (r + 1 == n), []) ∧
      ∀ i ∈ act, ∀ j < subsOf t, subOf t (val i) j =
        sum (subs (act.filter fun x => decide (x < i)) ++ (List.range (j + 1)).map fun j => (i, j)) % 2 ^ widthOf t) ∧
    (fresh → ∃ (o : Back) (val carry : Nat → Nat), backOf (.vscanF d a) = some o ∧
      let row := fun r : Nat => act.filter fun i => i / v.c.lanes == r
      (o.op v e).sample k = .ok ((List.range (pairOf w d).length).map fun j =>
        landRow v e (e.t v + 8 + n + k) (d + j) k (fun i => decide (i < e.vl) && decide (e.start ≤ i) && h.guard i)
          (fun i => val i / 2 ^ (32 * j) % 2 ^ 32) (k + 1 == n), []) ∧
      carry 0 = origin ∧
      (∀ r, carry (r + 1) = add (dr (min e.vl (v.c.lanes * (r + 1)) - 1) (subsOf t - 1)) (carry r) (sum (subs (row r)))) ∧
      ∀ i ∈ act, ∀ j < subsOf t, subOf t (val i) j =
        add (dr i j) (carry (i / v.c.lanes)) (sum (subs ((row (i / v.c.lanes)).filter fun x => decide (x < i)) ++
          (List.range (j + 1)).map fun j => (i, j))) % 2 ^ widthOf t) ∧
    ∃ o, backOf (.vgrant d a) = some o ∧
      let g := min (e.op 0) v.c.vlmax
      (o.op v e).issue () = ([landCsr v e (e.t v + 3) 0x000 g, landCsr v e (e.t v + 3) 0x005 (e.op 1),
        landScalar v e (e.t v + 3) d (e.op 0 - g), landScalar v e (e.t v + 3) (d + 1) (e.op 1 + g)], [])

/-- R155 to R157, R77: row k of vld and vlds from the core's own scratchpad under a 32-bit type lands at t + 6 + k the
word at each active element's address, base plus 4 × OFF13 + 4i or base plus stride × i; the first active element
without an address traps SPADDR, a misaligned one ALIGN; every check of all elements comes before the next kind. vst
lists the bytes that row k writes. R158 to R164: a row of vldt whose tags differ is the stale-tile fault, else loads; vldf loads a
poisoned element as zero, and lands its mask bits and, of the highest element at fault, FLAGCAUSE; vsts stores; vgath loads at
t + 12 + k what its indices name, vscat writes at t + 8 + k; vscadd, vscadd.bin and vamo update each address once a row, at t + 16 + k,
from what earlier rows of the instruction have left there, vamo landing for each element what the elements before it left. mld and
mst move the mask bits below VL. A row on another core's scratchpad waits for its read as R78 gives. R165, R166: vbind checks the
pattern record and binds from t + 6 on; vunbind writes the cursor back at t + 4 and ends the binding for instructions that issue later
(that the cursor is that of t, and BASE not checked, is log entry 90). Log entry 57: a binned record must fit in the scratchpad. -/
def Obligations.MemoryRows : Prop :=
  (∀ (v : Env) (e : Entry) (d a b imm k : Nat), wideOf e.mode.ety = false → baseDelay v (e.op 0) = 0 →
    let n := v.c.rows e.vl
    let els := v.activeElems e k
    let place := fun (disp : Nat → Int) i => elemAddr v.s.sys v.core (e.op 0) (disp i)
    let near : Nat → Int := fun i => 4 * sx 13 imm + 4 * (i : Int)
    let far : Nat → Int := fun i => sx 64 (e.op 1) * (i : Int)
    let fits := fun (disp : Nat → Int) i => ∃ t o, place disp i = some (t, o) ∧ o % 4 = 0
    let clean := fun (disp : Nat → Int) i => ∀ t o, place disp i = some (t, o) → ∀ j < 4, (coreOf v.s.sys t).poisoned (o + j) = false
    let loads := fun (x : Instr) (disp : Nat → Int) =>
      (∀ i ∈ els, fits disp i ∧ clean disp i) → v.rowStop e k [] [d] = none →
      ∃ (op : Back) (p : Nat → Bool) (f : Nat → Nat), backOf x = some op ∧
        (op.op v e).sample k = .ok ([landRow v e (e.t v + 6 + k) d k p f (k + 1 == n)], []) ∧
        (∀ i, p i = true ↔ i ∈ els) ∧
        ∀ i ∈ els, ∀ t o, place disp i = some (t, o) → f i = (coreOf v.s.sys t).snat o 4
    loads (.vld d a imm) near ∧
    (spreadStop 4 (els.filterMap fun i => (place far i).map fun q => (i, q.2)) [] = none →
      loads (.vlds d a b) far) ∧
    (∀ i l l', v.rowStop e k [] [d] = none → els = l ++ i :: l' → (∀ j ∈ l, fits near j) →
      (place near i = none → ∃ op, backOf (.vld d a imm) = some op ∧ (op.op v e).sample k = .error (.trap 10 i)) ∧
      (∀ t o, place near i = some (t, o) → o % 4 ≠ 0 →
        ∃ op, backOf (.vld d a imm) = some op ∧ (op.op v e).sample k = .error (.trap 9 i))) ∧
    (∀ i l l', v.rowStop e k [] [d] = none → els = l ++ i :: l' → (∀ j ∈ els, fits near j) → (∀ j ∈ l, clean near j) →
      ¬ clean near i → ∃ op, backOf (.vld d a imm) = some op ∧ (op.op v e).sample k = .error (.trap 11 i)) ∧
    ((∀ i ∈ els, fits near i) → v.rowStop e k [d] [] = none →
      ∃ op, backOf (.vst d a imm) = some op ∧ (op.op v e).sample k = .ok (spadLandings v e (e.t v + 4 + k) (e.op 0)
        (contigBanks v e (e.op 0) near 4 k) (els.flatMap fun i => match place near i with
          | some (_, o) => (List.range 4).map fun p => (o + p, BitVec.ofNat 8 (v.elem e d i / 256 ^ p))
          | none => []), []))) ∧
  (∀ (v : Env) (e : Entry) (d a b op k : Nat),
    let t := e.mode.ety
    let size := if wideOf t then 8 else 4
    let regs := pairOf (wideOf t) d
    let base := e.op 0
    let els := v.activeElems e k
    let near := fun i : Nat => elemAddr v.s.sys v.core base ((size * i : Nat) : Int)
    let far := fun i : Nat => elemAddr v.s.sys v.core base (sx 64 (e.op 1) * (i : Int))
    let spot := fun (scale i : Nat) => elemAddr v.s.sys v.core base ((scale * v.elem e b i : Nat) : Int)
    let whole := fun i : Nat => (spot 64 i).filter fun p => decide (p.2 + 64 ≤ spadSize (coreOf v.s.sys p.1).partN)
    let elems := fun (place : Nat → Option (Nat × Nat)) (src : List Nat) =>
      els.filterMap fun i => (place i).map fun p => (⟨i, p.1, p.2, v.value e src i⟩ : Elem)
    let clear := fun (al n : Nat) (spread poison : Bool) (srcs dsts : List Nat) (place : Nat → Option (Nat × Nat)) =>
      Access.stop ⟨al, n, spread, poison⟩ v e k srcs dsts place = none
    let row := fun (x : Instr) (es : List Elem) (lands : Env → List Landing → Prop) =>
      ∃ o, backOf x = some o ∧
        (baseDelay v base = 0 → ∃ ls, (o.op v e).sample k = .ok (ls, []) ∧ lands v ls) ∧
        (baseDelay v base ≠ 0 → ∃ p, (o.op v e).sample k = .ok ([], [p]) ∧ p.elems = es ∧ p.core = baseCore v base ∧
          p.due = e.t v + k + baseDelay v base / 2 ∧ ∀ z : Env, lands z ((o.op z e).access p))
    let indexed := fun (x : Instr) (delay : Nat) (es : List Elem) (lands : Env → List Landing → Prop) =>
      ∃ o, backOf x = some o ∧
        (delay + baseDelay v base = 0 → ∃ ls, (o.op v e).sample k = .ok (ls, []) ∧ lands v ls) ∧
        (delay + baseDelay v base ≠ 0 → ∃ p, (o.op v e).sample k = .ok ([], [p]) ∧ p.elems = es ∧ p.core = baseCore v base ∧
          p.due = e.t v + 4 + k + delay + baseDelay v base / 2 ∧ ∀ z : Env, lands z ((o.op z e).access p))
    let load := fun (lam : Nat) (es : List Elem) (val : Env → Elem → Nat) (z : Env) =>
      landLoad z e (e.t z + lam + k + baseDelay z base) regs k (z.c.rows e.vl) (es.map fun p => (p.idx, val z p))
    let held := fun (n : Nat) (z : Env) (p : Elem) => (coreOf z.s.sys p.core).snat p.off n
    let bytes := fun (n : Nat) (us : List (Nat × Nat)) => us.flatMap fun u => (List.range n).map fun j =>
      (u.1 + j, BitVec.ofNat 8 (u.2 / 256 ^ j))
    let updates := fun (es : List Elem) (us : List (Nat × Nat)) (f : Nat → Elem → List Elem → Nat) =>
      (us.map Prod.fst).Nodup ∧ (∀ o, o ∈ us.map Prod.fst ↔ ∃ p ∈ es, p.off = o) ∧
      ∀ w ∈ us, ∀ p l, (es.filter fun q => q.off == w.1) = p :: l → w.2 = f w.1 p l
    let old := fun (z : Env) (n o : Nat) => forwarded z e k (baseDelay z base) (baseCore z base) o n
    let dirty := fun (z : Env) (p : Elem) => (List.range size).any fun j => (coreOf z.s.sys p.core).poisoned (p.off + j)
    let good := fun (z : Env) (p : Elem) => !dirty z p &&
      (List.range (size / 4)).all fun q => (coreOf z.s.sys p.core).flagCause (p.off / 4 + q) == 0
    let stale := ∃ i ∈ els, ∃ x o, near i = some (x, o) ∧
      ((coreOf v.s.sys x).slotTag (o / 4096) ≠ e.op 1 % 65536 ∨ (coreOf v.s.sys x).slotTag ((o + size - 1) / 4096) ≠ e.op 1 % 65536)
    (stale → ∃ o, backOf (.vldt d a b) = some o ∧ (o.op v e).sample k = .error (.fault 8)) ∧
    (¬ stale → clear size size false true [] regs near →
      row (.vldt d a b) (elems near []) fun z ls => ls = load 6 (elems near []) (held size) z) ∧
    (clear size size false false [] regs near → row (.vldf d a b) (elems near []) fun z ls =>
      ls = load 6 (elems near []) (fun z p => if dirty z p then 0 else held size z p) z ++
        landMask z e (e.t z + 6 + k + baseDelay z base) b k (fun i => (elems near []).any fun p => p.idx == i)
          (fun i => (elems near []).any fun p => p.idx == i && good z p) (k + 1 == z.c.rows e.vl) ::
        (((elems near []).filter fun p => !good z p).getLast?.map fun p =>
          landCsr z e (e.t z + 6 + (z.c.rows e.vl - 1) + baseDelay z base) 0x007
            (p.idx * 65536 + elemCause (coreOf z.s.sys p.core) p.off size)).toList) ∧
    (clear size size true false regs [] far → ∃ o, backOf (.vsts d a b) = some o ∧ (o.op v e).sample k =
      .ok (spadLandings v e (e.t v + 4 + k + baseDelay v base / 2) base (2 ^ 64 - 1)
        (bytes size (els.filterMap fun i => (far i).map fun p => (p.2, v.value e regs i))), [])) ∧
    (clear size size true true [b] regs (spot size) → indexed (.vgath d a b) 0 (elems (spot size) []) fun z ls =>
      ls = load 12 (elems (spot size) []) (held size) z) ∧
    (clear size size true false (b :: regs) [] (spot size) → indexed (.vscat d a b) 4 (elems (spot size) regs) fun z ls =>
      ls = spadLandings z e (e.t z + 8 + k + baseDelay z base / 2) base 0
        (bytes size ((elems (spot size) regs).map fun p => (p.off, p.data)))) ∧
    (clear size size true true (b :: regs) [] (spot size) → indexed (.vscadd d a b) 4 (elems (spot size) regs) fun z ls =>
      ∃ us, ls = spadLandings z e (e.t z + 16 + k + baseDelay z base / 2) base (2 ^ 64 - 1) (bytes size us) ∧
        updates (elems (spot size) regs) us fun o p l =>
          addSubs e p.idx (old z size o) (l.foldl (fun m q => addSubs e p.idx m q.data) p.data)) ∧
    (clear size 64 true true (b :: regs) [] whole → indexed (.vscaddBin d a b) 4 (elems whole regs) fun z ls =>
      ∃ us, ls = spadLandings z e (e.t z + 16 + k + baseDelay z base / 2) base (2 ^ 64 - 1) (bytes 64 us) ∧
        updates (elems whole regs) us fun o p l => (p :: l).foldl (fun cur q =>
          ofBytes (((recordOf cur).add ((fmtOf t).val q.data) (sx 16 e.bin.toNat)).words.flatMap (toBytes 4))) (old z 64 o)) ∧
    (clear 4 4 true true [b, d] [d] (spot 4) → indexed (.vamo d a b op) 4 (elems (spot 4) [d]) fun z ls =>
      ∃ us, ls = spadLandings z e (e.t z + 16 + k + baseDelay z base / 2) base (2 ^ 64 - 1) (bytes 4 us) ++
          landLoad z e (e.t z + 16 + k + baseDelay z base) [d] k (z.c.rows e.vl) ((elems (spot 4) [d]).map fun p =>
            (p.idx, ((elems (spot 4) [d]).filter fun q => q.off == p.off && decide (q.idx < p.idx)).foldl
              (fun cur q => amoOf t op cur q.data) (old z 4 p.off))) ∧
        updates (elems (spot 4) [d]) us fun o p l => (p :: l).foldl (fun cur q => amoOf t op cur q.data) (old z 4 o)) ∧
    (∀ x y, amoOf t 0 x y = (x + y) % 2 ^ 32 ∧ amoOf t 3 x y = y ∧ amoOf t 4 x y = x &&& y ∧ amoOf t 5 x y = x ||| y ∧ amoOf t 6 x y = x ^^^ y ∧
      (t = .i32 → x < 2 ^ 32 → y < 2 ^ 32 → sx 32 (amoOf t 1 x y) = min (sx 32 x) (sx 32 y) ∧ sx 32 (amoOf t 2 x y) = max (sx 32 x) (sx 32 y)) ∧
      (t = .uint32 → x < 2 ^ 32 → y < 2 ^ 32 → amoOf t 1 x y = min x y ∧ amoOf t 2 x y = max x y)) ∧
    (∀ x o, spAddr v.s.sys v.core base = some (x, o) → e.start = 0 →
      (o % 64 ≠ 0 → ∀ i ∈ [Instr.mld d a, .mst d a], ∃ o, backOf i = some o ∧ (o.op v e).sample k = .error (.trap 9 0)) ∧
      (o % 64 = 0 → (coreOf v.s.sys x).poisoned o = true →
        ∃ o, backOf (.mld d a) = some o ∧ (o.op v e).sample k = .error (.trap 11 0)) ∧
      (o % 64 = 0 → (coreOf v.s.sys x).poisoned o = false → ∃ f, backOf (.mld d a) = some f ∧
        let lands := fun z : Env => (List.range 8).map fun r => landMask z e (e.t z + 6 + baseDelay z base) d r (fun _ => true)
          (fun i => decide (i < e.vl) && ((coreOf z.s.sys x).snat o 64).testBit i) (r == 7)
        (baseDelay v base = 0 → (f.op v e).sample k = .ok (lands v, [])) ∧
        (baseDelay v base ≠ 0 → ∃ p, (f.op v e).sample k = .ok ([], [p]) ∧ p.due = e.t v + baseDelay v base / 2 ∧ p.core = baseCore v base ∧
          ∀ z : Env, (f.op z e).access p = lands z)) ∧
      (o % 64 = 0 → ∃ f, backOf (.mst d a) = some f ∧ (f.op v e).sample k =
        .ok (spadLandings v e (e.t v + 4 + baseDelay v base / 2) base (banksOf o 64) ((List.range ((e.vl + 7) / 8)).map fun p =>
          (o + p, BitVec.ofNat 8 (maskOf 8 fun i => decide (8 * p + i < e.vl) && v.c.mbit d (8 * p + i)))), []))) ∧
    (spAddr v.s.sys v.core base = none → e.start = 0 → ∀ i ∈ [Instr.mld d a, .mst d a],
      ∃ o, backOf i = some o ∧ (o.op v e).sample k = .error (.trap 10 0))) ∧
  ∀ (v : Env) (e : Entry) (d a x o : Nat),
    let m := coreOf v.s.sys x
    let w := fun i => m.snat (o + i) 4
    let counts := [w 0x08, w 0x0C, w 0x10]
    let curs := [w 0x28, w 0x2C, w 0x30]
    let strides := [sx 32 (w 0x18), sx 32 (w 0x1C), sx 32 (w 0x20)]
    let valid := m.snat (o + 4) 1 ≤ 1 ∧ m.snat (o + 5) 3 = 0 ∧ w 0x14 = 0 ∧ w 0x24 = 0 ∧ m.snat (o + 0x34) 1 ≤ 1 ∧ m.snat (o + 0x35) 11 = 0 ∧
      (∀ c ∈ counts, 1 ≤ c ∧ c ≤ 2 ^ 24) ∧ (∀ z ∈ strides, z % 4 = 0) ∧ ∀ p ∈ curs.zip counts, p.1 < p.2
    let till := fun (t : Nat) (st : Stream) => if st.reg = d ∧ st.till = none then { st with till := some t } else st
    let live := v.c.streams.filter fun st => !v.c.disused (e.t v) st
    (spAddr v.s.sys v.core (e.op 0) = some (x, o) → o % 64 = 0 → m.poisoned o = false → ∃ f, backOf (.vbind d a) = some f ∧
      ((f.op v e).check () = none ↔ isRing v.c.partN d = false ∧ ownerOf v.c.partN d = v.role ∧ valid) ∧
      ((f.op v e).check () ≠ none → (f.op v e).check () = some (.trap 17 0)) ∧
      ((v.c.role v.role).handler = false → valid → ∃ st, st.reg = d ∧ st.base = w 0 ∧ st.write = decide (m.snat (o + 4) 1 = 1) ∧
        (st.count, st.stride, st.cur) = (counts, strides, curs) ∧ st.ended = decide (m.snat (o + 0x34) 1 = 1) ∧ st.recOff = e.op 0 ∧
        (st.since, st.till) = (e.t v + 6, none) ∧
        (coreOf ((f.op v e).fire v.s.sys) v.core).streams = live.map (till (e.t v + 6)) ++ [st])) ∧
    ((v.c.role v.role).handler = false → ∃ f, backOf (.vunbind d) = some f ∧
      (coreOf ((f.op v e).fire v.s.sys) v.core).streams = live.map (till (e.t v + 1)) ∧
      (∀ st, v.c.streams.find? (fun st => st.reg == d && st.till.isNone) = some st → st.cur.length = 3 →
        (f.op v e).issue () = (let off := field st.recOff 21 0
          spadLandings v e (e.t v + 4 + baseDelay v st.recOff / 2) st.recOff (banksOf (off + 0x28) 13) ((List.range 13).map fun i =>
            (off + 0x28 + i, if i = 12 then BitVec.ofNat 8 (if st.ended then 1 else 0)
              else BitVec.ofNat 8 ((st.cur[i / 4]?).getD 0 / 256 ^ (i % 4)))), [])))

/-- R255, R268: oclaim claims a free operand slot and orelease frees a claimed one that no instruction uses, each at
its issue; otherwise SLOT with the slot's number. aclear lands zero in all 128 rows of its tile, row i at t + 1 + i. R251 to R254:
tshape grants M, N and K as the limits of its types allow, or OPERAND. R258, R262 to R267: under the shape of its issue, mmab gives the
exact partials of a block (a pair at t + C + 8 + i), or adds the ordered sum or the once rounded sum of products to its tile; xscacc
scales a partial and adds it; mmad adds the split-precision product; mtbl lands its table of signed sums in slot OB, and mmal adds the
entries that the weights name. R256, R268: oload lands four vectors a cycle from the scratchpad in its slot at t + 2 + q; aload and
astore move tile rows, at t + 6 + i and t + 4 + i. -/
def Obligations.SlotsAndTiles : Prop :=
  (∀ (v : Env) (e : Entry) (a d : Nat), a < 16 →
    (∃ o, backOf (.oclaim a) = some o ∧
      (o.op v e).check () = (if v.claimBefore a then some (.trap 15 a) else none) ∧
      ∀ y, ∀ n < 16, (coreOf ((o.op v e).fire y) v.core).claimed n = (decide (n = a) || (coreOf y v.core).claimed n)) ∧
    (∃ o, backOf (.orelease a) = some o ∧
      (o.op v e).check () = (if v.claimBefore a = true ∧ v.slotBusy a = false then none else some (.trap 15 a)) ∧
      ∀ y, ∀ n < 16, (coreOf ((o.op v e).fire y) v.core).claimed n = (decide (n ≠ a) && (coreOf y v.core).claimed n)) ∧
    (∃ o, backOf (.aclear d) = some o ∧ (o.op v e).check () = none ∧
      (∀ l ∈ ((o.op v e).issue ()).1, l.tgt = .tile ∧ l.reg = d ∧ (∀ x ∈ l.data, x = 0) ∧ ∃ i < 128, l.due = e.t v + 1 + i ∧ l.row / 2 = i) ∧
      ∀ i < 128, ∀ h < 2, ∃ l ∈ ((o.op v e).issue ()).1, l.due = e.t v + 1 + i ∧ l.row = 2 * i + h ∧ l.enable = 2 ^ 64 - 1)) ∧
  (∀ (v : Env) (e : Entry) (a d : Nat),
    let w := e.op 0
    let ty := fun hi lo => etyOf (field w hi lo)
    let cl := mclass (ty 52 48) (ty 60 56)
    let koff := field w 43 32
    let bad := field w 63 62 ≠ 0 ∨ field w 55 53 ≠ 0 ∨ field w 47 44 ≠ 0 ∨ field w 31 28 ≠ 0 ∨ 18 < field w 60 56 ∨ 18 < field w 52 48 ∨ cl = none
    let cap := fun c => if c = MClass.table then 256 else min (2048 / widthOf (ty 52 48)) (2048 / widthOf (ty 60 56))
    let refused := fun c => (w.testBit 61 = true ∧ c ≠ MClass.table) ∨ cap c ≤ koff ∨ (c = MClass.table ∧ koff % 4 ≠ 0)
    ∃ o, backOf (.tshape d a) = some o ∧
      (bad → (o.op v e).check () = some (.trap 17 0)) ∧
      ∀ c, ¬ bad → cl = some c →
        (refused c → (o.op v e).check () = some (.trap 17 0)) ∧
        (¬ refused c → w < 2 ^ 64 →
          let m := min (max (field w 7 0) 1) 128
          let n := min (max (field w 15 8) 1) 128
          let k := min (min (max (field w 27 16) 1) (kcap c)) (cap c - koff)
          let k := if c = .table then max 4 (4 * (k / 4)) else k
          ∃ tsk, (o.op v e).check () = none ∧ (o.op v e).issue () = ([landCsr v e (e.t v + 1) 0x047 m, landCsr v e (e.t v + 1) 0x048 n,
              landCsr v e (e.t v + 1) 0x049 tsk, landScalar v e (e.t v + 1) d (tsk + m + 256 * n)], []) ∧
            field tsk 15 0 = 0 ∧ field tsk 27 16 = k ∧ field tsk 63 28 = field w 63 28)) ∧
  (∀ (v : Env) (e : Entry) (d a b x : Nat), e.acc = [] →
    let s := v.shape
    let m := s.m
    let n := s.n
    let t := e.t v
    let rm := e.mode.rm
    let f32 := Fmt.ieee 8 23
    let f64 := Fmt.ieee 11 52
    let dr := fun i j => e.draw 1 (128 * i + j) 0
    let A := fun i k => posOf s.ta (v.c.slotVec a i) (s.koff + k)
    let B := fun j k => posOf s.tb (v.c.slotVec b j) (s.koff + k)
    let ks := List.range s.k
    let rows := fun (i : Instr) (c : Nat) (row : Env → Entry → Nat → Nat → (Nat → Nat) → List Landing) (f : Env → Nat → Nat → Nat) =>
      ∃ o, backOf i = some o ∧ ((o.op v e).issue ()).1 = [] ∧
        let e' := { e with issued := some t, acc := ((o.op v e).issue ()).2 }
        ∀ z : Env, (o.op z e').rows = m ∧ ∀ r < m, ∃ g, (o.op z e').sample r = .ok (row z e' (t + c + 8 + r) r g, []) ∧ ∀ j < n, g j = f z r j
    let one := fun (z : Env) (e' : Entry) (due r : Nat) (g : Nat → Nat) => landTileRow z e' due d r n g
    let pair := fun (z : Env) (e' : Entry) (due r : Nat) (g : Nat → Nat) => landPairRow z e' due d r n g
    (s.cls = some .block → ∀ i ∈ [Instr.mmabO d a b, .mmabF d a b], ∃ o, backOf i = some o ∧
      let rho := if s.ta = .i4x8 ∨ s.tb = .i4x8 ∨ s.tb = .w2px4 then 4 else 2
      let term := fun i j k => match unitsOf (fracOf s.ta) ((fmtOf s.ta).val (A i k)), unitsOf (fracOf s.tb) ((fmtOf s.tb).val (B j k)) with
        | some x, some y => some (x * y)
        | _, _ => none
      let P := fun i j => if ∃ k ∈ ks, term i j k = none then 2 ^ 63 else ((ks.map fun k => (term i j k).getD 0).sum % 2 ^ 64).toNat
      ((o.op v e).issue ()).1 = (List.range m).flatMap fun i =>
        landPairRow v e (t + (s.k + rho - 1) / rho + 8 + i) d i n fun j => if j < n then P i j else 0) ∧
    (s.cls = some .fp → s.k ≠ 0 →
      let prod := fun i j k => ((fmtOf s.ta).val (A i k)).mul ((fmtOf s.tb).val (B j k))
      let add := fun (z : Env) i j (x : Nat) => roundTo f32 rm (dr i j) ((f32.val (z.c.tile d i j)).add rm (f32.val x))
      rows (.mmabO d a b) s.k one (fun z i j => add z i j
        (ks.foldl (fun acc k => roundTo f32 rm (dr i j) ((f32.val acc).add rm (prod i j k))) (2 ^ 31))) ∧
      rows (.mmabF d a b) s.k one (fun z i j => add z i j
        (roundTo f32 rm (dr i j) ((ks.drop 1).foldl (fun acc k => acc.add rm (prod i j k)) (prod i j 0))))) ∧
    (s.cls = some .block → rows (.xscacc d a b x) 0 one (fun z i j =>
      let p := z.c.pairElem x i j
      let sc := fun o i => Fmt.sc12.val (v.c.slotNat o (2 * i) 2 % 4096)
      let q := if p = 2 ^ 63 then f32.nan else roundTo f32 rm (dr i j)
        (((Sys2Proof.Machine.Num.fin (decide (sx 64 p < 0)) (sx 64 p).natAbs (-(s.frac : Int)) false).mul (sc a i)).mul (sc b j))
      roundTo f32 rm (dr i j) ((f32.val (z.c.tile d i j)).add rm (f32.val q)))) ∧
    (s.cls = some .fp64 → rows (.mmad d a b) ((s.k * e.vtype * (e.vtype + 1) + 3) / 4) pair (fun z i j =>
      let y := splitDot e.vtype (ks.map fun k => f64.val (A i k)) (ks.map fun k => f64.val (B j k))
      if y = f64.nan then f64.nan else roundTo f64 .rne .none ((f64.val (z.c.pairElem d i j)).add .rne (f64.val y)))) ∧
    (s.cls = some .table →
      (∃ o, backOf (.mtbl a b) = some o ∧
        let signed := fun i g p => ((List.range 4).map fun q =>
          let y := intOf s.ta (A i (4 * g + q))
          if p.testBit q then y else -y).sum
        let entry := fun i q => (signed i (q / 8) (8 + q % 8) % 2 ^ 16).toNat
        ((o.op v e).issue ()).1 = (List.range m).map fun i => landSlot v e (t + (s.k + 7) / 8 + 8) b i (2 ^ s.k - 1)
          ((List.range 64).map fun q => entry i (2 * q) + 65536 * entry i (2 * q + 1))) ∧
      rows (.mmal d a b) ((s.k * s.planes + 7) / 8) one (fun z i j =>
        let tab := v.c.slotVec a i
        let word := v.c.slotVec b j
        let plane := fun h => ((List.range (s.k / 4)).map fun g =>
          let p := ((List.range 4).map fun q => if word.testBit (1024 * h + s.koff + 4 * g + q) then 2 ^ q else 0).sum
          let entry := fun p => sx 16 (tab / 2 ^ (128 * g + 16 * p))
          if 8 ≤ p then entry (p - 8) else -entry (7 - p)).sum
        ((z.c.tile d i j : Int) + (if s.planes = 1 then plane 0 else 2 * plane 1 + plane 0)) % 2 ^ 32 |>.toNat))) ∧
  ∀ (v : Env) (e : Entry) (a d k : Nat),
    let w := e.op 0
    let first := field w 46 40
    let count := field w 39 32
    let off := field w 21 0
    let own := fun (n : Nat) (o : Nat) => spAddr v.s.sys v.core (field w 31 0) = some (v.core, o) ∧ o + n ≤ spadSize v.c.partN
    let clean := fun (n o : Nat) => ∀ j < n, v.c.poisoned (o + j) = false
    (∃ o, backOf (.oload a d) = some o ∧
      ((o.op v e).check () = none ↔ field w 63 47 = 0 ∧ 1 ≤ count ∧ first + count ≤ 128 ∧ off % 256 = 0 ∧ v.c.claimed a = true ∧
        ∃ p, own (256 * count) p ∧ clean (256 * count) p) ∧
      (o.op v e).rows = (count + 3) / 4 ∧ ∀ q, (o.op v e).sample q = .ok ((List.range (min 4 (count - 4 * q))).map fun p =>
        landSlot v e (e.t v + 2 + q) a (first + 4 * q + p) (2 ^ 64 - 1)
          ((List.range 64).map fun c => v.c.snat (off + 1024 * q + 256 * p + 4 * c) 4), [])) ∧
    (let m := v.shape.m
      ∀ i ∈ [Instr.aload d a, .astore d a], ∃ o, backOf i = some o ∧
        (w < 2 ^ 32 → ((o.op v { e with acc := [] }).check () = none ↔
          ∃ p, own (512 * m) p ∧ p % 512 = 0 ∧ (i = .aload d a → clean (512 * m) p))) ∧
        (2 ^ 32 ≤ w → (o.op v e).check () = some (.trap 10 0)) ∧
        ((o.op v e).issue ()).1 = [] ∧
        let e' := { e with issued := some (e.t v), acc := ((o.op v e).issue ()).2 }
        (∀ z : Env, (o.op z e').rows = m) ∧
        (i = .aload d a → ∀ z : Env, (o.op z e').sample k = .ok (landTileRow z e' (e.t v + 6 + k) d k 128 fun j => z.c.snat (off + 512 * k + 4 * j) 4, [])) ∧
        (i = .astore d a → ∀ z : Env, (o.op z e').sample k = .ok ((List.range 2).map fun h =>
          landBlock z e' (e.t v + 4 + k) (w + 512 * k + 256 * h) ((List.range 64).map fun l => z.c.tile d k (64 * h + l)), [])))

/-- R275, R296, R297, R299, R300: a sync instruction of the pair form checks the object's type, then its operand word and
deadline (R300 to R302, R308), then the S7 rule (R192); at its issue it sends its event, with its party, generation, second
operand and ticket, and λ later the answer to that ticket lands in sd and sd + 1, of bwait also VALUE in WGEN; bwait, barshed,
barjoin, acq, acq.m, qrecv, cwait and collwait have the deadline s[sdl]. launch and qproxy go to the own chip's Tulle. rel and
bind send theirs and want no answer (R303, R304). -/
def Obligations.SyncIssue : Prop :=
  ∀ (v : Env) (e : Entry) (d o l : Nat),
    let y := v.s.sys
    let w := e.op 0
    let h := e.op 1
    let msg := fun (dl aux : Nat) => ({
      obj := h, party := w % 256, gen := w / 2 ^ 32 % 2 ^ 32, dl := dl, aux := aux, core := v.core, role := v.role
      launch := launchOf y v.core, ticket := y.nextTicket } : HomeMsg)
    let fits := fun (gen close count : Bool) (party : Nat) =>
      (gen = false → w / 2 ^ 32 % 2 ^ 32 = 0) ∧ w / 2 ^ 17 % 2 ^ 15 = 0 ∧ (close = false → w / 2 ^ 16 % 2 = 0) ∧
      (count = false → w / 2 ^ 8 % 2 ^ 8 = 0) ∧ w % 256 < party
    let checks := fun (op : BackOp) (obj : Nat) (types : List Nat) (ok s7 : Prop) =>
      (typeOf y obj ∉ types → op.check () = some (.trap 16 0)) ∧ (typeOf y obj ∈ types → ¬ ok → op.check () = some (.trap 17 0)) ∧
      (typeOf y obj ∈ types → ok → ¬ s7 → op.check () = some (.trap 16 0)) ∧ (typeOf y obj ∈ types → ok → s7 → op.check () = none)
    let s7 := ∀ x, objOf y h = some x → x.s7 = true → e.afterSf = true
    let pair := fun (x : Instr) (ty : Nat) (deadline : Nat) (ok s7 : Prop) (lam : Nat) =>
      ∃ b, backOf x = some b ∧ (b.op v e).deadline = deadline ∧ (b.op v e).rows = 0 ∧ checks (b.op v e) h [ty] ok s7 ∧
        ((b.op v e).issue ()).1 = [landAnswer v e (e.t v + lam) d 0 y.nextTicket (v.s.gtc + lam),
          landAnswer v e (e.t v + lam) (d + 1) 1 y.nextTicket (v.s.gtc + lam)] ++
          (match x with
            | .bwait _ _ _ => [{ landAnswer v e (e.t v + lam) 0x008 2 y.nextTicket (v.s.gtc + lam) with tgt := .csr }]
            | _ => [])
    let sends := fun (x : Instr) (ev : Instr) (m : HomeMsg) =>
      ∃ b, backOf x = some b ∧ (b.op v e).fire y = sendHome { y with nextTicket := y.nextTicket + 1 } v.s.gtc ev m
    let tulle := fun (x : Instr) (ev : Instr) (m : HomeMsg) =>
      ∃ b, backOf x = some b ∧ (b.op v e).fire y = { y with
        nextTicket := y.nextTicket + 1, sched := y.sched ++ [(v.s.gtc + 20, ev, m)] }
    let home := lambdaOf y v.core h
    let dl := e.op 2
    let plain := fits false false false 64
    let range := w / 256 % 256 ∈ (List.range 193).drop 1 ∧ w % 256 + w / 256 % 256 ≤ 192 ∧ dl % 64 = 0 ∧ dl / 2 ^ 57 % 2 ^ 7 = 0
    (∀ x ∈ [(Instr.arrive d o l, 1, 0), (.coll d o l, 5, 0)], pair x.1 x.2.1 x.2.2 (fits true false false 64 ∧ dl ≠ 0) True home) ∧
    pair (.bwait d o l) 1 dl (fits true false false 64 ∧ dl ≠ 0) True home ∧
    (∀ x ∈ [(Instr.barshed d o l, 1), (.collwait d o l, 5)], pair x.1 x.2 dl (fits true false false 64) True home) ∧
    (∀ x ∈ [(Instr.barjoin d o l, 1), (.acq d o l, 2), (.acqM d o l, 2), (.qrecv d o l, 3)], pair x.1 x.2 dl plain True home) ∧
    pair (.collabort d o) 5 0 plain True home ∧
    pair (.cwait d o l) 4 dl (fits false false false 1) True home ∧ pair (.cancel d o) 4 0 (fits false false false 1) True home ∧
    pair (.qpush d o l) 3 0 (fits false true false 64) s7 home ∧
    pair (.qproxy d o l) 3 0 (fits false true false 64) True 40 ∧
    pair (.launch d o l) 4 0 (fits false false true 256 ∧ range) True 40 ∧
    sends (.arrive d o l) .homeArrive (msg dl 0) ∧ sends (.bwait d o l) .homeBwait (msg dl 0) ∧
    sends (.barshed d o l) .homeBarshed (msg 0 0) ∧ sends (.barjoin d o l) .homeBarjoin (msg 0 0) ∧
    sends (.acq d o l) .homeAcq (msg 0 v.c.lease.toNat) ∧ sends (.acqM d o l) .homeAcq (msg 1 v.c.lease.toNat) ∧
    sends (.qpush d o l) .homeQpush (msg dl (w / 2 ^ 16 % 2)) ∧ sends (.qrecv d o l) .homeQrecv (msg 0 0) ∧
    sends (.cwait d o l) .homeCwait (msg 0 0) ∧ sends (.cancel d o) .homeCancel (msg 0 0) ∧
    sends (.collwait d o l) .homeCollwait (msg dl 0) ∧ sends (.collabort d o) .homeCollabort (msg 0 0) ∧
    tulle (.qproxy d o l) .shadowQproxy (msg dl (w / 2 ^ 16 % 2)) ∧ tulle (.launch d o l) .homeLaunch (msg dl (w / 2 ^ 8 % 2 ^ 8)) ∧
    (∃ b z, backOf (.coll d o l) = some b ∧ (b.op v e).fire y = sendHome z v.s.gtc .homeColl (msg dl 0) ∧
      z = { y with nextTicket := y.nextTicket + 1, cores := z.cores } ∧
      ((coreOf z v.core).colls.map CollRef.key).getLast? = some (h, w / 2 ^ 32 % 2 ^ 32, w % 256)) ∧
    (∃ b, backOf (.rel o) = some b ∧ checks (b.op v e) w [2] True True ∧ ((b.op v e).issue ()).1 = [] ∧
      (b.op v e).fire y = sendHome y v.s.gtc .homeRel { msg 0 0 with obj := w, party := 0, gen := v.s.gtc, ticket := 0 }) ∧
    ∃ b, backOf (.bind o l) = some b ∧ ((b.op v e).issue ()).1 = [] ∧
      ((∃ x, objOf y w = some x ∧ x.window = true) → (b.op v e).check () = some (.trap 16 0)) ∧
      ((∀ x, objOf y w = some x → x.window = false) → checks (b.op v e) w [1, 2]
        (h / 2 ^ 57 % 2 ^ 7 = 0 ∧ h % 8 = 0 ∧ dl / 2 ^ 50 % 2 ^ 14 = 0 ∧ dl % 2 ^ 40 % 8 = 0 ∧ h + dl % 2 ^ 40 ≤ 2 ^ 57 ∧
          (dl / 2 ^ 40 % 2 ^ 8 < 64 ∨ dl / 2 ^ 40 % 2 ^ 8 = 255)) True) ∧
      (b.op v e).fire y = sendHome y v.s.gtc .homeBind { msg h dl with obj := w, party := 0, gen := 0, ticket := 0 }

/-- R275: the event of a core reaches the home of its own die 6 ticks after its issue, of another die 30, and its own
chip's Tulle 20; another chip's Tulle after 4 to 36 + RLAT ticks, the core's own events there in the order of their issue; one to a
removed chip is lost. λ is 8, 56, 40 and 40 + 2 RLAT. An event or answer that is to cross a link which carries no traffic in the next
tick (it stalls, R382 and R383; or GTCSYNC reads 0, R392) comes a tick later: that it waits and is not lost while GTCSYNC is 0 is the
model's reading, log entry 68. R275, R298: the answer of a home of the core's chip is there in the same tick, of
another chip's Tulle after 4 to 4 + RLAT; its status word holds VALUE, WHO and STATUS. An event without a ticket (a
host's, or rel and bind) has no answer. -/
def Obligations.HomeRoutesAndAnswers : Prop :=
  (∀ (y : Sys) (g : Nat) (i : Instr) (m : HomeMsg),
    let home := m.obj / 2 ^ 14 % 8
    let chip := m.obj / 2 ^ 17 % 2 ^ 19
    (home < 4 → sendHome y g i m = { y with sched := y.sched ++ [(g + (if home = dieOf m.core then 6 else 30), i, m)] } ∧
      lambdaOf y m.core m.obj = if home = dieOf m.core then 8 else 56) ∧
    let gone := chipRemoved y (vdKeyOf y m.core) chip = true
    (home = 4 → gone → sendHome y g i m = y) ∧
    (home = 4 → ¬ gone → chip = chipOf m.core % 2 ^ 19 →
      sendHome y g i m = { y with sched := y.sched ++ [(g + 20, i, m)] } ∧ lambdaOf y m.core m.obj = 40) ∧
    (home = 4 → ¬ gone → chip ≠ chipOf m.core % 2 ^ 19 →
      lambdaOf y m.core m.obj = 40 + 2 * (vdOf y (vdKeyOf y m.core)).rlat ∧
      ∃ r, g + 4 ≤ r ∧ sendHome y g i m = { y with free := y.free + 1, sched := y.sched ++ [(r, i, m)] } ∧
        (∀ e ∈ y.sched, e.2.2 ≠ noMsg → e.2.2.core = m.core → e.2.2.obj / 2 ^ 14 = m.obj / 2 ^ 14 → e.1 ≤ r) ∧
        ((∀ e ∈ y.sched, e.2.2.core = m.core → e.2.2.obj / 2 ^ 14 = m.obj / 2 ^ 14 → e.1 ≤ g + 4) →
          r ≤ g + 36 + (vdOf y (vdKeyOf y m.core)).rlat))) ∧
  (∀ (s : State), ∃ t, exec .gtcTick s = .next t ∧
    (∀ g i m far, (g, i, m) ∈ s.sys.sched → eventFar s.sys i m = some far →
      (g ≤ s.gtc + 1 → farDown s.sys (s.gtc + 1) far = true → (s.gtc + 2, i, m) ∈ t.sys.sched) ∧
      (farDown s.sys (s.gtc + 1) far = false → (g, i, m) ∈ t.sys.sched)) ∧
    ∀ (i : Instr) (m : HomeMsg) (far : Nat), isHomeEvent i = true → i ∉ [.homeLaunch, .shadowQproxy] → m.role < 3 →
      m.obj / 2 ^ 14 % 8 = 4 → m.obj / 2 ^ 17 % 2 ^ 19 = far → chipOf m.core = s.sys.mgmt.chip → far ≠ s.sys.mgmt.chip % 2 ^ 19 →
      eventFar s.sys i m = some far ∧ (s.sys.mgmt.ready.getLsbD 6 = false → farDown s.sys (s.gtc + 1) far = true)) ∧
  (∀ (y : Sys) (g : Nat) (m : HomeMsg) (first status who value : Nat), status < 256 → who < 256 → value < 2 ^ 32 →
    let word := status + 256 * who + 2 ^ 32 * value
    (m.ticket = 0 → reply y g m first status who value = y) ∧
    (m.ticket ≠ 0 → isRemote m.core m.obj = false →
      reply y g m first status who value = { y with answers := y.answers ++ [⟨m.ticket, g, first, word, none⟩] }) ∧
    (m.ticket ≠ 0 → isRemote m.core m.obj = true →
      ∃ t, g + 4 ≤ t ∧ t ≤ g + 4 + (vdOf y (vdKeyOf y m.core)).rlat ∧ reply y g m first status who value =
        { y with free := y.free + 1, answers := y.answers ++ [⟨m.ticket, t, first, word, some (farChip y m.core m.obj)⟩] }))

/-! ## Homes: barriers -/

/-- R280: how a generation stands to GEN: open if it is GEN; resolved if it is the last or the one before it and so many have
resolved; ahead if it lies 1 to 2^31 − 1 generations beyond GEN, modulo 2^32; stale in every other case. -/
def Obligations.Generations : Prop :=
  ∀ (gen resolved g : Nat), gen < 2 ^ 32 → g < 2 ^ 32 →
    let back := fun (k : Nat) => (k = 1 ∨ k = 2) ∧ k ≤ resolved ∧ (g + k) % 2 ^ 32 = gen
    let beyond := ∃ k, 1 ≤ k ∧ k ≤ 2 ^ 31 - 1 ∧ (gen + k) % 2 ^ 32 = g
    (genClass gen resolved g = .opened ↔ g = gen) ∧
    (∀ k, genClass gen resolved g = .resolved k ↔ back k) ∧
    (genClass gen resolved g = .ahead ↔ beyond) ∧
    (genClass gen resolved g = .stale ↔ g ≠ gen ∧ (∀ k, ¬ back k) ∧ ¬ beyond)

/-- R281 to R283, R285: the events of a barrier. An arrive of a member in the open generation counts, sets the
deadline or must name it, and is answered OK (of one from another chip, the chip is kept: R388); a bwait is answered AHEAD before the resolution, after it OK or ABSENT
with the absentees; a barshed takes the absentees that have not arrived since out of EXPECT, a barjoin adds its party.
R282: at the deadline of the open generation the barrier resolves: the absentees are the expected parties that have
not arrived, the older mask moves on, GEN advances modulo 2^32, and the next generation is open with nobody arrived
and no deadline. -/
def Obligations.Barriers : Prop :=
  (∀ (s : State) (o : Obj) (b : Barrier), objOf s.sys s.sys.msg.obj = some o → o.body = .barrier b →
    let m := s.sys.msg
    let bit := 1#64 <<< (m.party % 64)
    let kind := genClass o.gen o.resolved m.gen
    let chips := if chipOf m.core = s.sys.mgmt.chip then b.chips else (m.party, chipOf m.core) :: b.chips
    (b.expect.getLsbD m.party = false → exec .homeArrive s = .next (s.answering s.sys 0 6 255 o.gen)) ∧
    (b.expect.getLsbD m.party = true →
      (kind = .opened → b.deadline ≠ 0 → b.deadline ≠ m.dl → exec .homeArrive s = .next (s.answering s.sys 0 5 255 o.gen)) ∧
      (kind = .opened → b.deadline ≠ 0 → b.deadline = m.dl →
        exec .homeArrive s = .next (s.answering (setObj s.sys { o with body := .barrier { b with
          arrived := b.arrived ||| bit, chips := chips } }) 0 0 255 o.gen)) ∧
      (kind = .opened → b.deadline = 0 → s.gtc ≤ m.dl →
        exec .homeArrive s = .next (s.answering (setObj (schedule s.sys m.dl (.barrierResolution o.key) noMsg) { o with
          body := .barrier { b with deadline := m.dl, arrived := b.arrived ||| bit, chips := chips } }) 0 0 255 o.gen)) ∧
      (kind = .ahead → exec .homeArrive s = .next (s.answering s.sys 0 3 255 o.gen)) ∧
      (kind = .stale → exec .homeArrive s = .next (s.answering s.sys 0 4 255 o.gen)) ∧
      (∀ k, kind = .resolved k → exec .homeArrive s = .next (s.answering s.sys (b.absent k).toNat 1 255 o.gen))) ∧
    (∀ k, kind = .resolved k → exec .homeBwait s = .next (s.answering (setObj s.sys o) (b.absent k).toNat
      (if (b.absent k).getLsbD m.party then 2 else if b.expect.getLsbD m.party then 0 else 6) 255 o.gen)) ∧
    (kind = .opened → b.deadline ≠ 0 → b.deadline ≠ m.dl → exec .homeBwait s = .next (s.answering s.sys 0 5 255 o.gen)) ∧
    (kind = .opened → b.deadline ≠ 0 → b.deadline = m.dl →
      exec .homeBwait s = .next (s.answering (setObj s.sys o) 0 3 255 o.gen)) ∧
    (∀ k, kind = .resolved k →
      let x := b.absent k &&& ~~~b.arrived
      exec .homeBarshed s = .next (s.answering (setObj s.sys { o with body := .barrier { b with expect := b.expect &&& ~~~x } })
        x.toNat 0 255 o.gen)) ∧
    (kind = .opened ∨ kind = .ahead → exec .homeBarshed s = .next (s.answering s.sys 0 3 255 o.gen)) ∧
    exec .homeBarjoin s = .next (s.answering (setObj s.sys { o with body := .barrier { b with expect := b.expect ||| bit } })
      0 0 255 o.gen)) ∧
  (∀ (s : State) (h : Nat) (o : Obj) (b : Barrier), objOf s.sys h = some o → o.body = .barrier b →
    (b.deadline ≠ 0 → b.deadline ≤ s.gtc → exec (.barrierResolution h) s = .next { s with sys := setObj s.sys { o with
      gen := (o.gen + 1) % 2 ^ 32, resolved := min (o.resolved + 1) 2
      body := .barrier { b with arrived := 0, chips := [], deadline := 0, abs2 := b.abs1, abs1 := b.expect &&& ~~~b.arrived } } }) ∧
    (b.deadline = 0 ∨ s.gtc < b.deadline → exec (.barrierResolution h) s = .next s))

/-! ## Homes: locks -/

/-- R286, R287, R303: acq of a free lock grants it, with the tick of the acquisition and its lease's expiry, GEN
counting up; the holder's own acq renews the lease; against another holder it is BUSY, with the holder's bit, unless
the lease is over and it is an acq.m, which takes the lock over torn, answered MENDED. A lock whose release is under
way is BUSY. R187, R277: what the abandoned holder wrote in a region bound then is torn for the new holder from then on, and a
release's effect publishes what its holder wrote (units of 8 bytes, kept with the values that a read may take: log entry 28). R186, R287,
R303: rel by the holder's core and role covers every transfer of its core that was issued before it, writes to a region bound for its
party or for all, and is not visible yet; by anyone else, or of a free lock, it does nothing. RELTICK is the tick at which the last
of them is visible (until that is known, the largest XDUE among them, log entry 81); once it is reached the lock is FREE. -/
def Obligations.Locks : Prop :=
  (∀ (s : State) (o : Obj) (l : Lock), objOf s.sys s.sys.msg.obj = some o → o.body = .lock l → o.window = false →
    let m := s.sys.msg
    let expiry := if m.aux = 0 then 2 ^ 64 - 1 else s.gtc + m.aux
    let held := { l with holder := m.party, acqtick := s.gtc, expiry := expiry, hcore := m.core, hrole := m.role }
    let next := (o.gen + 1) % 2 ^ 32
    (l.parties.getLsbD m.party = false → exec .homeAcq s = .next (s.answering s.sys 0 6 255 o.gen)) ∧
    (l.parties.getLsbD m.party = true →
      (l.holder = 255 → l.reltick = 0 →
        exec .homeAcq s = .next (s.answering (setObj s.sys { o with
          gen := next, body := .lock { held with since := s.gtc } }) 0 0 255 next)) ∧
      (l.holder = 255 → l.reltick ≠ 0 → exec .homeAcq s = .next (s.answering s.sys 0 7 255 o.gen)) ∧
      (l.holder ≠ 255 → l.holder = m.party →
        exec .homeAcq s = .next (s.answering (setObj s.sys { o with body := .lock { held with holder := l.holder } }) 0 0 255 o.gen)) ∧
      (l.holder ≠ 255 → l.holder ≠ m.party → s.gtc < l.expiry ∨ m.dl = 0 →
        exec .homeAcq s = .next (s.answering s.sys (2 ^ (l.holder % 64)) 7 l.holder o.gen)) ∧
      (l.holder ≠ 255 → l.holder ≠ m.party → l.expiry ≤ s.gtc → m.dl ≠ 0 → ∃ torn,
        exec .homeAcq s = .next (s.answering { setObj s.sys { o with
            gen := next, torn := true, body := .lock { held with
              prev := l.holder, pcore := l.hcore, psince := l.since, since := s.gtc, mended := o.regions } } with torn := torn }
          (2 ^ (l.holder % 64)) 8 l.holder next) ∧
        ∀ u : TornUnit, (u.obj ≠ o.key → (u ∈ torn ↔ u ∈ s.sys.torn)) ∧
          (u.obj = o.key → (u ∈ torn ↔ ∃ t ∈ s.sys.torn, u = { t with reader := some (m.core, s.gtc) } ∧ (t.reader.isSome ∨
            ∃ a ∈ t.vas, ∃ g ∈ o.regions, 0 < g.len ∧ g.base < a + 8 ∧ a < g.base + g.len)))))) ∧
  (∀ (s : State) (o : Obj) (l : Lock), o.body = .lock l → o.window = false →
    (objOf s.sys s.sys.msg.obj = some o →
      let m := s.sys.msg
      let covered := fun (x : Xfer) => x ∈ s.sys.xfers ∧ x.core = m.core ∧ x.stage < 3 ∧ x.issue < m.gen ∧
        ∃ q ∈ destRanges s.sys x, ∃ g ∈ o.regions, (g.party = l.holder ∨ g.party = 255) ∧ 0 < g.len ∧ 0 < q.2 ∧
          g.base < q.1 + q.2 ∧ q.1 < g.base + g.len
      (l.holder = 255 ∨ l.hcore ≠ m.core ∨ l.hrole ≠ m.role → exec .homeRel s = .next s) ∧
      (l.holder ≠ 255 → l.hcore = m.core → l.hrole = m.role →
        ∃ r cs, (∀ n, n ∈ cs ↔ ∃ x, covered x ∧ x.xid = n) ∧ s.gtc ≤ r ∧ (∀ x, covered x → x.due ≤ r) ∧
          (r = s.gtc ∨ ∃ x, covered x ∧ x.due = r) ∧
          exec .homeRel s = .next { s with
            sys := schedule (setObj s.sys { o with torn := false, body := .lock { l with
              holder := 255, reltick := r, covers := cs, relat := m.gen } }) s.gtc (.lockReleaseEffect o.key) noMsg })) ∧
    ∀ h, objOf s.sys h = some o →
      let under := ∃ n ∈ l.covers, ∃ x ∈ s.sys.xfers, x.xid = n ∧ x.stage < 3
      let again := fun (y : Sys) (g : Nat) => { s with sys := { y with sched := s.sys.sched ++ [(g, .lockReleaseEffect h, noMsg)] } }
      (l.reltick = 0 → exec (.lockReleaseEffect h) s = .next s) ∧
      (l.reltick ≠ 0 → under → exec (.lockReleaseEffect h) s = .next (again s.sys (s.gtc + 1))) ∧
      (l.reltick ≠ 0 → ¬ under → l.covers ≠ [] → exec (.lockReleaseEffect h) s =
        .next (again (setObj s.sys { o with body := .lock { l with reltick := s.gtc, covers := [] } }) s.gtc)) ∧
      (l.covers = [] → s.gtc < l.reltick → exec (.lockReleaseEffect h) s = .next (again s.sys l.reltick)) ∧
      (l.reltick ≠ 0 → l.covers = [] → l.reltick ≤ s.gtc → exec (.lockReleaseEffect h) s = .next { s with
        sys := { setObj s.sys { o with body := .lock { l with reltick := 0 } } with
          torn := s.sys.torn.filter fun u => decide (u.obj ≠ h) || u.reader.isSome } }))

/-- R277, R304: bind replaces the entry of the region table that its descriptor names and no other. -/
def Obligations.RegionBinding : Prop :=
  ∀ (s : State) (o : Obj), objOf s.sys s.sys.msg.obj = some o →
    let m := s.sys.msg
    ∃ o', exec .homeBind s = .next { s with sys := setObj s.sys o' } ∧ { o' with regions := o.regions } = o ∧
      ∀ k < 4, o'.regions[k]? = some (if k = m.aux / 2 ^ 48 % 4 then
        ⟨m.dl, m.aux % 2 ^ 40, m.aux / 2 ^ 40 % 256⟩ else (o.regions[k]?).getD ⟨0, 0, 255⟩)

/-! ## Homes: queues and proxies -/

/-- R289, R290: a push of a producer into a queue with a free slot opens an entry; a closing one commits its own entry and
the producer's open ones, in push order, each taking the next commit order, counts GEN up and tells every consumer; a full queue
answers FULL, a party that is no producer NOTMEMBER. R290: a receive takes the committed entry of the lowest order, answered with
its payload and producer; of a queue with none it is EMPTY, with the producers that have not closed since; a party that is
no consumer NOTMEMBER. An abandoned launch's open entries leave. -/
def Obligations.Queues : Prop :=
  (∀ (s : State) (o : Obj) (q : Queue), objOf s.sys s.sys.msg.obj = some o → o.body = .queue q → s.sys.msg.role ∉ [3, 4] →
    let m := s.sys.msg
    let slot : QSlot := { core := m.core, payload := m.dl, prod := m.party, st := 1, order := 0, launch := m.launch }
    let slots := q.slots ++ [slot]
    let mine := fun (x : QSlot) => x.st = 1 ∧ x.prod = m.party
    (q.producers.getLsbD m.party = false → exec .homeQpush s = .next (s.answering (setObj s.sys o) 0 6 255 0)) ∧
    (q.producers.getLsbD m.party = true → q.cap ≤ q.slots.length →
      exec .homeQpush s = .next (s.answering (setObj s.sys o) 0 10 255 0)) ∧
    (q.producers.getLsbD m.party = true → q.slots.length < q.cap → m.aux ≠ 1 →
      exec .homeQpush s = .next (s.answering (setObj s.sys { o with body := .queue { q with slots := slots } }) 0 0 255 o.gen)) ∧
    (q.producers.getLsbD m.party = true → q.slots.length < q.cap → m.aux = 1 →
      ∃ new, exec .homeQpush s = .next (s.answering (setObj s.sys { o with
          gen := (o.gen + 1) % 2 ^ 32
          body := .queue { q with
            slots := new, nextOrder := q.nextOrder + slots.countP (fun x => decide (mine x))
            since := q.since.map fun w => w ||| (1#64 <<< (m.party % 64)) } })
          0 0 255 ((o.gen + 1) % 2 ^ 32)) ∧ new.length = slots.length ∧
        ∀ k x, slots[k]? = some x → new[k]? = some (if mine x then
          { x with st := 2, order := q.nextOrder + (slots.take k).countP fun z => decide (mine z) } else x))) ∧
  (∀ (s : State) (o : Obj) (q : Queue), o.body = .queue q →
    (objOf s.sys s.sys.msg.obj = some o →
      let m := s.sys.msg
      (q.consumers ≤ m.party → exec .homeQrecv s = .next (s.answering (setObj s.sys o) 0 6 255 0)) ∧
      (m.party < q.consumers → (∀ x ∈ q.slots, x.st ≠ 2) →
        exec .homeQrecv s = .next (s.answering (setObj s.sys { o with body := .queue { q with since := q.since.set m.party 0 } })
          (q.producers &&& ~~~((q.since[m.party]?).getD 0)).toNat 9 255 0)) ∧
      (m.party < q.consumers → ∀ x ∈ q.slots, x.st = 2 → (∀ z ∈ q.slots, z.st = 2 → z ≠ x → x.order < z.order) →
        exec .homeQrecv s = .next (s.answering (setObj s.sys { o with body := .queue { q with
          since := q.since.set m.party 0, slots := q.slots.erase x } }) x.payload 0 x.prod 0))) ∧
    ∀ h launch, objOf s.sys h = some o → exec (.queueAbandonment h launch) s = .next { s with
      sys := setObj s.sys { o with body := .queue { q with slots := q.slots.filter fun x => x.st != 1 || x.launch != launch } } })

/-- R307, R334, R335: a shadow accepts an entry below its 32, to be sent once 8 wait or the oldest is 256 ticks old;
it answers FULL when it holds 32, and first of all with the refusals it counts for the party. A batch that leaves
takes all that waits; at the home each of its entries registers as a push of its own in that tick. One that is refused is counted
at its shadow, and an open one whose launch has been abandoned meanwhile is freed. -/
def Obligations.ProxyEvents : Prop :=
  (∀ (s : State),
    let m := s.sys.msg
    let chip := chipOf m.core
    let w := shadowOf s.sys chip m.obj
    (∀ n, w.refused.find? (fun p => p.1 == m.party && p.2 != 0) = some n →
      exec .shadowQproxy s = .next { s with sys := reply (setShadow s.sys { w with
        refused := w.refused.filter fun q => q.1 != m.party }) s.gtc (s.toTulle) n.2 10 255 w.held }) ∧
    (w.refused.find? (fun p => p.1 == m.party && p.2 != 0) = none →
      (32 ≤ w.held → exec .shadowQproxy s = .next { s with sys := reply s.sys s.gtc s.toTulle 0 10 255 w.held }) ∧
      (w.held < 32 → ∃ t, exec .shadowQproxy s = .next t ∧
        (shadowOf t.sys chip m.obj).waiting = w.waiting ++ [(s.gtc, { m with gen := 0 })] ∧
        (shadowOf t.sys chip m.obj).held = w.held + 1 ∧
        t.sys.sched = s.sys.sched ++ [(if 8 ≤ w.waiting.length + 1 then s.gtc else s.gtc + 256, .proxyBatchSend chip m.obj, noMsg)]))) ∧
  (∀ (s : State) (chip h : Nat),
    let w := shadowOf s.sys chip h
    (w.waiting = [] → exec (.proxyBatchSend chip h) s = .next s) ∧
    (∀ e l, w.waiting = e :: l → l.length < 7 → s.gtc < e.1 + 256 → exec (.proxyBatchSend chip h) s = .next s) ∧
    let home := h / 2 ^ 17 % 2 ^ 19
    (∀ e l, w.waiting = e :: l → 7 ≤ l.length ∨ e.1 + 256 ≤ s.gtc →
      (h / 2 ^ 14 % 8 ≠ 4 ∨ chipRemoved s.sys (vdKeyOf s.sys e.2.core) home = false) →
      ∃ t r, exec (.proxyBatchSend chip h) s = .next t ∧ (shadowOf t.sys chip h).waiting = [] ∧
        (shadowOf t.sys chip h).flying = w.flying ++ [(w.nextBatch, w.waiting.map Prod.snd)] ∧ s.gtc + 4 ≤ r ∧
        t.sys.sched = s.sys.sched ++ [(r, .proxyBatchArrival chip h w.nextBatch, noMsg)])) ∧
  (∀ (s : State) (chip h n : Nat),
    let w := shadowOf s.sys chip h
    let batch := ((w.flying.find? fun b => b.1 == n).map Prod.snd).getD []
    exec (.proxyBatchArrival chip h n) s = .next { s with
      sys := { setShadow s.sys { w with flying := w.flying.filter fun b => b.1 != n } with
        sched := s.sys.sched ++ batch.map fun m => (s.gtc, .homeQpush, { m with role := 4, ticket := 0 }) } }) ∧
  (∀ (s : State) (o : Obj) (q : Queue), objOf s.sys s.sys.msg.obj = some o → o.body = .queue q → s.sys.msg.role = 4 →
    let m := s.sys.msg
    let r := pushQueue o q m.core m.party m.dl m.launch (m.aux == 1)
    let w := shadowOf s.sys (chipOf m.core) m.obj
    let told := ((w.refused.find? fun p => p.1 == m.party).map Prod.snd).getD 0
    (r.2 ≠ 0 → exec .homeQpush s = .next { s with
      sys := setShadow (setObj s.sys r.1) { w with refused := putBy Prod.fst (m.party, told + 1) w.refused } }) ∧
    (r.2 = 0 → m.gen = 0 → exec .homeQpush s = .next { s with sys := setObj s.sys r.1 }) ∧
    (r.2 = 0 → m.gen ≠ 0 → o.key = m.obj → ∀ p, r.1.body = .queue p → ∃ t, exec .homeQpush s = .next t ∧
      objOf t.sys m.obj = some { r.1 with
        body := .queue { p with
          slots := p.slots.filter fun x => x.st != 1 || x.launch != m.launch || chipOf x.core != chipOf m.core } }))

/-! ## Homes: counters -/

/-- R291, R311 to R313, R363: a contributor's first completion counts, any other does nothing. The last one makes the counter DONE
at this tick; the launches that count in it end COMPLETED at this tick, their STATUS and ENDTICK written; its own vector and
theirs are raised, each sent, or pending while it is masked; and its parent and theirs register its completion in the same tick
(that both the list entry's vector and parent and the descriptor's count is the model's reading, log entry 96). cwait answers PENDING, OK or CANCELLED
with PENDMAP and COUNT; cancel makes a RUNNING counter CANCELLED at this tick and answers the state it found. -/
def Obligations.CounterEvents : Prop :=
  ∀ (s : State) (o : Obj) (k : Counter), o.body = .counter k →
    (∀ h c, objOf s.sys h = some o →
      let counted := { k with count := k.count + 1, bitmap := k.bitmap ||| 1 <<< c }
      let done := { o with body := .counter { counted with state := 1, donetick := s.gtc } }
      let ds := s.sys.doms.filter fun d => !d.control && d.launch.counter == h && d.st != .ended
      (k.state ≠ 0 ∨ k.target ≤ c ∨ k.bitmap.testBit c = true → exec (.counterCompletion h c) s = .next s) ∧
      (k.state = 0 → c < k.target → k.bitmap.testBit c = false → k.count + 1 ≠ k.target →
        exec (.counterCompletion h c) s = .next { s with sys := setObj s.sys { o with body := .counter counted } }) ∧
      (k.state = 0 → c < k.target → k.bitmap.testBit c = false → k.count + 1 = k.target →
        (ds = [] → 64 ≤ k.msix → k.hasParent = false → exec (.counterCompletion h c) s = .next { s with sys := setObj s.sys done }) ∧
        ∃ t, exec (.counterCompletion h c) s = .next t ∧ objOf t.sys h = some done ∧
          ((s.sys.doms.map Domain.id).Nodup → ∀ d ∈ ds,
            domAt t.sys d.id = some { d with st := .ended, endStatus := 2, f := d.ttc s.gtc } ∧
            ∀ p ∈ [(0x30, toBytes 4 2), (0x38, toBytes 8 s.gtc)],
              ∀ w ∈ (writeVa s d.vd (d.launch.desc + p.1) (p.2.map fun b => ⟨b, false, 0⟩)).1, w ∈ t.sys.posts) ∧
          (∀ v < 64, v = k.msix ∨ (∃ d ∈ ds, v = d.launch.msix) → s.sys.mgmt.hostGone = false →
            let e := msixAt s.sys (k.vd % 32) v
            (e.mask = false → .send (.msix (k.vd % 32) v e.addr e.data) ∈ t.sys.posts) ∧
            (e.mask = true → msixAt t.sys (k.vd % 32) v = { e with pend := true })) ∧
          (k.hasParent = true → (s.gtc, .counterCompletion k.parent k.ppos, noMsg) ∈ t.sys.sched) ∧
          (∀ d ∈ ds, d.launch.hasParent = true →
            (s.gtc, .counterCompletion d.launch.parent d.launch.ppos, noMsg) ∈ t.sys.sched))) ∧
    (objOf s.sys s.sys.msg.obj = some o →
      exec .homeCwait s = .next (s.answering s.sys k.pendmap (if k.state = 0 then 11 else if k.state = 1 then 0 else 12) 255 k.count) ∧
      (k.state ≠ 0 → exec .homeCancel s = .next (s.answering s.sys k.state 0 255 k.count)) ∧
      (k.state = 0 → o.key = s.sys.msg.obj →
        ∃ t, exec .homeCancel s = .next t ∧ objOf t.sys o.key = some { o with body := .counter { k with
          state := 2, donetick := s.gtc } }))

/-! ## Launches -/

/-- R308: a launch is queued with the device's next sequence number, answered with it, and its counter is RUNNING with
3 × COUNT contributors; a FIFO of 16 answers FULL and changes nothing. R310: the launch unit reaches the head of its
FIFO. What its checks refuse leaves the FIFO, and its counter, if RUNNING, is CANCELLED; what passes them stays as
filled in, and its start is set. An entry that it has served already, and an empty FIFO, it leaves. -/
def Obligations.LaunchesQueuedAndServed : Prop :=
  (∀ (s : State) (o : Obj),
    let m := s.sys.msg
    let vk := vdKeyOf s.sys m.core
    let v := vdOf s.sys vk
    objOf s.sys m.obj = some o → o.key = m.obj →
    (16 ≤ v.fifo.length → exec .homeLaunch s = .next { s with sys := reply s.sys s.gtc s.toTulle 0 10 255 0 }) ∧
    (v.fifo.length < 16 → ∃ t l c, exec .homeLaunch s = .next t ∧ (vdOf t.sys vk).fifo = v.fifo ++ [l] ∧
      (l.seq, l.desc, l.counter, l.first, l.count, l.served) = (v.launchSeq + 1, m.dl, m.obj, m.party, m.aux, false) ∧
      (vdOf t.sys vk).launchSeq = v.launchSeq + 1 ∧
      objOf t.sys m.obj = some { o with gen := 0, resolved := 0, torn := false, body := .counter c } ∧
      (c.state, c.count, c.target, c.bitmap) = (0, 0, 3 * m.aux, 0) ∧
      (m.ticket ≠ 0 → t.sys.answers = s.sys.answers ++ [⟨m.ticket, s.gtc, 0, statusWord 0 255 (v.launchSeq + 1), none⟩]) ∧
      (v.fifo ≠ [] → t.sys.sched = s.sys.sched) ∧
      (v.fifo = [] → ∃ r, s.gtc < r ∧ t.sys.sched = s.sys.sched ++ [(r, .launchUnitServe vk, noMsg)]))) ∧
  (∀ (s : State) (vk : Nat),
    let v := vdOf s.sys vk
    (v.fifo = [] → exec (.launchUnitServe vk) s = .next s) ∧
    ∀ l rest, v.fifo = l :: rest → v.key = vk →
      (l.served = true → exec (.launchUnitServe vk) s = .next s) ∧
      (l.served = false → s.sys.mgmt.fwstate ∈ [.idle, .staging, .staged] →
        (∀ k, serveLaunch s vk (s.gtc + 1 + Config.launchWork s.sys.free) l = .error k →
          ∃ t, exec (.launchUnitServe vk) s = .next t ∧ (vdOf t.sys vk).fifo = rest ∧
            ∀ o c, counterOf s.sys l.counter = some (o, c) → o.key = l.counter →
              objOf t.sys l.counter = some (if c.state = 0 then
                { o with body := .counter { c with state := 2, donetick := s.gtc } } else o)) ∧
        (∀ l' objs, serveLaunch s vk (s.gtc + 1 + Config.launchWork s.sys.free) l = .ok (l', objs) →
          ∃ t, exec (.launchUnitServe vk) s = .next t ∧ (vdOf t.sys vk).fifo = l' :: rest ∧ s.gtc < l'.start ∧
            (∃ q, t.sys.sched = s.sys.sched ++ q ++ [(l'.start, .launchStart vk, noMsg)]) ∧
            ∀ o c, objs = [] → counterOf s.sys l'.counter = some (o, c) → o.key = l'.counter →
              let k := { c with
                hasParent := c.hasParent || l'.hasParent, parent := if c.hasParent then c.parent else l'.parent
                ppos := if c.hasParent then c.ppos else l'.ppos, msix := if c.msix < 64 then c.msix else l'.msix }
              counterOf t.sys l'.counter = some ({ o with body := .counter k }, k))))

/-- R31, R65, R85, R310, R408: at its start tick a launch whose cores are idle, whose frame figure the device's allocation still
holds and whose device runs begins: its domain runs with TTBASE at this tick, and each role of each core has the state of R31,
with the words, the entry point and the scratchpad that the launch unit has loaded for it (R97): an image's SPAD sections in their
order, zero elsewhere. A core that still runs, a figure that passes the allocation, and a device that may start none refuse it; a
launch of the earliest tick waits for its device (R364). -/
def Obligations.LaunchStart : Prop :=
  (∀ (s : State) (vk : Nat) (l : Launch) (rest : List Launch),
    let v := vdOf s.sys vk
    let cores := launchCores v l
    let refused := ∃ t, exec (.launchStart vk) s = .next t ∧ (vdOf t.sys vk).fifo = rest ∧ t.sys.cores = s.sys.cores ∧ t.sys.doms = s.sys.doms
    let idle := ∀ c ∈ cores, ∀ d ∈ s.sys.doms, d.st = .ended ∨ c ∉ d.cores
    let figure := l.count * (l.epf + 1064960)
    let running := (s.sys.doms.filter fun d => d.vd == vk && d.st != .ended && !d.control).foldl (fun a d => a + d.figure) 0
    let granted := (s.sys.mgmt.palloc[vk % 32]?).getD 0 * 2560000
    v.fifo = l :: rest → v.key = vk → l.served = true → l.start ≤ s.gtc →
    (v.st ≠ .running ∨ v.tdi = 3 → l.asap = false → refused) ∧
    (v.st ≠ .running ∨ v.tdi = 3 → l.asap = true → exec (.launchStart vk) s = .next { s with
      sys := { s.sys with sched := s.sys.sched ++ [(s.gtc + 1, .launchStart vk, noMsg)] } }) ∧
    (v.st = .running → v.tdi ≠ 3 → ¬ idle ∨ granted < figure + running → refused) ∧
    (v.st = .running → v.tdi ≠ 3 → idle → cores.Nodup → figure + running ≤ granted →
      ∃ t d, exec (.launchStart vk) s = .next t ∧ (vdOf t.sys vk).fifo = rest ∧ domAt t.sys s.sys.nextDom = some d ∧
        (d.st, d.ttbase, d.vd, d.cores, d.control, d.launch, d.figure) = (.run, s.gtc, vk, cores, false, l, figure) ∧
        ∀ k c, cores[k]? = some c →
          let x := coreOf t.sys c
          let reads := readCsr t c
          x.dom = s.sys.nextDom ∧ x.cfg.getLsbD 0 = l.det ∧ (x.landings, x.pends, x.streams, x.omem, x.claims) = ([], [], [], [], 0) ∧
          (∀ m i, x.mbit m i = decide (m = 0)) ∧ (∀ n, x.slotTag n = 0 ∧ x.ringTag n = 0 ∧ x.ringExpected n = 0) ∧
          (∀ n, x.flagCause n = 0) ∧ x.poison = [] ∧
          ∀ ld, l.loaded[k]? = some ld → x.pool = ld.pool ∧ ∀ q < 3, ∀ w, ld.roles[q]? = some w →
            let r := roleOf t.sys c q
            (r.text, r.textBase, r.pc) = (w.text, BitVec.ofNat 64 w.base, BitVec.ofNat 64 w.pc) ∧
            r.s 1 = BitVec.ofNat 64 l.args ∧ r.s 2 = BitVec.ofNat 64 k ∧
            r.s 3 = BitVec.ofNat 64 cores.length ∧ r.s 4 = BitVec.ofNat 64 (vk / 32) ∧ (∀ n, 5 ≤ n → r.s n = 0) ∧
            (r.p, r.d, r.queue, r.nextSeq, r.armed, r.halted, r.handler) = (-1, 0, [], 0, false, false, false) ∧
            (r.aside, r.hop, r.sacc) = (none, none, none) ∧
            r.mode = { guard := 0, gpol := false, ety := .b32, rm := .rne } ∧
            (∀ n ∈ [0x000, 0x001, 0x002, 0x004, 0x005, 0x006, 0x007, 0x008, 0x009, 0x010, 0x011, 0x012, 0x013, 0x014, 0x015, 0x016,
              0x017, 0x020, 0x021, 0x022, 0x042, 0x043, 0x046, 0x047, 0x048, 0x049, 0x060], reads q n = 0) ∧
            reads q 0x003 = 5 ∧ reads q 0x040 = l.part ∧ reads q 0x044 = BitVec.ofNat 64 (vk % 32) ∧
            reads q 0x045 = BitVec.ofNat 64 v.lease ∧ reads q 0x061 = BitVec.ofNat 64 s.gtc)) ∧
  (∀ (s : State) (vk ready : Nat) (l l' : Launch) (objs : List Obj) (i : Image), serveLaunch s vk ready l = .ok (l', objs) →
    readImage s vk l'.image = some i →
    l'.part = BitVec.ofNat 64 i.part ∧ l'.loaded.length = l.count ∧
    ∀ k < l.count, ∃ ld, l'.loaded[k]? = some ld ∧
      (∀ q < 3, ∃ x, ld.roles[q]? = some x ∧
        ∀ t, i.textOf q k = some t → x.base = i.base + t.off ∧ x.pc = i.base + t.off + t.addr ∧ x.text.length = t.size / 4) ∧
      (∀ a < spadBase i.part, Mem.read ld.pool a = 0) ∧
      let spads := (i.sects.filter fun t => t.typ == 2 && t.core == 0xFFFF) ++ i.sects.filter fun t => t.typ == 2 && t.core == k
      ∀ off,
        ((∀ t ∈ spads, off < t.addr ∨ t.addr + t.mem ≤ off) → Mem.read ld.pool (spadBase i.part + off) = 0) ∧
        ∀ before t after, spads = before ++ t :: after → t.addr ≤ off → off < t.addr + t.mem →
          (∀ u ∈ after, off < u.addr ∨ u.addr + u.mem ≤ off) →
          Mem.read ld.pool (spadBase i.part + off) = (((i.bytes s vk t).getD [])[off - t.addr]?).getD 0)

/-! ## Collectives -/

/-- R324, R332, R333: coll of a party in the open generation counts, answered OK; collwait answers AHEAD, PENDING with
the ticks that are left, OK, ABSENT or CANCELLED; collabort aborts a running walk and answers the state it found
otherwise; the aborted walk sets no tag and delivers but the iterations it has begun. R324, R325: at its deadline the generation resolves: the absentees are fixed, the walk runs from W0 = the
later of now and PDONE1, PDONE1 becomes W0 + SPAN, GEN counts up; a walk of no party is DONE at W0, any other is under way
until then. R324, R329: a walk is over, and DONE where its generation is the last resolved, in the tick after it has made its last delivery, beside
whatever walk follows it; one that is not acts again at the next tick; an event of a walk that is gone does nothing. That a walk
moves its units in ticks of their own, with the walk of the next generation listed beside it until it ends, is log entry 26. -/
def Obligations.Collectives : Prop :=
  (∀ (s : State) (o : Obj) (c : Coll), collOf s.sys s.sys.msg.obj = some (o, c) →
    let m := s.sys.msg
    let kind := collClass o m.gen
    (c.expect.getLsbD m.party = false → ∀ i ∈ [Instr.homeColl, .homeCollwait, .homeCollabort],
      exec i s = .next (s.answering s.sys 0 6 255 o.gen)) ∧
    (c.expect.getLsbD m.party = true →
      (kind = .opened → c.deadline ≠ 0 → c.deadline ≠ m.dl → exec .homeColl s = .next (s.answering s.sys 0 5 255 o.gen)) ∧
      (kind = .opened → c.deadline ≠ 0 → c.deadline = m.dl →
        exec .homeColl s = .next (s.answering (setObj s.sys { o with body := .coll { c with
          arrived := c.arrived ||| (1#64 <<< (m.party % 64)) } }) 0 0 255 o.gen)) ∧
      (kind = .opened → c.deadline = 0 → s.gtc ≤ m.dl →
        exec .homeColl s = .next (s.answering (setObj (schedule s.sys m.dl (.collResolution o.key) noMsg) { o with
          body := .coll { c with deadline := m.dl, arrived := c.arrived ||| (1#64 <<< (m.party % 64)) } }) 0 0 255 o.gen)) ∧
      (∀ k, kind = .resolved k → exec .homeColl s = .next (s.answering s.sys c.abs1.toNat 1 255 o.gen)) ∧
      (kind = .opened ∨ kind = .ahead → exec .homeCollwait s = .next (s.answering s.sys 0 3 255 o.gen)) ∧
      (kind = .stale → exec .homeCollwait s = .next (s.answering s.sys 0 4 255 o.gen)) ∧
      (∀ k, kind = .resolved k → exec .homeCollwait s = .next (
        if c.abs1.getLsbD m.party then s.answering s.sys c.abs1.toNat 2 255 o.gen
        else if c.state1 = 1 then s.answering s.sys c.abs1.toNat 0 255 o.gen
        else if c.state1 = 0 then s.answering s.sys c.abs1.toNat 11 255 (min (c.pdone1 - s.gtc) (2 ^ 32 - 1))
        else s.answering s.sys c.abs1.toNat 12 255 o.gen)) ∧
      (c.state1 = 0 → exec .homeCollabort s = .next (s.answering (setObj s.sys { o with body := .coll { c with
        state1 := 2, walks := c.walks.map fun w => if (w.gen + 1) % 2 ^ 32 = o.gen then
          { w with aborted := true, left := w.left.filter fun u => w.opened.contains (u.rank, u.it) } else w } }) 0 0 255 o.gen)) ∧
      (c.state1 ≠ 0 → exec .homeCollabort s = .next (s.answering s.sys c.state1 0 255 o.gen)))) ∧
  (∀ (s : State) (h gen : Nat) (o : Obj) (c : Coll), collOf s.sys h = some (o, c) → o.key = h →
    let absent := c.expect &&& ~~~c.arrived
    let w0 := max s.gtc c.pdone1
    (c.deadline = 0 ∨ s.gtc < c.deadline → exec (.collResolution h) s = .next s) ∧
    (c.deadline ≠ 0 → c.deadline ≤ s.gtc → o.gen < 2 ^ 32 →
      ∃ t c', exec (.collResolution h) s = .next t ∧
        objOf t.sys h = some { o with gen := (o.gen + 1) % 2 ^ 32, resolved := min (o.resolved + 1) 2, body := .coll c' } ∧
        (c'.arrived, c'.deadline, c'.abs1, c'.w0, c'.pdone1) = (0, 0, absent, w0, w0 + c.span) ∧
        (c.expect &&& c.arrived = 0 → w0 = s.gtc → c'.state1 = 1 ∧ c'.walks = c.walks ∧ t.sys.sched = s.sys.sched) ∧
        (c.expect &&& c.arrived ≠ 0 ∨ w0 ≠ s.gtc → c'.state1 = 0 ∧ ∃ w, c'.walks = c.walks ++ [w] ∧
          (w.gen, w.absent, w.due, w.begun, w.aborted) = (o.gen, absent, w0 + c.span, false, false) ∧
          w.next = (if c.expect &&& c.arrived = 0 then w0 else w0 + 1) ∧
          t.sys.sched = s.sys.sched ++ [(w.next, .collWalkDone h o.gen, noMsg)])) ∧
    ((∀ w ∈ c.walks, w.gen = gen → w.next ≠ s.gtc) → exec (.collWalkDone h gen) s = .next s) ∧
    (∀ w p, c.walks.find? (fun w => w.gen == gen && w.next == s.gtc) = some w → c.plan = some p → w.aborted = false →
      (p.tagset = false → walkParties s.sys o.vdid p c.expect w.absent = [] ∨ (w.begun = true ∧ w.left = []) →
        exec (.collWalkDone h gen) s = .next { s with sys := setObj s.sys { o with body := .coll { c with
          walks := c.walks.filter fun v => v.gen != gen
          state1 := if o.gen = (gen + 1) % 2 ^ 32 then 1 else c.state1 } } }) ∧
      (walkParties s.sys o.vdid p c.expect w.absent ≠ [] → w.begun = false ∨ w.left ≠ [] →
        ∃ t c' w', exec (.collWalkDone h gen) s = .next t ∧ objOf t.sys h = some { o with body := .coll c' } ∧ c'.state1 = c.state1 ∧
          w' ∈ c'.walks ∧ (w'.gen, w'.absent, w'.due, w'.next) = (gen, w.absent, w.due, s.gtc + 1) ∧
          t.sys.sched = s.sys.sched ++ [(s.gtc + 1, .collWalkDone h gen, noMsg)])))

/-! ## Transfers -/

/-- R170, R171, R77: an xgo that passes its checks is decided at issue: admitted, its ID and XDUE land at t + 4, at
least 8 ticks after its issue, no earlier than its channel's last; refused, the reason. An admitted one is an entry of
its channel, none of whose words is read yet, and it acts at the next tick: a copy or a gang delivery moves, the others read
their indices or ciphertext first (that units move one by one, from some tick on in every idle bank-cycle so that the promise is
kept, is the model's choice, log entry 20).
R175: xdrain traps on bits above 8 of its selector; its answer lands at t + 4: of each masked channel how many entries issued before
it remain and whether it holds an error, or the oldest error of the lowest masked channel that has one, which is then taken. R154,
R176: pgreq posts one event of party 62 to the device's request queue for each granule that its addresses touch and that no
translation holds, in the order of first touch, at most 1024. R177, R189, R314: xfence orders each asynchronous To class after what
the From classes have under way and leaves the others; with VEC or MAT in To it raises the early wait while some From transfer,
walk or host access is not over. sfence raises it while any access of the core is not over, and orders every class. -/
def Obligations.TransferAdmission : Prop :=
  ∀ (v : Env) (e : Entry) (d a : Nat), ∃ b, backOf (.xgo d a) = some b ∧
    let op := b.op v e
    let x := e.shadow
    let ch := x.xchan.toNat % 8
    (shadowOk x = false → op.check () = some (.trap 17 0)) ∧
    (shadowOk x = true → placesOk v.s.sys v.core e.vl x = false → op.check () = some (.trap 10 0)) ∧
    (∀ k, decideXgo v e = .error k →
      (op.issue ()).1 = [landScalar v e (e.t v + 4) d (k * 2 ^ 16), landCsr v e (e.t v + 4) 0x009 0] ∧
      (op.fire v.s.sys).xfers = v.s.sys.xfers ∧ (op.fire v.s.sys).sched = v.s.sys.sched) ∧
    (∀ due, decideXgo v e = .ok due →
      v.s.gtc + 8 ≤ due ∧ (v.c.chanAt ch).lastDue ≤ due ∧ (e.op 0 = 0 ∨ due ≤ e.op 0) ∧ (outstanding v.s.sys v.core ch).length < 127 ∧
      (op.issue ()).1 = [landScalar v e (e.t v + 4) d (ch * 2 ^ 13 + (v.c.chanAt ch).nextId), landCsr v e (e.t v + 4) 0x009 due] ∧
      ∃ q, (op.fire v.s.sys).xfers = v.s.sys.xfers ++ [q] ∧
        (q.core, q.role, q.chan, q.id, q.issue, q.due, q.status, q.shadow) =
          (v.core, v.role, ch, ch * 2 ^ 13 + (v.c.chanAt ch).nextId, v.s.gtc, due, 0, x) ∧ q.urge ≤ due ∧
        q.kind = (if x.gang then 6 else x.mode) ∧ q.stage = (if q.kind = 0 ∨ q.kind = 6 then 1 else 0) ∧
        (∀ m ∈ q.moves, ∀ w ∈ m.src, w.2 = none) ∧
        (op.fire v.s.sys).sched = v.s.sys.sched ++ [(v.s.gtc + 1, .transferDelivery v.core q.xid 1,
          { noMsg with party := v.dom.indexOf v.core * 2 ^ 64 + q.xid })]) ∧
    (∀ dd aa bb, ∃ n, backOf (.xdrain dd aa bb) = some n ∧
      let sel := e.op 0
      let masked := fun (c : Nat) => c < 8 ∧ sel.testBit c = true
      let errs := fun (c : Nat) => (v.c.chanAt c).errors
      (n.op v e).deadline = e.op 1 ∧
      (sel / 512 ≠ 0 → (n.op v e).check () = some (.trap 17 0)) ∧ (sel / 512 = 0 → (n.op v e).check () = none) ∧
      (sel.testBit 8 = false → (n.op v e).fire v.s.sys = v.s.sys ∧
        ∃ val, ((n.op v e).issue ()).1 = [landScalar v e (e.t v + 4) dd val] ∧ ∀ c, val / 256 ^ c % 256 = if masked c then
            ((outstanding v.s.sys v.core c).filter fun q => q.issue < v.s.gtc).length % 128 + (if errs c = [] then 0 else 128)
          else 0) ∧
      (sel.testBit 8 = true → (∀ c, masked c → errs c = []) →
        ((n.op v e).issue ()).1 = [landScalar v e (e.t v + 4) dd 0] ∧ (n.op v e).fire v.s.sys = v.s.sys) ∧
      (sel.testBit 8 = true → ∀ c id st rest, masked c → errs c = (id, st) :: rest → (∀ k < c, masked k → errs k = []) →
        ((n.op v e).issue ()).1 = [landScalar v e (e.t v + 4) dd (id + st * 2 ^ 16)] ∧
        ((coreOf ((n.op v e).fire v.s.sys) v.core).chanAt c).errors = rest ∧
        ∀ k < 8, k ≠ c → ((coreOf ((n.op v e).fire v.s.sys) v.core).chanAt k).errors = errs k)) ∧
    (∀ dd aa bb, ∃ n, backOf (.pgreq dd aa bb) = some n ∧ (n.op v e).check () = none ∧ ((n.op v e).issue ()).1 = [] ∧
      let vk := vdKeyOf v.s.sys v.core
      let size := if wideOf e.mode.ety then 8 else 4
      let now : State := { v.s with sys := { v.s.sys with cached := [] } }
      let grans := requestGranules (e.op 0) (e.op 1) (sx 64 (e.op 2)) size
      let need := (grans.filter fun q => (xlate now vk (q * 65536)).isNone).take 1024
      let ia := fun (q : Nat) => ((stage1 now vk (q * 65536)).map fun p => p.1 / 65536).getD q
      let queue := (vdOf v.s.sys vk).pgqueue
      grans.Nodup ∧
      (∀ q, q ∈ grans ↔ ∃ j < min (e.op 0) (2 ^ 20), ∃ p < size, (p = 0 ∨ p = size - 1) ∧
        let lo := wrap 64 ((e.op 1 : Int) + sx 64 (e.op 2) * (j : Int))
        let hi := (lo + size - 1) % 2 ^ 64
        lo < 2 ^ 57 ∧ hi < 2 ^ 57 ∧ q = (if p = 0 then lo else hi) / 65536) ∧
      (homeField queue ≠ 4 ∨ chipRemoved v.s.sys vk (chipField queue) = false →
        ∃ ev, ((n.op v e).fire v.s.sys).sched = v.s.sys.sched ++ ev ∧ ev.length = need.length ∧
          ∀ (k q : Nat), need[k]? = some q → ∃ r m, ev[k]? = some (r, .homeQpush, m) ∧ v.s.gtc < r ∧
            (m.obj, m.party, m.aux, m.core) = (queue, 62, 1, v.core) ∧
            m.dl = ia q % 2 ^ 41 + v.dom.indexOf v.core * 2 ^ 41)) ∧
    (∀ f w, ∃ n, backOf (.xfence f w) = some n ∧
      let c := v.c
      let vk := vdKeyOf v.s.sys v.core
      let xfr := ∃ q ∈ v.s.sys.xfers, q.core = v.core ∧ q.stage < 3 ∧ q.kind ≠ 5 ∧ q.issue < v.s.gtc
      let col := ∃ r ∈ c.colls, collPending v.s.sys v.core r.key = true
      let late := (w.testBit 0 = true ∨ w.testBit 2 = true) ∧
        ((f.testBit 1 = true ∧ xfr) ∨ (f.testBit 3 = true ∧ col) ∨ (f.testBit 4 = true ∧ hostDeferred v.s.sys vk = true))
      let now := coreOf ((n.op v e).fire v.s.sys) v.core
      let covers := fun (z : Wait) =>
        (f.testBit 0 = true ∨ f.testBit 2 = true → ∀ p ∈ timedOut v.s.sys v.core, p ∈ z.ents) ∧
        (f.testBit 1 = true → ∀ q ∈ v.s.sys.xfers, q.core = v.core → q.stage < 3 → q.kind ≠ 5 → q.issue < v.s.gtc → q.xid ∈ z.xids) ∧
        (f.testBit 3 = true → ∀ r ∈ c.colls, collPending v.s.sys v.core r.key = true → r.key ∈ z.colls) ∧
        (f.testBit 4 = true → hostDeferred v.s.sys vk = true → z.host = true)
      let keeps := fun (old z : Wait) => (∀ p ∈ old.ents, entPending v.s.sys v.core p = true → p ∈ z.ents) ∧
        (∀ i ∈ old.xids, (∃ q ∈ v.s.sys.xfers, q.xid = i ∧ q.stage < 3) → i ∈ z.xids) ∧
        (∀ r ∈ old.colls, collPending v.s.sys v.core r = true → r ∈ z.colls) ∧ (old.host = true → z.host = true)
      let bit := fun (i : Nat) (old z : Wait) => (w.testBit i = false → z = old) ∧ (w.testBit i = true → covers z ∧ keeps old z)
      (late → (n.op v e).ready () = false ∧ (n.op v e).check () = some (.fault 4)) ∧
      (¬ late → (n.op v e).ready () = true ∧ (n.op v e).check () = none) ∧
      bit 1 c.toXfr now.toXfr ∧ bit 3 c.toCol now.toCol ∧ bit 4 c.toHst now.toHst) ∧
    ∀ s, ∃ n m, backOf (.sfence s) = some n ∧ backOf (.xfence 31 26) = some m ∧
      let vk := vdKeyOf v.s.sys v.core
      let late := (∃ q ∈ v.s.sys.xfers, q.core = v.core ∧ q.stage < 3 ∧ q.kind ≠ 5 ∧ q.issue < v.s.gtc) ∨
        (∃ r ∈ v.c.colls, collPending v.s.sys v.core r.key = true) ∨ hostDeferred v.s.sys vk = true ∨
        scalarOut v = true ∨ (v.dom.st = .run ∧ spadOut v = true)
      (late → (n.op v e).ready () = false ∧ (n.op v e).check () = some (.fault 4)) ∧
      (¬ late → (n.op v e).ready () = true ∧ (n.op v e).check () = none) ∧
      (n.op v e).fire v.s.sys = (m.op v e).fire v.s.sys

/-- R76, R150, R151, R153, R171 to R175: in each tick (phase 1) a transfer sets the tags of the slots and ring registers of a core
into which it has written all, one that is all written leaves its channel after the channel's earlier entries, and the channel
records its error; any other acts again (phase 0: its units move). From its urgent tick on (log entry 20: in which ticks units move
before it is free) one that waits for nothing reads each word of memory, and each word of a scratchpad whose bank is idle, and
writes each unit that is read, after the channel's earlier entries, each word with the flag and poison of what was read; into a
page with HOSTSH one container in a tick (R190). A poisoned word is zero in a ring register (the model's choice, log entry 49). A
decrypt moves its plaintext, or nothing where it fails. R174: xtag sets the slot's tag and answers the old one (in which tick an
answer that comes before the write finds it is log entry 19). R147, R188: an invalidation drops the cached stage-1 translations of
its range once every earlier entry of the channel is visible and what it waits for is over, and leaves its channel at a later
tick, once no transfer of its device uses a dropped one. -/
def Obligations.TransfersAndInvalidations : Prop :=
  (∀ (s : State) (core xid : Nat) (x : Xfer), xferOf s.sys xid = some x → x.stage < 3 →
    s.sys.xfers.map (fun t => if t.xid = xid then x else t) = s.sys.xfers →
    let vk := vdKeyOf s.sys x.core
    let tagDue := fun (p : Nat × Nat) => x.stage ≠ 0 ∧ ∀ m ∈ x.moves, ∀ d, m.dst = some d → placeCore d ≠ p.1
    let free := waitMet s.sys x.core x.shadow.toMemory x.after = true ∧ behindXinv s.sys x = false
    let off := fun (d : Nat) => placeOff d - spadBase (coreOf s.sys (placeCore d)).partN
    let page := fun (a : Nat) => (xlate s vk (a / 65536 * 65536)).map fun q => q.shift (a % 65536)
    let bank := fun (p : Nat) => placeOff p / 16 % 64
    let idle := fun (ps : List Nat) =>
      (∀ p ∈ ps, let d := domOfCore s.sys (placeCore p)
        (takenBanks backOf s d (d.ttc s.gtc) (placeCore p)).testBit (bank p) = false) ∧
      ∀ p ∈ ps, ∀ q ∈ ps, placeCore p = placeCore q → bank p = bank q → placeOff p / 16 = placeOff q / 16
    let unread := x.moves.flatMap fun m => (m.src.filter fun w => w.2.isNone).map Prod.fst
    let allRead := ∀ m ∈ x.moves, ∀ w ∈ m.src, w.2.isSome
    let plain := x.trans = [] ∧ x.crossed = [] ∧ anyStall s.sys s.gtc = false ∧ x.after.ents = [] ∧ ∀ t ∈ s.sys.xfers, t.kind ≠ 4
    let urgent := free ∧ x.urge ≤ s.gtc
    let moves := fun (t : State) (y : Xfer) => exec (.transferDelivery core xid 0) s = .next t ∧ xferOf t.sys xid = some y
    (∀ p ∈ x.tags, tagDue p → ∃ t, exec (.transferDelivery core xid 1) s = .next t ∧
      (x.kind ≠ 6 → (coreOf t.sys p.1).slotTag p.2 = x.shadow.tag) ∧
      (x.kind = 6 → p.2 < 8 → (coreOf t.sys p.1).ringTags[p.2]? = some (BitVec.ofNat 16 x.shadow.tag))) ∧
    (x.tags = [] → x.stage = 2 → channelBusy s.sys x 3 = false →
      (x.status = 0 → exec (.transferDelivery core xid 1) s = .next { s with
        sys := { s.sys with xfers := s.sys.xfers.filter fun y => y.xid != xid } }) ∧
      (x.status ≠ 0 → x.chan < 8 → ∃ t, exec (.transferDelivery core xid 1) s = .next t ∧
        t.sys.xfers = s.sys.xfers.filter (fun y => y.xid != xid) ∧
        let old := ((coreOf s.sys x.core).chanAt x.chan).errors
        let now := ((coreOf t.sys x.core).chanAt x.chan).errors
        ((∀ r ∈ old, r.2 ≠ 15) → old.length < 16 → now = old ++ [(x.id, x.status)]) ∧ ((∃ r ∈ old, r.2 = 15) → now = old))) ∧
    (x.tags = [] → x.stage < 2 ∨ channelBusy s.sys x 3 = true → exec (.transferDelivery core xid 1) s = .next { s with
      sys := { s.sys with sched := s.sys.sched ++
        [(s.gtc + 1, .transferDelivery x.core xid 1,
          { noMsg with party := (domOfCore s.sys x.core).indexOf x.core * 2 ^ 64 + xid })] ++
        if x.stage < 2 then [(s.gtc, .transferDelivery x.core xid 0, { noMsg with party := xid })] else [] } }) ∧
    (¬ free ∨ x.stage = 2 → exec (.transferDelivery core xid 0) s = .next s) ∧
    (urgent → plain → x.stage = 1 → x.shadow.fromMemory = true → ∃ t y, moves t y ∧ ∀ m ∈ y.moves, ∀ w ∈ m.src, ∃ r, w.2 = some r ∧
      ((∃ n ∈ x.moves, (w.1, some r) ∈ n.src) ∨ r = memWord s x vk w.1 (page w.1))) ∧
    (urgent → plain → x.stage = 0 → x.kind = 3 → x.shadow.fromMemory = true → ¬ allRead → ∃ t y, moves t y ∧
      let r := decryptSource s.sys x (x.moves.flatMap fun m => m.src.map fun w => w.2.getD (memWord s x vk w.1 (page w.1)))
      (r.1 ≠ 0 → (y.stage, y.moves, y.status) = (2, [], r.1)) ∧ (r.1 = 0 → y.stage ≠ 0)) ∧
    (urgent → x.after.ents = [] → x.stage = 1 → x.shadow.fromMemory = false → idle unread → (∀ m ∈ x.moves, ∃ w ∈ m.src, w.2 = none) →
      ∃ t y, moves t y ∧ y.moves.map Move.dst = x.moves.map Move.dst ∧ ∀ m ∈ y.moves, ∀ w ∈ m.src, ∃ r, w.2 = some r ∧
        ((∃ n ∈ x.moves, (w.1, some r) ∈ n.src) ∨ r = poolWord s.sys x w.1)) ∧
    (urgent → x.after.ents = [] → x.stage = 0 → x.kind = 1 ∨ x.kind = 2 → idle unread →
      ∃ t y, moves t y ∧ y.stage ≠ 0 ∧ y.idx = x.moves.flatMap fun m => m.src.map fun w => (w.2.getD (poolWord s.sys x w.1)).1) ∧
    (x.stage = 0 → x.kind = 3 → free → allRead →
      let r := decryptSource s.sys x (x.moves.flatMap Move.words)
      ∃ t y, moves t y ∧ (r.1 ≠ 0 → (y.stage, y.moves, y.status) = (2, [], r.1)) ∧
        (r.1 = 0 → y.status = x.status ∧ y.moves.flatMap Move.words = r.2.map fun v => (v, false, 0))) ∧
    (x.stage = 1 → channelBusy s.sys x 2 = true → ∃ t y, moves t y ∧ y.moves.map Move.dst = x.moves.map Move.dst ∧
      ∀ c b, (coreOf t.sys c).sbyte b = (coreOf s.sys c).sbyte b) ∧
    (x.stage = 1 → channelBusy s.sys x 2 = false → urgent → (∀ m ∈ x.moves, m.dst.isSome) → allRead →
      (x.shadow.toMemory = false → (x.moves.filterMap Move.dst).Nodup → idle (x.moves.filterMap Move.dst) →
        (∀ m ∈ x.moves, ∃ d a r, m = ⟨some d, [(a, some r)]⟩ ∧ d % 4 = 0 ∧ r.1 < 2 ^ 32 ∧
          (x.kind ≠ 6 → spadBase (coreOf s.sys (placeCore d)).partN ≤ placeOff d)) →
        ∃ t y, moves t y ∧ y.stage = 2 ∧ y.moves = [] ∧
          (∀ d a r, (⟨some d, [(a, some r)]⟩ : Move) ∈ x.moves →
            (x.kind = 6 → Mem.nat (coreOf t.sys (placeCore d)).pool (placeOff d) 4 = if r.2.1 then 0 else r.1) ∧
            (x.kind ≠ 6 → (coreOf t.sys (placeCore d)).snat (off d) 4 = r.1 ∧
              (coreOf t.sys (placeCore d)).flagCause (off d / 4) = r.2.2 ∧
              (x.whole = [] → r.2.1 = true → (coreOf t.sys (placeCore d)).poisoned (off d) = true))) ∧
          (∀ c b, (∀ d, some d ∈ x.moves.map Move.dst → placeCore d = c → b < placeOff d ∨ placeOff d + 4 ≤ b) →
            Mem.read (coreOf t.sys c).pool b = Mem.read (coreOf s.sys c).pool b)) ∧
      (x.shadow.toMemory = true → plain → (∀ m ∈ x.moves, ∀ d, m.dst = some d → badTables s vk d (4 * m.src.length) = []) →
        let put := fun (m : Move) (f : Option Bool) => writeX s vk (m.dst.getD 0) (page (m.dst.getD 0)) (wordBytes m.words) f
        let hostsh := fun (m : Move) => ∃ q, page (m.dst.getD 0) = some q ∧ q.hostsh = true
        ((∀ m ∈ x.moves, ¬ hostsh m) → ∃ t y fs, moves t y ∧ y.stage = 2 ∧ y.moves = [] ∧ fs.length = x.moves.length ∧
          t.sys.cores = s.sys.cores ∧ t.sys.posts = s.sys.posts ++ ((x.moves.zip fs).flatMap fun p => (put p.1 p.2).1) ∧
          y.status = (x.moves.zip fs).foldl (fun st p => max st (put p.1 p.2).2) x.status) ∧
        ∀ d w ws rest, x.moves = ⟨some d, w :: ws⟩ :: rest → (∀ m ∈ x.moves, hostsh m) → ∃ t y f, moves t y ∧
          t.sys.posts = s.sys.posts ++ (put ⟨some d, [w]⟩ f).1 ∧
          y.moves = (if ws = [] then rest else ⟨some (d + 4), ws⟩ :: rest))) ∧
    (∀ c b, spAddr s.sys x.core x.shadow.xdst.toNat = some (c, b) →
      (∃ t, exec (.transferDelivery core xid 3) s = .next t ∧ (coreOf t.sys c).slotTag (b / 4096) = x.shadow.tag ∧
        t.sys.xfers = s.sys.xfers.filter fun y => y.xid != xid) ∧
      exec (.transferDelivery core xid 4) s = .next { s with
        sys := { s.sys with answers := s.sys.answers ++ [⟨x.id, s.gtc, (coreOf s.sys c).slotTag (b / 4096), 0, none⟩] } })) ∧
  (∀ (s : State) (core xid : Nat) (x : Xfer), xferOf s.sys xid = some x →
    let vk := vdKeyOf s.sys x.core
    let wide := fun (y : Sys) => { y with sched := s.sys.sched ++ [(s.gtc + 1, .xinvComplete x.core xid, { noMsg with party := xid })] }
    (x.stage = 0 → channelBusy s.sys x 3 = false → waitMet s.sys x.core true x.after = true →
      ∃ t, exec (.xinvComplete core xid) s = .next t ∧ { t.sys with cached := s.sys.cached } =
          wide { s.sys with xfers := s.sys.xfers.map fun t => if t.xid = xid then { x with stage := 1 } else t } ∧
        ∀ c, c ∈ t.sys.cached ↔ c ∈ s.sys.cached ∧ ¬ (c.vd = vk ∧ c.st2 = false ∧ (x.shadow.xcount0 = 0 ∨
          (x.shadow.xsrc.toNat / 65536 ≤ c.page ∧ c.page < x.shadow.xsrc.toNat / 65536 + x.shadow.xcount0.toNat)))) ∧
    (x.stage = 0 → channelBusy s.sys x 3 = true ∨ waitMet s.sys x.core true x.after = false →
      exec (.xinvComplete core xid) s = .next { s with sys := wide s.sys }) ∧
    (x.stage ≠ 0 → usesOld s vk false x.shadow.xsrc.toNat x.shadow.xcount0.toNat = true →
      exec (.xinvComplete core xid) s = .next { s with sys := wide s.sys }) ∧
    (x.stage ≠ 0 → usesOld s vk false x.shadow.xsrc.toNat x.shadow.xcount0.toNat = false →
      exec (.xinvComplete core xid) s = .next { s with
        sys := { s.sys with xfers := s.sys.xfers.filter fun y => y.xid != xid } }))

/-- R144: a translation takes one entry of the run of the addressed one (which is free, log entry 33). R147: it uses what the tables
give, or an old value that a cache of the virtual device still holds for that stage and page (which is free, log entry 20); with
none held, the former. R187: in a unit torn for the core, a read takes all bytes from one value, the one published by the last
release or one written by the abandoned holder (which is free, log entry 28); elsewhere it reads as any reader does. R187: a
holder's write to a unit keeps the published value beside it; a new holder's write repairs the unit; a late write of the abandoned
holder is one more that a read may take. -/
def Obligations.OldValuesRead : Prop :=
  (∀ (rd : Nat → Option Nat) (st2 : Bool) (pick w table i e : Nat),
    runLeaf rd st2 pick w table i e = e ∨ ∃ k < 2 ^ field e 14 12,
      rd (table + 8 * (i / 2 ^ field e 14 12 * 2 ^ field e 14 12 + k)) = some (runLeaf rd st2 pick w table i e) ∧
      leafOk st2 w (runLeaf rd st2 pick w table i e) = true) ∧
  (∀ (s : State) (vk : Nat) (st2 : Bool) (a : Nat) (now : Option (Nat × Nat)),
    nowOrOld s vk st2 a now = now ∨ ∃ c ∈ s.sys.cached, c.vd = vk ∧ c.st2 = st2 ∧ c.page = a / 65536 ∧
      nowOrOld s vk st2 a now = some (c.out + a % 65536, c.leaf)) ∧
  (∀ (s : State) (core issue vk u : Nat),
    ((∀ t ∈ s.sys.torn, ∀ r, t.reader = some r → r.1 = core → issue < r.2) →
      ∀ va, readVaFor s core issue vk va = readX (some core) s vk va (xlate s vk va)) ∧
    (∀ t, getBy TornUnit.unit u s.sys.torn = some t → t.vals ≠ [] → (∃ g ≤ issue, t.reader = some (core, g)) →
      ∃ w ∈ t.vals, ∀ va x, inFabric va = false → xlate s vk va = some x → storeKey s vk x.pa / 8 = u →
        let r := readX (some core) s vk va (some x)
        r.cause = 0 → readVaFor s core issue vk va = { r with val := (w[storeKey s vk x.pa % 8]?).getD r.val })) ∧
  (∀ (s : State) (y : Sys) (o : Obj) (l : Lock) (core va u : Nat) (ws : List (Nat × Byte)),
    let present := (List.range 8).map fun i => Mem.read s.mem.bytes (8 * u + i)
    let put := fun (b : List Byte) => ws.foldl (fun b w => b.set w.1 w.2) b
    let after := fun (late : Bool) => tornAt (noteUnit s y o l late core va u ws) o.key u
    (tornAt y o.key u = none →
      after false = some ⟨u, o.key, [va], [present, put present], none⟩ ∧
      after true = some ⟨u, o.key, [va], [present, put present], some (l.hcore, l.since)⟩) ∧
    (∀ t, tornAt y o.key u = some t →
      (∀ r, t.reader = some r → ∃ v, after false = some { t with vas := [va], reader := none, vals := [v, put present] } ∧
        (r.1 = core → t.vals ≠ [] → t.vals.head? = some v) ∧ (r.1 ≠ core → v = present)) ∧
      (∀ r, t.reader = some r → after true = some { t with vals := t.vals ++ [put present] }) ∧
      (t.reader = none → after true = some t ∧ ∃ vas, va ∈ vas ∧ (∀ a ∈ t.vas, a ∈ vas) ∧
        after false = some { t with vas := vas, vals := t.vals ++ [put (t.vals.getLast?.getD present)] })))

/-! ## The tick, frames, freezes -/

/-- R5, R65, R70, R363: a tick makes GTC one greater, what was posted visible and the messages behind it leave; a role
outside handler mode whose next stamp is already at c + 1 or before underruns, and no other role changes. R382 to R384: an event
due that would cross a link which is down in the tick comes a tick later, and a transfer that has still to cross one is promised a
tick later; nothing else is. Log entry 68: so it is while GTCSYNC is lost. -/
def Obligations.ClockTick : Prop :=
  ∀ (s : State),
    let g := s.gtc + 1
    let now : State := { s with gtc := g }
    let shut := fun (x : Xfer) => x.stage < 3 ∧ x.kind ≠ 5 ∧ ∃ far ∈ xferEnds now x, farShut now (vdKeyOf s.sys x.core) far = true
    let held := fun (e : Nat × Instr × HomeMsg) => e.1 ≤ g ∧ ∃ far, eventFar s.sys e.2.1 e.2.2 = some far ∧
      if far = hostEnd then g < s.sys.mgmt.hostStall
      else s.sys.mgmt.ready.getLsbD 6 = false ∨ (portAt s.sys (viaPort s.sys far)).up = false ∨
        g < (portAt s.sys (viaPort s.sys far)).stall ∨ g < (portAt s.sys (Config.routePort far % 24)).stall
    let late := fun (d : Domain) (c q : Nat) => d.st = .run ∧ c ∈ d.cores ∧ q < 3 ∧ (roleOf s.sys c q).armed = true ∧
      (roleOf s.sys c q).handler = false ∧ (roleOf s.sys c q).ns ≤ (d.ttc (s.gtc + 1) : Int) + 1
    ∃ t, exec .gtcTick s = .next t ∧ t.gtc = s.gtc + 1 ∧ t.mem = drainPosts s.mem s.sys.posts ∧
      t.sys.outbox = s.sys.outbox ++ sentOf s.sys.posts ∧ t.sys.agenda = [.due false, .cycle, .due true] ∧
      ((∀ c ∈ s.sys.corrected, c.count = 0) → t.sys.posts = []) ∧
      t.sys.vds = s.sys.vds ∧ t.sys.mgmt.sensed = true ∧
      (anyStall s.sys g = false → t.sys.sched = s.sys.sched ∧ t.sys.objs = s.sys.objs ∧ t.sys.xfers = s.sys.xfers) ∧
      (anyStall s.sys g = true →
        (∀ e ∈ s.sys.sched, (held e → (g + 1, e.2) ∈ t.sys.sched) ∧ (¬ held e → e ∈ t.sys.sched)) ∧
        t.sys.sched.length = s.sys.sched.length ∧
        (∀ x ∈ s.sys.xfers, shut x → { x with due := x.due + 1, urge := x.urge + 1 } ∈ t.sys.xfers) ∧
        ((∀ x ∈ s.sys.xfers, ¬ shut x) → t.sys.xfers = s.sys.xfers)) ∧
      (∀ d ∈ s.sys.doms, ∀ c q, late d c q → (roleOf s.sys c q).aside = none →
        (roleOf t.sys c q).handler = true ∧ (roleOf t.sys c q).trapcause = 4 ∧
        (roleOf t.sys c q).trapelem = BitVec.ofNat 64 (0xFF * 65536 + 1) ∧ (roleOf t.sys c q).trappc = (roleOf s.sys c q).pWord) ∧
      (∀ c q, q < 3 → (∀ d ∈ s.sys.doms, ¬ late d c q) → roleOf t.sys c q = roleOf s.sys c q)

/-- R76, R84 to R86: at a frame boundary a core that had a bank idle in too few cycles faults in every role, energy
and bank counts start again, and in a thermal emergency of the chip the domain freezes at F = c with the thermal hold.
R89, R65: a pre-emption that reaches a running domain freezes it at F = g − TTBASE + 1, and each L outside handler
mode enters its PREEMPT handler. A resuming domain without causes runs again: TTBASE = G − F, so that its TTC is F. -/
def Obligations.FramesFreezesResumes : Prop :=
  (∀ (s : State) (dom : Nat) (d : Domain), domAt s.sys dom = some d →
    (d.inCycle = false → exec (.frameBoundary dom) s = .next s) ∧
    (d.inCycle = true → ∃ t, exec (.frameBoundary dom) s = .next t ∧
      (∀ c ∈ d.cores, (coreOf t.sys c).energy = 0 ∧ (coreOf t.sys c).busy = []) ∧
      (∀ c ∈ d.cores, belowFloor d (coreOf s.sys c) = true → ∀ q < 3, (roleOf s.sys c q).aside = none →
        (roleOf t.sys c q).handler = true ∧ (roleOf t.sys c q).trapcause = 4 ∧
        (roleOf t.sys c q).trapelem = BitVec.ofNat 64 (0xFF * 65536 + 10) ∧ (roleOf t.sys c q).trappc = (roleOf s.sys c q).pc) ∧
      ((∀ c ∈ d.cores, belowFloor d (coreOf s.sys c) = false) →
        domAt t.sys dom = some (if s.sys.mgmt.emergency = true ∧ d.vd / 32 = s.sys.mgmt.chip then
          { d with st := .frozen, f := d.ttc s.gtc, checked := some (d.ttc s.gtc), thermal := true } else d)))) ∧
  (∀ (s : State) (dom : Nat) (d : Domain), domAt s.sys dom = some d →
    (d.st = .ended ∨ d.st = .saved → exec (.preemptionArrival dom) s = .next s) ∧
    (d.st ≠ .ended → d.st ≠ .saved → ∃ t d', exec (.preemptionArrival dom) s = .next t ∧ domAt t.sys dom = some d' ∧
      (d'.st, d'.f, d'.preempt, d'.saved) =
        (.frozen, if d.st = .run then s.gtc - d.ttbase + 1 else d.f, List.range d.cores.length, []) ∧
      ∀ c ∈ d.cores, (roleOf s.sys c 0).aside = none → (roleOf s.sys c 0).handler = false →
        (roleOf t.sys c 0).handler = true ∧ (roleOf t.sys c 0).trapcause = 7 ∧ (roleOf t.sys c 0).pc = (roleOf s.sys c 0).textBase ∧
        (roleOf t.sys c 0).trappc = (roleOf s.sys c 0).pc) ∧
    (d.st ≠ .resuming ∨ d.clearOfCauses s.sys = false → exec (.domainResume dom) s = .next s) ∧
    (d.st = .resuming → d.clearOfCauses s.sys = true → d.f ≤ s.gtc →
      (∀ c ∈ d.cores, ∀ q < 3, (roleOf s.sys c q).armed = true → (d.f : Int) + 1 < (roleOf s.sys c q).ns) →
      ∃ t d', exec (.domainResume dom) s = .next t ∧ domAt t.sys dom = some d' ∧
        (d'.st, d'.ttbase, d'.preempt, d'.saved, d'.cores) = (.run, s.gtc - d.f, [], [], d.cores) ∧ d'.ttc s.gtc = d.f))

/-! ## Virtual devices -/

/-- R352, R353, R371, R398: when VDCTL takes a request: the states that allow it, BUSY, a firmware update, a locked
TDI; what it answers otherwise (DETAIL 0); and an accepted one sets BUSY, moves the state at once, and its work is on
its way. STOP of a locked TDI moves it to ERROR. -/
def Obligations.DeviceRequests : Prop :=
  (∀ (y : Sys) (v : Vdev) (q : Nat), 1 ≤ q → q ≤ 9 →
    let allowed := (q = 1 → v.st = .absent) ∧ (q = 2 → v.st = .running) ∧ (q = 3 → v.st = .saved) ∧
      (q = 4 → v.st = .running ∨ v.st = .saved) ∧ (q = 5 → v.st = .stopped) ∧ (q = 6 → v.st ≠ .absent) ∧
      (7 ≤ q → v.st = .running ∨ v.st = .saved ∨ v.st = .stopped)
    let busy := q ≠ 6 ∧ (v.busy = true ∨ y.mgmt.fwstate ∈ [.quiescing, .handover, .probation, .rollback])
    let locked := (q = 8 ∨ q = 9) ∧ (v.tdi = 1 ∨ v.tdi = 2)
    (busy → refusal y v q = some 1) ∧ (¬ busy → ¬ allowed → refusal y v q = some 3) ∧
    (¬ busy → allowed → locked → refusal y v q = some 5) ∧ (¬ busy → allowed → ¬ locked → refusal y v q = none)) ∧
  ∀ (s : State),
    let vk := s.sys.msg.obj
    let v := vdOf s.sys vk
    s.sys.msg.aux = 0 → s.sys.msg.data = [] →
    ∀ p ∈ [(1, Instr.provision), (2, .preempt), (3, .restore), (4, .stop), (5, .continueReq), (7, .inval2), (8, .keyloadRetire),
        (8, .keyloadWindow), (8, .keyloadImport), (9, .aperture)],
      (∀ r, refusal s.sys v p.1 = some r → exec p.2 s = .next { s with sys := setVd s.sys { v with result := r, detail := 0 } }) ∧
      (refusal s.sys v p.1 = none → ∃ t g, exec p.2 s = .next t ∧ s.gtc ≤ g ∧ (p.1 = 2 → g ≤ s.gtc + 64) ∧
        t.sys.sched = s.sys.sched ++ [(g, p.2, { s.sys.msg with aux := 1, gen := v.reqNo + 1 })] ∧
        vdOf t.sys vk = { v with
          busy := true, reqNo := v.reqNo + 1, tdi := if p.1 = 4 ∧ v.locked = true then 3 else v.tdi
          st := (if p.1 = 1 then .provisioning else if p.1 = 2 then .preempting else if p.1 = 3 then .restoring
            else if p.1 = 4 then .stopping else v.st) } ∧
        ∀ k, k ≠ vk → vdOf t.sys k = vdOf s.sys k)

/-- R353, R348, R359, R393: provisioning refuses with RESULT 4 and the number of the first check that fails, and is
ABSENT again; else the device is RUNNING as its descriptor says, each of its cores is cleared and carries its VDID and
lease, its key slot has a new generation, and its control program runs from this tick. -/
def Obligations.Provisioning : Prop :=
  ∀ (s : State),
    let vk := s.sys.msg.obj
    let v := vdOf s.sys vk
    let b := hostBytes s (vk / 32) v.arg0 256
    let w := vdOfDesc vk b
    s.sys.msg.aux = 1 → s.sys.msg.gen = v.reqNo →
    (descDetail s.sys vk v.arg0 b ≠ 0 → ∃ t, exec .provision s = .next t ∧
      vdOf t.sys vk = { v with st := .absent, busy := false, result := 4, detail := descDetail s.sys vk v.arg0 b } ∧
      t.sys.cores = s.sys.cores ∧ t.sys.doms = s.sys.doms) ∧
    (descDetail s.sys vk v.arg0 b = 0 → ∃ t d, exec .provision s = .next t ∧
      let x := vdOf t.sys vk
      (x.st, x.busy, x.result, x.detail) = (.running, false, 0, 0) ∧
      (x.cores, x.control, x.hbmslots, x.hostshare, x.lease, x.s2root, x.savedl) =
        (w.cores, w.control, w.hbmslots, w.hostshare, w.lease, w.s2root, w.savedl) ∧
      (x.dprbase, x.dprsize, x.bres, x.rlat, x.nchips, x.pgqueue, x.jobq, x.dieobj, x.tulobj) =
        (w.dprbase, w.dprsize, w.bres, w.rlat, w.nchips, w.pgqueue, w.jobq, w.dieobj, w.tulobj) ∧
      (∀ c ∈ w.cores, (coreOf t.sys c).vdid = BitVec.ofNat 64 (vk % 32) ∧ (coreOf t.sys c).lease = BitVec.ofNat 64 w.lease ∧
        (∀ o, (coreOf t.sys c).sbyte o = 0) ∧ ∀ r i, (coreOf t.sys c).vec r i = 0) ∧
      (keySlot t.sys (vk / 32) (vk % 32 + 1)).kind = 1 ∧
      (keySlot t.sys (vk / 32) (vk % 32 + 1)).gen = (keySlot s.sys (vk / 32) (vk % 32 + 1)).gen + 1 ∧
      domAt t.sys s.sys.nextDom = some d ∧ (d.st, d.cores, d.ttbase, d.control, d.vd) = (.run, [w.control], s.gtc, true, vk))

/-- R353, R364, R365: a pre-emption reaches every domain of the device at one tick and its deadline is set; at the
deadline a device still PREEMPTING reports SAVELATE. It is SAVED once every L has halted and every write is visible,
its cores then free and cleared; RUNNING if every L withdrew; else it is looked at again. R366: a restore whose cores
do not match those released, or whose CONTROL is not the core in the place of the control core (the model's reading, log entry 42),
is refused with RESULT 4 and DETAIL 2, and the device stays SAVED; else a saved domain is
frozen again at its F on the new cores, in order, with PART, CFG and LEASE as kept, each L in its PREEMPT handler. An event of
an earlier request does nothing. R133 to R137: vsave raises ALIGN, and SAVEFAULT where it cannot write; it writes the record of R135,
role blocks, masks, streams, entries, held landings, slots, tiles and rows at the offsets that their counts give, and changes no
core. vrestore and replay check ALIGN, SAVEFAULT and RECORD with the codes in order; vrestore restores every state of the record but
queues and held landings, what it does not hold reading as zero and the scratchpad staying; replay loads the queues and the held
landings. -/
def Obligations.SavingAndRestoring : Prop :=
  (∀ (s : State) (vk : Nat),
    let v := vdOf s.sys vk
    let ds := preempted s.sys vk
    let again := { s with sys := { s.sys with sched := s.sys.sched ++ [(s.gtc + 1, .vdSaved vk, s.sys.msg)] } }
    let mine := { noMsg with gen := v.reqNo }
    (v.st ≠ .preempting ∨ s.sys.msg.gen ≠ v.reqNo → exec (.saveDeadlineExpiry vk) s = .next s ∧ exec (.vdSaved vk) s = .next s) ∧
    (s.sys.msg.gen = v.reqNo →
    (s.sys.msg.aux = 1 → s.sys.msg.obj = vk → exec .preempt s = .next { s with sys := { s.sys with
      sched := s.sys.sched ++ ((s.sys.doms.filter fun d => d.vd == vk && d.st != .ended && d.st != .saved).map fun d =>
          (s.gtc, .preemptionArrival d.id, noMsg)) ++
        [(s.gtc + v.savedl, .saveDeadlineExpiry vk, mine), (s.gtc + 1, .vdSaved vk, mine)] } }) ∧
    (v.st = .preempting → ∃ t, exec (.saveDeadlineExpiry vk) s = .next t ∧ vdOf t.sys vk = { v with savelate := true }) ∧
    ((s.sys.doms.map Domain.id).Nodup → v.st = .preempting → ds ≠ [] → allSaved ds = true →
      savesOut s.sys (ds.flatMap Domain.cores) = false →
      ∃ t, exec (.vdSaved vk) s = .next t ∧
        let x := vdOf t.sys vk
        (x.st, x.busy, x.result, x.detail) = (.saved, false, 0, 0) ∧
        (∀ c ∈ v.cores, c ∈ x.released ∨ c ∈ x.cores) ∧ (∀ c ∈ x.released, ∀ o, (coreOf t.sys c).sbyte o = 0) ∧
        ∀ d ∈ ds, domAt s.sys d.id = some d → domAt t.sys d.id = some { d with
          st := .saved, kept := d.cores.map fun c => ((coreOf s.sys c).part, (coreOf s.sys c).cfg, (coreOf s.sys c).lease) }) ∧
    (v.st = .preempting → ds ≠ [] → (allSaved ds = false ∨ savesOut s.sys (ds.flatMap Domain.cores) = true) → exec (.vdSaved vk) s = .next again) ∧
    (v.st = .preempting → ds = [] → (∀ e ∈ s.sys.sched, ∀ d, e.2.1 ≠ .preemptionArrival d) →
      ∃ t, exec (.vdSaved vk) s = .next t ∧ vdOf t.sys vk = { v with st := .running, busy := false, result := 0, detail := 0 }) ∧
    (v.st = .preempting → ds = [] → (∃ e ∈ s.sys.sched, ∃ d, e.2.1 = .preemptionArrival d) → exec (.vdSaved vk) s = .next again))) ∧
  (∀ (s : State),
    let vk := s.sys.msg.obj
    let v := vdOf s.sys vk
    let b := hostBytes s (vk / 32) v.arg0 64
    let new := coresOfMask (vk / 32) (at' b 0 24)
    let move := fun (c : Nat) => (((v.released.zip new).find? fun p => p.1 == c).map Prod.snd).getD c
    let fits := new.length = v.released.length ∧ (∀ p ∈ v.released.zip new, (coreOf s.sys p.1).lanes = (coreOf s.sys p.2).lanes) ∧
      (∀ c ∈ new, heldElsewhere s.sys vk c = false) ∧ at' b 25 39 = 0 ∧
      vk / 32 * 192 + at' b 24 1 = move v.control
    s.sys.msg.aux = 1 → s.sys.msg.gen = v.reqNo →
    (¬ fits → ∃ t, exec .restore s = .next t ∧ vdOf t.sys vk = { v with st := .saved, busy := false, result := 4, detail := 2 } ∧
      t.sys.cores = s.sys.cores ∧ t.sys.doms = s.sys.doms) ∧
    (fits → ∃ t, exec .restore s = .next t ∧ (vdOf t.sys vk).control = move v.control ∧ (vdOf t.sys vk).released = [] ∧
      (∀ c ∈ new, c ∈ (vdOf t.sys vk).cores) ∧
      ∀ d, (s.sys.doms.filter fun d => d.vd == vk && d.st == .saved) = [d] → (d.cores.map move).Nodup →
        ∃ d', domAt t.sys d.id = some d' ∧ (d'.st, d'.f, d'.cores, d'.saved) = (.frozen, d.f, d.cores.map move, []) ∧
          d'.preempt = List.range d.cores.length ∧
          (∀ (c k : Nat) q, (d.cores.map move)[k]? = some c → d.kept[k]? = some q →
            ((coreOf t.sys c).part, (coreOf t.sys c).cfg, (coreOf t.sys c).lease) = q) ∧
          ∀ c ∈ d'.cores, (coreOf t.sys c).dom = d.id ∧ (roleOf t.sys c 0).handler = true ∧ (roleOf t.sys c 0).trapcause = 7 ∧
            (roleOf t.sys c 0).pc = (roleOf t.sys c 0).textBase ∧ (roleOf t.sys c 0).aside.isSome = true ∧
            ∀ n, (roleOf t.sys c 0).s n = 0)) ∧
  (∀ (v : Env) (e : Entry) (a : Nat),
    let vk := vdKeyOf v.s.sys v.core
    let va := e.op 0
    let c := v.c
    let sv := (backVsave a).op v e
    let vr := (backVrestore a).op v e
    let rp := (backReplay a).op v e
    let bs := saveRecord v.s v.core
    let w := writeVa v.s vk va (bs.map fun b => ⟨b, false, 0⟩)
    let s := takenBack v.s v.core
    let k := coreOf s.sys v.core
    let part := k.partN
    let lands := (savedLandings s.sys v.core).1
    let sts := boundStreams (savedLandings s.sys v.core).2
    let entries := (List.range 3).flatMap fun r => (k.role r).queue.map fun x => (r, x)
    let slots := (List.range 16).filter k.claimed
    let tiles := (List.range (nacc part)).filter k.dirtya.toNat.testBit
    let named := fun (x : Nat) =>
      if isRing part x then (if 6 ≤ rdir part x then ringReader (rdir part x) else ringWriter (rdir part x)) else ownerOf part x
    let rows := ((List.range (nv part)).filter k.dirty.toNat.testBit).map fun x =>
      (x, min (ceilDiv (if named x < 3 then (k.role (named x)).program.csrs.vl else 0) k.lanes) 8)
    let held := 0xA80 + 64 * sts.length + 192 * entries.length
    let group := fun (m : Mode) => (m.guard * 512 + b01 m.gpol * 256 + etyCode m.ety * 8 + rmCode m.rm) % 2 ^ 16
    (va % 64 ≠ 0 → sv.check () = some (.trap 9 0) ∧ vr.check () = some (.trap 9 0) ∧ rp.check () = some (.trap 9 0)) ∧
    (va % 64 = 0 → sv.check () = if w.2 = 0 then none else some (.trap 14 0)) ∧
    (sv.ready () = true ↔ waitMet v.s.sys v.core true c.toXfr = true ∧ ∀ l ∈ c.landings, l.ticket = 0 ∨ l.byTick ≤ v.s.gtc ∨
      ∃ x ∈ v.s.sys.answers, x.ticket = l.ticket ∧ x.tick ≤ v.s.gtc) ∧
    (sv.fire v.s.sys).cores = v.s.sys.cores ∧
    (badTables v.s vk va bs.length = [] → (sv.fire v.s.sys).posts = v.s.sys.posts ++ w.1) ∧
    (at' bs 0 4, at' bs 4 2, at' bs 6 1, at' bs 7 1, at' bs 8 1) = (0x43525653, 1, k.lanes, nv part, nacc part) ∧
    (at' bs 0x10 8, at' bs 0x18 8, at' bs 0x20 8, at' bs 0x28 8, at' bs 0x30 1, at' bs 0x32 2, at' bs 0x34 4) =
      (part, k.vdid.toNat, (domOfCore s.sys v.core).f % 2 ^ 64, k.dirty.toNat, k.dirtya.toNat % 256, k.claims.toNat, lands.length % 2 ^ 32) ∧
    (∀ r < 3,
      let o := 0x80 + 0x200 * r
      let z := k.role r
      let p := z.program
      at' bs o 8 = p.pc.toNat ∧ (∀ i < 32, 1 ≤ i → p.sregs[i]? = some (d64 (at' bs (o + 8 * i) 8))) ∧
      (at' bs (o + 0x100) 8, at' bs (o + 0x108) 2, at' bs (o + 0x10A) 2, at' bs (o + 0x10C) 1) =
        (wrap 64 p.p, p.d % 2 ^ 16, group p.mode, b01 z.handler + 2 * b01 p.halted) ∧
      (List.range 13).map (fun i => at' bs (o + 0x110 + 8 * i) 8) = [p.csrs.vl % 2 ^ 64, readVstart k r % 2 ^ 64, z.vcp % 2 ^ 64,
        p.csrs.vtype % 2 ^ 64, p.csrs.seed.toNat, p.csrs.strip.toNat, p.csrs.binbase.toNat, z.trapcause % 2 ^ 64, z.trappc.toNat,
        z.trapelem.toNat, p.csrs.flagcause.toNat, p.csrs.wgen.toNat, p.csrs.xdue.toNat] ∧
      (∀ i < 8, at' bs (o + 0x178 + 8 * i) 8 = (p.csrs.shadow.get i).toNat) ∧ at' bs (o + 0x1B8) 8 = z.queue.length % 2 ^ 64) ∧
    (∀ j < 8, k.ringTags[j]? = some (BitVec.ofNat 16 (at' bs (0x680 + 2 * j) 2))) ∧
    (at' bs 0x690 8, at' bs 0x698 8, at' bs 0x6A0 8) = (k.tsm.toNat, k.tsn.toNat, k.tsk.toNat) ∧
    at' bs 0x6A8 8 = (savedLandings s.sys v.core).2.streamend.toNat ∧
    (∀ j < 64, (at' bs 0x6B0 8).testBit j = true ↔ ∃ x ∈ sts, x.reg = j) ∧
    (∀ m < 15, k.vlmax ≤ 512 → at' bs (0x6C0 + 64 * m) 64 = ((k.masks[m + 1]?).getD 0).toNat % 2 ^ k.vlmax) ∧
    ((∀ x ∈ sts, x.count.length = 3 ∧ x.stride.length = 3 ∧ x.cur.length = 3) →
      bs.length = held + 320 * lands.length + 32768 * slots.length + 65536 * tiles.length + 256 * (rows.map Prod.snd).sum ∧
      at' bs 0x38 8 = bs.length % 2 ^ 64 ∧
      (∀ i x, sts[i]? = some x → let o := 0xA80 + 64 * i
        at' bs o 4 = x.base % 2 ^ 32 ∧ (at' bs (o + 4) 1).testBit 0 = x.write ∧ (at' bs (o + 0x34) 1).testBit 0 = x.ended ∧
        ∀ j < 3, at' bs (o + 8 + 4 * j) 4 = (x.count.getD j 0) % 2 ^ 32 ∧ at' bs (o + 0x18 + 4 * j) 4 = wrap 32 (x.stride.getD j 0) ∧
          at' bs (o + 0x28 + 4 * j) 4 = (x.cur.getD j 0) % 2 ^ 32) ∧
      (∀ i r x, entries[i]? = some (r, x) →
        let o := 0xA80 + 64 * sts.length + 192 * i
        let split := x.issued.isSome ∧ x.prog < (opAt backOf s v.core r x).rows
        at' bs o 4 = encode x.instr % 2 ^ 32 ∧ ((at' bs (o + 6) 2).testBit 0 = true ↔ split) ∧
        at' bs (o + 4) 2 = (if split ∧ rowsOf k x ≠ 0 then progress k r x % 2 ^ 16 else 0) ∧
        at' bs (o + 8) 8 = x.stamp % 2 ^ 64 ∧ at' bs (o + 0x10) 8 = x.addr.toNat ∧ (∀ j < 3, at' bs (o + 0x18 + 8 * j) 8 = x.op j) ∧
        (at' bs (o + 0x30) 2, at' bs (o + 0x32) 2, at' bs (o + 0x34) 1) = (group x.mode, x.vl % 2 ^ 16, x.vtype % 256) ∧
        (at' bs (o + 0x38) 8, at' bs (o + 0x40) 8, at' bs (o + 0x48) 8) = (x.seed.toNat, x.strip.toNat, x.bin.toNat) ∧
        ∀ j < 8, at' bs (o + 0x50 + 8 * j) 8 = (x.shadow.get j).toNat) ∧
      lands.Pairwise (fun x z => x.due ≤ z.due) ∧ (∀ x ∈ k.landings, x.unheld = false → x.strm = false → x.tgt ≠ .spad → x ∈ lands) ∧
      (∀ i x, lands[i]? = some x →
        let o := held + 320 * i
        let own := x.tgt = .scalar ∨ x.tgt = .csr
        let data := if x.ticket = 0 then x.data else [answerWord s.sys x]
        at' bs o 8 = x.due % 2 ^ 64 ∧ at' bs (o + 8) 1 = x.tgt.code ∧ (own → at' bs (o + 9) 1 = x.urole % 256) ∧
        (x.tgt ≠ .spad → at' bs (o + 0xA) 2 = x.reg % 2 ^ 16 ∧ (¬ own → at' bs (o + 0xC) 2 = x.row % 2 ^ 16)) ∧
        (x.tgt = .spad → at' bs (o + 0x10) 8 = x.addr % 2 ^ 64) ∧
        at' bs (o + 0x18) 8 = (if own then 2 ^ 64 - 1 else x.enable % 2 ^ 64) ∧
        (own ∨ x.tgt = .mask → at' bs (o + 64) 8 = data.getD 0 0 % 2 ^ 64) ∧
        (¬ own → x.tgt ≠ .mask → ∀ j < 64, at' bs (o + 64 + 4 * j) 4 = data.getD j 0 % 2 ^ 32)) ∧
      let blocks := held + 320 * lands.length
      (∀ i o, slots[i]? = some o → (bs.drop (blocks + 32768 * i)).take 32768 = Mem.bytes k.omem (32768 * o) 32768) ∧
      (∀ i o, tiles[i]? = some o → (bs.drop (blocks + 32768 * slots.length + 65536 * i)).take 65536 = Mem.bytes k.pool (tileBase part o) 65536) ∧
      bs.drop (blocks + 32768 * slots.length + 65536 * tiles.length) =
        rows.flatMap fun p => Mem.bytes k.pool (2048 * p.1) (256 * p.2)) ∧
    (va % 64 = 0 → loadVa v.s vk va 0xA80 = none → vr.check () = some (.trap 14 0) ∧ rp.check () = some (.trap 14 0)) ∧
    ∀ h, va % 64 = 0 → loadVa v.s vk va 0xA80 = some h →
      let bad1 := at' h 0 4 ≠ 0x43525653 ∨ at' h 4 2 ≠ 1 ∨ at' h 0x38 8 ≠ recLength h
      let bad2 := (at' h 6 1, at' h 7 1, at' h 8 1, at' h 0x10 8) ≠ (c.lanes, nv c.partN, nacc c.partN, c.partN)
      let both := fun (x : Option Stop) => vr.check () = x ∧ rp.check () = x
      (bad1 → both (some (.trap 13 1))) ∧ (¬ bad1 → bad2 → both (some (.trap 13 2))) ∧
      (¬ bad1 → ¬ bad2 → at' h 0x18 8 ≠ c.vdid.toNat → both (some (.trap 13 3))) ∧
      (¬ bad1 → ¬ bad2 → at' h 0x18 8 = c.vdid.toNat →
        (loadVa v.s vk va (recLength h) = none → both (some (.trap 14 0))) ∧
        ∀ l, loadVa v.s vk va (recLength h) = some l → vr.check () = none ∧
          ((∀ r < 3, (c.role r).vrest = false) → rp.check () = some (.trap 13 4)) ∧
          ((∃ r < 3, (c.role r).vrest = true) → at' l 0x20 8 ≠ v.dom.f → rp.check () = some (.trap 13 5)) ∧
          ((∃ r < 3, (c.role r).vrest = true) → at' l 0x20 8 = v.dom.f → rp.check () = none) ∧
          let x := coreOf (vr.fire v.s.sys) v.core
          let y := coreOf (rp.fire v.s.sys) v.core
          let counted := fun (r : Nat) => at' l (0x80 + 0x200 * r + 0x1B8) 8
          let ety := fun (n : Nat) => modeOf (field n 11 9) (field n 8 8) (field n 7 3) (field n 2 0)
          let setOf := fun (n o : Nat) => if n = 6 then d64 (at' l (o + 8 * n) 8) &&& 7 else if n = 7
            then d64 (at' l (o + 8 * n) 8) &&& xoptMask else d64 (at' l (o + 8 * n) 8)
          let takes := fun (o : Nat) (sregs : Vector Dword 32) (p : Int) (d : Nat) (m : Mode) (q : Csrs) (halted : Bool) =>
            let n := fun (j : Nat) => at' l (o + 0x110 + 8 * j) 8
            (∀ i < 32, 1 ≤ i → sregs[i]? = some (d64 (at' l (o + 8 * i) 8))) ∧
            (p, d, m, halted) = (sx 64 (at' l (o + 0x100) 8), at' l (o + 0x108) 2, ety (at' l (o + 0x10A) 2), (at' l (o + 0x10C) 1).testBit 1) ∧
            (q.vl, q.vtype, q.seed, q.strip, q.binbase) = (min (n 0) c.vlmax, slicesOf (d64 (n 3)), d64 (n 4), d64 (n 5), d64 (n 6 % 65536)) ∧
            (q.flagcause, q.wgen, q.xdue) = (d64 (n 10) &&& 0xFFFF0003, d64 (n 11), d64 (n 12)) ∧
            ∀ i < 8, q.shadow.get i = setOf i (o + 0x178)
          (x.dirty, x.dirtya, x.claims) = (d64 (at' l 0x28 8), d64 (at' l 0x30 1), BitVec.ofNat 16 (at' l 0x32 2)) ∧
          (x.tsm, x.tsn, x.tsk, x.streamend) = (d64 (at' l 0x690 8), d64 (at' l 0x698 8), d64 (at' l 0x6A0 8), d64 (at' l 0x6A8 8)) ∧
          (∀ m < 15, x.masks[m + 1]? = some (BitVec.ofNat 512 (at' l (0x6C0 + 64 * m) 64 % 2 ^ c.vlmax))) ∧
          (∀ j < 8, x.ringTags[j]? = some (BitVec.ofNat 16 (at' l (0x680 + 2 * j) 2))) ∧
          (x.streams.map Stream.reg = (List.range 64).filter (at' l 0x6B0 8).testBit ∧ ∀ i z, x.streams[i]? = some z → let o := 0xA80 + 64 * i
            (z.base, z.write, z.ended, z.till) = (at' l o 4, (at' l (o + 4) 4).testBit 0, (at' l (o + 0x34) 4).testBit 0, none) ∧
            ∀ j < 3, z.count[j]? = some (at' l (o + 8 + 4 * j) 4) ∧ z.stride[j]? = some (sx 32 (at' l (o + 0x18 + 4 * j) 4)) ∧
              z.cur[j]? = some (at' l (o + 0x28 + 4 * j) 4)) ∧
          (partOk c.partN = true → Mem.wf c.pool = true →
            (∀ i p, (recRows l)[i]? = some p → ∀ b < 256 * p.2, Mem.read x.pool (2048 * p.1 + b) =
              l.getD (recRowsAt l + 256 * (((recRows l).take i).map Prod.snd).sum + b) 0) ∧
            (∀ b < 2048 * nv c.partN, (∀ p ∈ recRows l, b < 2048 * p.1 ∨ 2048 * p.1 + 256 * p.2 ≤ b) → Mem.read x.pool b = 0) ∧
            (∀ i t, ((List.range (nacc c.partN)).filter (at' l 0x30 1).testBit)[i]? = some t →
              Mem.bytes x.pool (tileBase c.partN t) 65536 = (l.drop (recTilesAt l + 65536 * i)).take 65536) ∧
            (∀ t < nacc c.partN, (at' l 0x30 1).testBit t = false → ∀ b < 65536, Mem.read x.pool (tileBase c.partN t + b) = 0) ∧
            ∀ b, spadBase c.partN ≤ b → Mem.read x.pool b = Mem.read c.pool b) ∧
          (∀ i o, ((List.range 16).filter (at' l 0x32 2).testBit)[i]? = some o →
            Mem.bytes x.omem (32768 * o) 32768 = (l.drop (recSlotsAt l + 32768 * i)).take 32768) ∧
          (∀ o < 16, (at' l 0x32 2).testBit o = false → ∀ b < 32768, Mem.read x.omem (32768 * o + b) = 0) ∧
          (∀ r < 3,
            let o := 0x80 + 0x200 * r
            let was := c.role r
            let z := x.role r
            let aside := (at' l (o + 0x10C) 1).testBit 0 = true ∧ was.aside.isSome = true
            z.queue = was.queue ∧
            (aside → (∃ p, z.aside = some p ∧ p.pc = d64 (at' l o 8) ∧ takes o p.sregs p.p p.d p.mode p.csrs p.halted) ∧
              (z.pc, z.sregs, z.csrs, z.trapcause, z.trappc, z.trapelem) = (was.pc, was.sregs, was.csrs, was.trapcause, was.trappc, was.trapelem)) ∧
            (¬ aside → z.aside = was.aside ∧ z.pc = d64 (at' l o 8) - (if r = v.role then 4 else 0) ∧
              takes o z.sregs z.p z.d z.mode z.csrs z.halted ∧ z.trapcause = at' l (o + 0x148) 8 % 64 ∧
              (z.trappc, z.trapelem) = (d64 (at' l (o + 0x150) 8), d64 (at' l (o + 0x158) 8)))) ∧
          (v.role < 3 → (x.role v.role).vrest = true) ∧ x.landings = c.landings ∧
          y.pends = [] ∧
          (∀ r < 3, (y.role r).queue.length = counted r ∧ (y.role r).vcp = at' l (0x80 + 0x200 * r + 0x120) 8 ∧
            ∀ i z, (y.role r).queue[i]? = some z →
              let o := recEntriesAt l + 192 * (((List.range r).map counted).sum + i)
              let split := (at' l (o + 6) 1).testBit 0
              (∀ n, decodeNat (at' l o 4) = .ok n → z.instr = n) ∧
              (z.stamp, z.addr, z.ops) = (at' l (o + 8) 8, d64 (at' l (o + 0x10) 8), (List.range 3).map fun j => d64 (at' l (o + 0x18 + 8 * j) 8)) ∧
              (z.mode, z.vl, z.vtype) = (ety (at' l (o + 0x30) 2), min (at' l (o + 0x32) 2) c.vlmax, slicesOf (d64 (at' l (o + 0x34) 1))) ∧
              (z.seed, z.strip, z.bin) = (d64 (at' l (o + 0x38) 8), d64 (at' l (o + 0x40) 8), d64 (at' l (o + 0x48) 8)) ∧
              (∀ j < 8, z.shadow.get j = setOf j (o + 0x50)) ∧
              (z.issued.isSome = true ↔ split = true ∨ z.stamp < at' l 0x20 8) ∧
              (split = true → rowsOf c z ≠ 0 → z.prog = at' l (o + 4) 2 / c.lanes ∧ z.start = at' l (o + 4) 2)) ∧
          (at' l 0x34 4 ≤ y.landings.length ∧ ∀ i < at' l 0x34 4, ∃ z, y.landings[i]? = some z ∧
            let o := recHeldAt l + 320 * i
            let own := z.tgt = .scalar ∨ z.tgt = .csr
            z.due = at' l o 8 ∧ z.tgt = Target.ofCode (at' l (o + 8) 1) ∧ (own → z.urole = at' l (o + 9) 1 % 4) ∧
            (z.reg, z.row) = (at' l (o + 0xA) 2, at' l (o + 0xC) 2) ∧ (z.tgt = .spad → z.addr = at' l (o + 0x10) 8) ∧
            (z.tgt ≠ .spad → z.enable = at' l (o + 0x18) 8) ∧
            (z.tgt = .spad → ∀ j < 256, z.enable.testBit j = (at' l (o + 0x18) 8).testBit (j / 4)) ∧
            z.data = if own ∨ z.tgt = .mask then [at' l (o + 64) 8] else (List.range 64).map fun j => at' l (o + 64 + 4 * j) 4)))

/-- R353, R368, R369: STOP freezes every domain of the device at F = g − TTBASE + 1 under its hold; once every issued
write is visible STOPPED reads 1, and with the report visible the device is STOPPED, DPREADY set where dirty pages are
tracked. CONTINUE removes the hold, unless the TDI is ERROR (R370), and the device is RUNNING, or SAVED if its cores are released. -/
def Obligations.StopAndContinue : Prop :=
  ∀ (s : State) (vk : Nat),
    let v := vdOf s.sys vk
    (v.st ≠ .stopping ∨ s.sys.msg.gen ≠ v.reqNo → exec (.stopPublish vk) s = .next s) ∧
    (s.sys.msg.gen = v.reqNo →
    (s.sys.msg.aux = 1 → s.sys.msg.obj = vk → ∃ t q, exec .stop s = .next t ∧
      t.sys.sched = q ++ [(s.gtc + 1, .stopPublish vk, { noMsg with gen := v.reqNo, dl := s.gtc })] ∧
      ((s.sys.doms.map Domain.id).Nodup → ∀ d ∈ s.sys.doms, domAt s.sys d.id = some d → d.vd = vk → d.st ≠ .ended → d.st ≠ .saved →
        ∃ d', domAt t.sys d.id = some d' ∧ (d'.st, d'.stopHold) = (.frozen, true) ∧
          d'.f = if d.st = .run then s.gtc - d.ttbase + 1 else d.f)) ∧
    (v.st = .stopping → v.stoppedBit = true → ∃ t, exec (.stopPublish vk) s = .next t ∧
      vdOf t.sys vk = { v with st := .stopped, dpready := v.dirtytrack, busy := false, result := 0, detail := 0 }) ∧
    (v.st = .stopping → v.stoppedBit = false → stopPending s vk s.sys.msg.dl = true → exec (.stopPublish vk) s = .next { s with
      sys := { s.sys with sched := s.sys.sched ++ [(s.gtc + 1, .stopPublish vk, s.sys.msg)] } }) ∧
    (v.st = .stopping → v.stoppedBit = false → stopPending s vk s.sys.msg.dl = false → ∃ t, exec (.stopPublish vk) s = .next t ∧
      (vdOf t.sys vk).stoppedBit = true ∧ t.sys.sched = s.sys.sched ++ [(s.gtc + 1, .stopPublish vk, s.sys.msg)] ∧
      (v.dirtytrack = true → t.sys.posts = s.sys.posts ++ hostPosts (vk / 32) v.dprbase (dirtyReport v) ∧
        (vdOf t.sys vk).dirtySet = [] ∧ (vdOf t.sys vk).round = v.round + 1)) ∧
    (s.sys.msg.aux = 1 → s.sys.msg.obj = vk → ∃ t, exec .continueReq s = .next t ∧
      vdOf t.sys vk = { v with
        st := if v.released = [] then .running else .saved, stoppedBit := false, dpready := false, busy := false, result := 0
        detail := 0 } ∧
      (v.tdi = 3 → t.sys.doms = s.sys.doms) ∧
      (v.tdi ≠ 3 → ∀ id d, domAt s.sys id = some d → d.vd = vk → ∃ d', domAt t.sys id = some d' ∧ d'.stopHold = false)))

/-- R352, R353, R367, R370, R371: RESET, FLR of a virtual function and STOP_INTERFACE_REQUEST end every domain of a device
that is not ABSENT, drop its transfers, objects and apertures, clear its cores, and retire its keys; it is RESETTING,
then ABSENT with its RESULT (6 if it was PREEMPTING), unless a firmware update makes it wait. RESET of a locked TDI moves
it to ERROR. -/
def Obligations.Resetting : Prop :=
  ∀ (s : State) (fn : Nat),
    let reset := fun (vk : Nat) (t : State) =>
      let v := vdOf s.sys vk
      let x := vdOf t.sys vk
      (x.st, x.busy, x.cores, x.fifo) = (.resetting, true, [], []) ∧
      x.result = (if v.st = .preempting then 6 else if v.st = .resetting then v.result else 0) ∧
      (∀ id d, domAt s.sys id = some d → d.vd = vk → ∃ d', domAt t.sys id = some d' ∧ d'.st = .ended) ∧
      (∀ q ∈ t.sys.xfers, q ∈ s.sys.xfers ∧ vdKeyOf s.sys q.core ≠ vk) ∧
      (∀ a ∈ t.sys.apertures, a ∈ s.sys.apertures ∧ a.2.1 ≠ vk) ∧
      (∀ c ∈ v.cores, ∀ o, (coreOf t.sys c).sbyte o = 0) ∧ (∀ c r i, c ∈ v.cores → (coreOf t.sys c).vec r i = 0) ∧
      (keySlot t.sys (vk / 32) (vk % 32 + 1)).kind = 0 ∧
      x.reqNo = v.reqNo + 1 ∧
      ∃ q r, s.gtc < r ∧ t.sys.sched = s.sys.sched ++ q ++ [(r, .vdResetComplete vk, { noMsg with gen := x.reqNo })]
    let own := s.sys.mgmt.chip * 32 + fn
    (∀ vk, s.sys.msg.obj = vk → (vdOf s.sys vk).st ≠ .absent → ∃ t, exec .resetReq s = .next t ∧ reset vk t ∧
      (vdOf t.sys vk).tdi = if (vdOf s.sys vk).tdi ∈ [1, 2, 3] then 3 else 0) ∧
    (∀ vk, s.sys.msg.obj = vk → (vdOf s.sys vk).st = .absent →
      exec .resetReq s = .next { s with sys := setVd s.sys { vdOf s.sys vk with result := 3, detail := 0 } }) ∧
    (1 ≤ fn → (vdOf s.sys own).st ≠ .absent → ∃ t, exec (.flr fn) s = .next t ∧ reset own t) ∧
    (∃ t, exec (.flr 0) s = .next t ∧ (t.sys.mgmt.fwresult, t.sys.mgmt.evsize, t.sys.mgmt.tcrit) = (0, 0, 1680) ∧
      ∀ n < 32, (vdOf t.sys (s.sys.mgmt.chip * 32 + n)).st = if (vdOf s.sys (s.sys.mgmt.chip * 32 + n)).st = .absent then .absent else .resetting) ∧
    ((vdOf s.sys own).st ≠ .absent → ∃ t, exec (.stopInterfaceRequest fn) s = .next t ∧ reset own t ∧ (vdOf t.sys own).tdi = 0) ∧
    (∀ vk, ((vdOf s.sys vk).st ≠ .resetting ∨ s.sys.msg.gen ≠ (vdOf s.sys vk).reqNo → exec (.vdResetComplete vk) s = .next s) ∧
      (s.sys.msg.gen = (vdOf s.sys vk).reqNo →
      ((vdOf s.sys vk).st = .resetting → s.sys.mgmt.fwstate ∈ [.idle, .staging, .staged] →
        ∃ t, exec (.vdResetComplete vk) s = .next t ∧
          vdOf t.sys vk = { Vdev.absent vk with result := (vdOf s.sys vk).result, reqNo := (vdOf s.sys vk).reqNo }) ∧
      ((vdOf s.sys vk).st = .resetting → s.sys.mgmt.fwstate ∈ [.quiescing, .handover, .probation, .rollback] →
        exec (.vdResetComplete vk) s = .next { s with
          sys := { s.sys with sched := s.sys.sched ++ [(s.gtc + 1, .vdResetComplete vk, s.sys.msg)] } })))

/-- R357, R359, R360, R371: the works of KEYLOAD and APERTURE: a slot of the device is EMPTY with its generation kept;
a window comes with its key, its participants and a FREE lock; an import takes its key; an aperture of another device
is refused. A record that fails its checks is RESULT 4; a window with a locked participant RESULT 5 (log entry 85); a window is retired by
the device that made it, or the first participant that is left (log entry 58). R371: a tenant's session imports a key in every
state of the TDI (what its answer holds is log entry 58). R147, R349, R351,
R352, R363, R370: an invalidation drops what caches hold of its range and completes in a later tick, once no transfer uses an old value, with
RESULT 0, BUSY clear and the physical function's vector, pending where it is masked; an event of an earlier request does nothing; a 1 written to COUNT clears it; a chip table is the one
written; a TDI goes from CONFIG_UNLOCKED, while its device is RUNNING, to CONFIG_LOCKED, and on to RUN. -/
def Obligations.KeysAperturesRegisters : Prop :=
  (∀ (s : State),
    let vk := s.sys.msg.obj
    let v := vdOf s.sys vk
    let b := keyRecord s vk
    let slot := at' b 0 1
    let k := keySlot s.sys (vk / 32) slot
    let aper := vk / 32 * 1024 + field v.arg0 9 0
    let done := fun (r d : Nat) => { v with busy := false, result := r, detail := d }
    let parts := at' b 16 4
    let ok := fun (kind : Nat) => keyPlace s vk && recordOk b kind
    let lives := ∀ n < 32, parts.testBit n = true → (vdOf s.sys (vk / 32 * 32 + n)).lives = true
    let same := fun (i : Instr) (r d : Nat) => ∃ t, exec i s = .next t ∧ vdOf t.sys vk = done r d ∧ t.sys.keys = s.sys.keys
    s.sys.msg.data = [] → s.sys.msg.aux = 1 → s.sys.msg.gen = v.reqNo →
    (ok 0 = true → k.kind = 2 → retirer k = vk → lockedPart s.sys vk k.parts = true → same .keyloadRetire 5 0) ∧
    (ok 0 = true → k.kind ≠ 0 → retirer k = vk → (k.kind = 2 → lockedPart s.sys vk k.parts = false) → ∃ t, exec .keyloadRetire s = .next t ∧ vdOf t.sys vk = done 0 0 ∧
      keySlot t.sys (vk / 32) slot = { KeySlot.empty with gen := k.gen }) ∧
    ((ok 0 = false ∨ k.kind = 0 ∨ retirer k ≠ vk) → same .keyloadRetire 4 1) ∧
    (ok 2 = true → k.kind = 0 → parts.testBit (vk % 32) = true → lives →
      homeField (at' b 24 8) = 4 → handleForm (vk / 32) (at' b 24 8) = true → chipField (at' b 24 8) = vk / 32 % 524288 →
      inRange v.tulobj (field (at' b 24 8) 13 0) = true →
      (lockedPart s.sys vk parts = true → same .keyloadWindow 5 0) ∧
      (lockedPart s.sys vk parts = false → ∃ t o l, exec .keyloadWindow s = .next t ∧ vdOf t.sys vk = done 0 0 ∧
        (let n := keySlot t.sys (vk / 32) slot
         (n.kind, n.gen, n.owner, n.parts, n.wobj) = (2, k.gen + 1, vk, parts, at' b 24 8)) ∧
        objOf t.sys (at' b 24 8) = some o ∧ o.window = true ∧ o.body = .lock l ∧ l.holder = 255)) ∧
    ((ok 2 = false ∨ k.kind ≠ 0 ∨ parts.testBit (vk % 32) = false ∨ ¬ lives) → same .keyloadWindow 4 1) ∧
    (ok 3 = true → k.kind = 0 → ∃ t, exec .keyloadImport s = .next t ∧ vdOf t.sys vk = done 0 0 ∧
      (let n := keySlot t.sys (vk / 32) slot
       (n.kind, n.gen, n.owner, n.stream, n.next, n.key) =
         (3, k.gen + 1, vk, at' b 4 4, at' b 8 8, (b.drop 32).take 32))) ∧
    ((ok 3 = false ∨ k.kind ≠ 0) → same .keyloadImport 4 1) ∧
    ((∃ a ∈ s.sys.apertures, a.1 = aper ∧ a.2.1 ≠ vk) → ∃ t, exec .aperture s = .next t ∧ vdOf t.sys vk = done 4 2 ∧
      t.sys.apertures = s.sys.apertures) ∧
    ((∀ a ∈ s.sys.apertures, a.1 = aper → a.2.1 = vk) → ∃ t, exec .aperture s = .next t ∧ vdOf t.sys vk = done 0 0 ∧
      t.sys.apertures = (if v.arg0.testBit 63 then [(aper, vk, field v.arg1 51 40, field v.arg1 18 0)] else []) ++
        s.sys.apertures.filter fun a => a.1 != aper)) ∧
  (∀ (s : State) (vk fn v : Nat) (table : List (Nat × Nat × Nat)),
    let d := vdOf s.sys vk
    let own := s.sys.mgmt.chip * 32 + fn
    let f := vdOf s.sys own
    let only := fun (x : Vdev) => { s with sys := setVd s.sys x }
    let e := msixAt s.sys 0 (vk % 32)
    let a := s.sys.msg.dl / 65536
    let n := s.sys.msg.aux
    let again := { s.sys with sched := s.sys.sched ++ [(s.gtc + 1, .stage2InvalidationComplete vk, { s.sys.msg with party := 1 })] }
    (s.sys.msg.aux = 1 → s.sys.msg.obj = vk → s.sys.msg.gen = d.reqNo → ∃ t r, exec .inval2 s = .next t ∧ s.gtc < r ∧
      t.sys.sched = s.sys.sched ++ [(r, .stage2InvalidationComplete vk, { noMsg with
        dl := d.arg0, aux := d.arg1 % 4294967296, gen := d.reqNo })] ∧ t.sys.vds = s.sys.vds) ∧
    (s.sys.msg.gen ≠ d.reqNo → exec (.stage2InvalidationComplete vk) s = .next s) ∧
    (s.sys.msg.gen = d.reqNo →
      (s.sys.msg.party = 0 → ∃ t, exec (.stage2InvalidationComplete vk) s = .next t ∧ { t.sys with cached := s.sys.cached } = again ∧
        ∀ c, c ∈ t.sys.cached ↔ c ∈ s.sys.cached ∧
          ¬ (c.vd = vk ∧ c.st2 = true ∧ (n = 0 ∨ (a ≤ c.page ∧ c.page < a + n)))) ∧
      (s.sys.msg.party ≠ 0 → usesOld s vk true s.sys.msg.dl n = true →
        exec (.stage2InvalidationComplete vk) s = .next { s with sys := again }) ∧
      (s.sys.msg.party ≠ 0 → usesOld s vk true s.sys.msg.dl n = false →
        ∃ t, exec (.stage2InvalidationComplete vk) s = .next t ∧ vdOf t.sys vk = { d with busy := false, result := 0, detail := 0 } ∧
          t.sys.posts = s.sys.posts ++ (if s.sys.mgmt.hostGone ∨ e.mask then [] else [.send (.msix 0 (vk % 32) e.addr e.data)]) ∧
          (s.sys.mgmt.hostGone = false → e.mask = true → (msixAt t.sys 0 (vk % 32)).pend = true))) ∧
    (field v 63 48 = 0 → exec (.s2faultClear vk v) s = .next s) ∧
    (field v 63 48 ≠ 0 → exec (.s2faultClear vk v) s = .next (only { d with s2count := 0 })) ∧
    exec (.chipTableWrite vk table) s = .next (only { d with chipTable := table }) ∧
    (f.st = .running → f.tdi = 0 → exec (.lockInterfaceRequest fn) s = .next (only { f with tdi := 1 })) ∧
    (f.st ≠ .running ∨ f.tdi ≠ 0 → exec (.lockInterfaceRequest fn) s = .next s) ∧
    (f.tdi = 1 → exec (.startInterfaceRequest fn) s = .next (only { f with tdi := 2 })) ∧
    (f.tdi ≠ 1 → exec (.startInterfaceRequest fn) s = .next s)) ∧
  (∀ (s : State), s.sys.msg.data ≠ [] →
    let vk := s.sys.msg.obj
    let record := s.sys.msg.data
    let slot := at' record 0 1
    let fits := (vdOf s.sys vk).st ∈ [.running, .saved, .stopped] ∧ record.length = 64 ∧ recordOk record 3 = true ∧
      (keySlot s.sys (vk / 32) slot).kind = 0
    ∃ t a sig, exec .keyloadImport s = .next t ∧ t.sys.vds = s.sys.vds ∧
      t.sys.posts = s.sys.posts ++ [.send (.spdm (vk % 32) [[a]] sig)] ∧
      (fits → a = 0 ∧ let n := keySlot t.sys (vk / 32) slot
        (n.kind, n.gen, n.owner, n.stream, n.next, n.key) =
          (3, (keySlot s.sys (vk / 32) slot).gen + 1, vk, at' record 4 4, at' record 8 8, (record.drop 32).take 32)) ∧
      (¬ fits → a = 4 ∧ t.sys.keys = s.sys.keys))

/-! ## The control firmware -/

/-- R395 to R397: the requests of FWCTL: one that comes while an update works is RESULT 1, one out of its state RESULT
3; STAGE empties the inactive slot, checks the image that FWARG names, and is STAGED with it or IDLE with the check's
RESULT; ACTIVATE from STAGED is QUIESCING with its deadline set; ABORT empties the slot. R395, R397: an update's way:
the handover structure is written when the device is quiet, RESULT 8 after 1,600,000 ticks of quiescing; the new image
is in PROBATION until its first heartbeat, by which the active slot changes over, or for 160,000,000 ticks from
HANDOVER, after which RESULT 7 and ROLLBACK leave the old image active and the other slot empty. -/
def Obligations.FirmwareUpdates : Prop :=
  (∀ (s : State),
    let m := s.sys.mgmt
    let fw := fun (t : State) => (t.sys.mgmt.fwstate, t.sys.mgmt.fwresult, t.sys.mgmt.fwtick)
    let refused := fun (r : Nat) => { s with sys := { s.sys with mgmt := { m with fwresult := r } } }
    (∀ i ∈ [Instr.stage, .activate, .abort], (i = .stage → s.sys.msg.aux = 0) →
      (m.fwstate ∈ [.staging, .quiescing, .handover, .probation, .rollback] → exec i s = .next (refused 1)) ∧
      (m.fwstate = (if i = .stage then .staged else .idle) → exec i s = .next (refused 3))) ∧
    (s.sys.msg.aux = 0 → m.fwstate = .idle → ∃ t r, exec .stage s = .next t ∧ s.gtc < r ∧ fw t = (.staging, 0, s.gtc) ∧
      t.sys.mgmt.inactive = none ∧ t.sys.sched = s.sys.sched ++ [(r, .stage, { noMsg with aux := 1 })]) ∧
    (s.sys.msg.aux = 1 → m.fwstate = .staging →
      let b := hostBytes s m.chip m.fwarg 8192
      let size := at' b 0x10 8
      let body := if size ≤ 67108864 then hostBytes s m.chip (m.fwarg + 8192) size else []
      (m.fwarg % 4096 = 0 → field m.fwarg 63 50 = 1 → stageResult m b body = 0 → ∃ t, exec .stage s = .next t ∧
        fw t = (.staged, 0, s.gtc) ∧ t.sys.mgmt.inactive = some (imageOf b)) ∧
      (m.fwarg % 4096 = 0 → field m.fwarg 63 50 = 1 → stageResult m b body ≠ 0 → ∃ t, exec .stage s = .next t ∧
        fw t = (.idle, stageResult m b body, s.gtc)) ∧
      (m.fwarg % 4096 ≠ 0 ∨ field m.fwarg 63 50 ≠ 1 → ∃ t, exec .stage s = .next t ∧ fw t = (.idle, 4, s.gtc))) ∧
    (m.fwstate = .staged → ∃ t, exec .activate s = .next t ∧ fw t = (.quiescing, m.fwresult, s.gtc) ∧
      t.sys.sched = s.sys.sched ++ [(s.gtc + 1, .quiesceComplete, noMsg), (s.gtc + 1600000, .quiesceTimeout, noMsg)]) ∧
    (m.fwstate = .staged → ∃ t, exec .abort s = .next t ∧ fw t = (.idle, 0, s.gtc) ∧ t.sys.mgmt.inactive = none)) ∧
  (∀ (s : State),
    let m := s.sys.mgmt
    let fw := fun (t : State) => (t.sys.mgmt.fwstate, t.sys.mgmt.fwresult, t.sys.mgmt.fwtick)
    let slots := fun (t : State) => (t.sys.mgmt.active, t.sys.mgmt.slotA, t.sys.mgmt.slotB)
    (m.fwstate = .quiescing → quiet s.sys = false → exec .quiesceComplete s = .next { s with
      sys := { s.sys with sched := s.sys.sched ++ [(s.gtc + 1, .quiesceComplete, noMsg)] } }) ∧
    (m.fwstate = .quiescing → quiet s.sys = true → ∃ t r, exec .quiesceComplete s = .next t ∧ s.gtc < r ∧
      fw t = (.handover, m.fwresult, s.gtc) ∧ t.sys.mgmt.handover = m.activeImage.hover ∧ slots t = slots s ∧
      t.sys.sched = s.sys.sched ++ [(r, .newImageStart, noMsg)]) ∧
    (m.fwstate = .quiescing → m.fwtick + 1600000 ≤ s.gtc → ∃ t, exec .quiesceTimeout s = .next t ∧
      fw t = (.idle, 8, s.gtc) ∧ slots t = slots s) ∧
    (m.fwstate = .handover → ∃ t, exec .newImageStart s = .next t ∧ fw t = (.probation, m.fwresult, m.fwtick) ∧ slots t = slots s ∧
      t.sys.sched = s.sys.sched ++ [(max (m.fwtick + 160000000) (s.gtc + 1), .probationTimeout, noMsg)]) ∧
    (m.fwstate = .probation → s.gtc ≤ m.fwtick + 160000000 → ∃ t, exec .firstHeartbeat s = .next t ∧
      fw t = (.idle, 0, s.gtc) ∧ slots t = (!m.active, m.slotA, m.slotB)) ∧
    (m.fwstate ≠ .probation → m.power = true → exec .firstHeartbeat s = .next { s with
      sys := { s.sys with mgmt := { m with ready := m.ready ||| 4 } } }) ∧
    (m.fwstate = .probation → m.fwtick + 160000000 ≤ s.gtc → ∃ t r, exec .probationTimeout s = .next t ∧ s.gtc < r ∧
      fw t = (.rollback, 7, s.gtc) ∧ slots t = slots s ∧ t.sys.sched = s.sys.sched ++ [(r, .rollbackRestart, noMsg)]) ∧
    (m.fwstate = .rollback → ∃ t, exec .rollbackRestart s = .next t ∧ fw t = (.idle, m.fwresult, s.gtc) ∧
      t.sys.mgmt.active = m.active ∧ t.sys.mgmt.activeImage = m.activeImage ∧ t.sys.mgmt.inactive = none))

/-! ## The host -/

/-- R400, R402 to R404, R408: what a write leaves in the registers of the management block and in S1ROOT; a value that
a register does not admit is ignored. A write through BAR0 at their offsets does the same, a write of VDCTL or FWCTL
issues its request in this tick, and an unaligned write is ignored; off the IDE stream of a function in RUN it answers Unsupported
Request, and the function goes to ERROR (R370, R401). R363, R400: a write of the MSI-X table sets a vector's address, or its
data and mask, and sends the message of a pending one that it unmasks (BAR2 from 2^20 on, log entry 84). -/
def Obligations.RegisterWrites : Prop :=
  ∀ (s : State) (fn v n : Nat),
    let m := s.sys.mgmt
    let ide := s.sys.msg.ide
    let own := m.chip * 32 + fn
    let put := fun (x : Mgmt) => { s with sys := { s.sys with mgmt := x } }
    let others := (List.range 32).foldl (fun a k => if k = n then a else a + (m.palloc[k]?).getD 0) 0
    let taken := fun (f : Nat) => (vdOf s.sys (m.chip * 32 + f)).tdi ≠ 2 ∨ ide = true
    let issues := fun (i : Instr) (x : HomeMsg) => { s with sys := { s.sys with sched := s.sys.sched ++ [(s.gtc, i, x)] } }
    exec (.evsizeWrite v) s = .next (put { m with evsize := v % 32, evhead := 0, evtail := 0, evposted := 0 }) ∧
    exec (.evtailWrite v) s = .next (put { m with evtail :=
      if v % 2 ^ 32 ≤ m.evhead ∧ m.evhead ≤ v % 2 ^ 32 + 2 ^ m.evsize then v % 2 ^ 32 else m.evtail }) ∧
    exec (.evlostClear v) s = .next (put { m with evlost := if v % 2 ^ 32 = 0 then m.evlost else 0 }) ∧
    exec (.evvecWrite v) s = .next (put { m with evvec := if v % 64 < 32 then m.evvec else v % 64 }) ∧
    exec (.thermWrite v) s = .next (put (if field v 31 16 < field v 15 0 + 32 then m else
      { m with tcrit := field v 31 16, temerg := field v 15 0 })) ∧
    exec (.pallocWrite n v) s = .next (put (if 1500 < others + field v 11 0 then m else
      { m with palloc := m.palloc.setIfInBounds n (field v 11 0) })) ∧
    exec (.s1rootWrite fn v) s = .next { s with sys := { setVd s.sys { vdOf s.sys own with s1root := field v 56 6 * 64 } with
      cached := s.sys.cached.filter fun c => !(c.vd == own && c.st2 == false) } } ∧
    (∀ off < 2 ^ 20, ¬ taken fn → ∃ t, exec (.registerWrite fn off v) s = .next t ∧
      vdOf t.sys own = { vdOf s.sys own with tdi := 3 } ∧ .send (.unsupported fn (2 ^ 36 + off)) ∈ t.sys.posts) ∧
    (taken 0 → ∀ p ∈ [(0x048, Instr.evsizeWrite v), (0x058, .evtailWrite v), (0x060, .evlostClear v), (0x068, .evvecWrite v),
        (0x080, .thermWrite v)], exec (.registerWrite 0 p.1 v) s = exec p.2 s) ∧
    (taken 0 → n < 32 → exec (.registerWrite 0 (0x100 + 8 * n) v) s = exec (.pallocWrite n v) s) ∧
    (taken fn → 1 ≤ fn → exec (.registerWrite fn 0 v) s = exec (.s1rootWrite fn v) s) ∧
    (taken fn → 1 ≤ fn → s.sys.msg.aux ≠ 1 → exec (.registerWrite fn 8 v) s = exec (.jobpush fn v false) s) ∧
    (taken 0 → n < 32 → ∀ p ∈ [(1, Instr.provision), (2, .preempt), (3, .restore), (4, .stop), (5, .continueReq), (6, .resetReq), (7, .inval2),
        (9, .aperture)], v % 256 = p.1 →
      exec (.registerWrite 0 (0x10000 + 0x1000 * n) v) s = .next (issues p.2 { noMsg with obj := m.chip * 32 + n })) ∧
    (taken 0 → ∀ p ∈ [(1, Instr.stage), (2, .activate), (3, .abort)], v % 256 = p.1 →
      exec (.registerWrite 0 0x020 v) s = .next (issues p.2 noMsg)) ∧
    (taken fn → ∀ off, off % 8 ≠ 0 → exec (.registerWrite fn off v) s = .next s) ∧
    (∀ k < 64,
      let e := msixAt s.sys fn k
      let w := { e with data := field v 31 0, mask := v.testBit 32 }
      (∃ t, exec (.registerWrite fn (2 ^ 20 + 16 * k) v) s = .next t ∧ msixAt t.sys fn k = { e with addr := v % 2 ^ 64 } ∧
        t.sys.posts = s.sys.posts) ∧
      ∃ t, exec (.registerWrite fn (2 ^ 20 + 16 * k + 8) v) s = .next t ∧
        (e.pend = true → v.testBit 32 = false → msixAt t.sys fn k = { w with pend := false } ∧
          t.sys.posts = s.sys.posts ++ [.send (.msix fn k e.addr (field v 31 0))]) ∧
        (e.pend = false ∨ v.testBit 32 = true → msixAt t.sys fn k = w ∧ t.sys.posts = s.sys.posts))

/-- R405: JOBPUSH that arrives while its device is not RUNNING or with EP is discarded and counted in REFUSED, which stops at
65,535; any other is on its way as a closing qpush of party 63 to the job queue, no earlier than the function's earlier
pushes and, when none is under way, within 1,600 ticks of its arrival, unless accesses before it wait for a fence (then it leaves when
they have; the model's reading of the order of R188, log entry 99). JOBSTAT completes with its three counts once every push before it has
registered. R188, R349, R370, R399, R401: host accesses through BAR4: off its IDE stream a device in RUN answers
Unsupported Request and goes to ERROR; behind a fence of its device, or an earlier access that waits, they wait, in their order; a read
completes with the bytes its stage-2 leaves name, Unsupported Request without one; a write of one line is posted, or counted in S2FAULT
with its granule, as is a longer one once for each granule. R400, R404: a read of an aligned register of BAR0 answers with its value
(offsets from 2^36 on stand for it, log entry 84), of S1ROOT once no transfer uses an old translation. R406, R407: measurements
and management reads are answered (what a report holds beside its blocks, and the signature, is log entry 31). -/
def Obligations.HostAndJobQueue : Prop :=
  (∀ (s : State) (fn v : Nat) (ep : Bool),
    let vk := s.sys.mgmt.chip * 32 + fn
    let d := vdOf s.sys vk
    let m := s.sys.msg
    let pushes := s.sys.sched.filter fun e => isPushOf vk e
    let taken := { d with jobPending := d.jobPending + 1, jobPushes := d.jobPushes + 1 }
    let leaves := fun (t : State) (latest : Nat) => ∃ r x, s.gtc < r ∧ (pushes = [] → r ≤ latest) ∧ (∀ e ∈ pushes, e.1 ≤ r) ∧
      t.sys.sched = s.sys.sched ++ [(r, .homeQpush, x)] ∧ (x.obj, x.party, x.dl, x.aux) = (d.jobq, 63, v % 2 ^ 64, 1)
    (m.aux ≠ 1 → d.st ≠ .running ∨ ep = true →
      exec (.jobpush fn v ep) s = .next { s with sys := setVd s.sys { d with jobRefused := min (d.jobRefused + 1) 65535 } }) ∧
    (m.aux ≠ 1 → d.st = .running → ep = false → hostDeferred s.sys vk = false →
      ∃ t, exec (.jobpush fn v ep) s = .next t ∧ vdOf t.sys vk = taken ∧ leaves t (s.gtc + 1600)) ∧
    (m.aux ≠ 1 → d.st = .running → ep = false → hostDeferred s.sys vk = true → ∃ t k, exec (.jobpush fn v ep) s = .next t ∧
      vdOf t.sys vk = taken ∧
      t.sys.sched = s.sys.sched ++ [(s.gtc + 1, .jobpush (vk % 32) v ep, { noMsg with aux := 1, dl := k, gen := s.gtc })]) ∧
    (m.aux = 1 → heldBefore s.sys vk = true → exec (.jobpush fn v ep) s = .next { s with
      sys := { s.sys with sched := s.sys.sched ++ [(s.gtc + 1, .jobpush fn v ep, m)] } }) ∧
    (m.aux = 1 → heldBefore s.sys vk = false →
      ∃ t, exec (.jobpush fn v ep) s = .next t ∧ t.sys.vds = s.sys.vds ∧ leaves t (max (s.gtc + 1) (m.gen + 1600))) ∧
    (let before := if m.aux = 1 then m.gen else d.jobPushes
     (d.jobPending = 0 ∨ before + d.jobPending ≤ d.jobPushes →
        exec (.jobstatRead fn) s = .next { s with sys := { s.sys with posts := s.sys.posts ++ [.send (.readCompletion fn 0x10
          (toBytes 8 (d.jobLast % 16 * 2 ^ 48 + d.jobRefused % 65536 * 2 ^ 32 + d.jobAccepted % 2 ^ 32)) false)] } }) ∧
     (d.jobPending ≤ d.jobPushes → before ≤ d.jobPushes → d.jobPushes < before + d.jobPending → exec (.jobstatRead fn) s = .next { s with
        sys := { s.sys with sched := s.sys.sched ++ [(s.gtc + 1, .jobstatRead fn, { noMsg with aux := 1, gen := before })] } }))) ∧
  (∀ (s : State) (fn off len kind : Nat) (data : List Byte) (ep ide : Bool),
    let vk := s.sys.mgmt.chip * 32 + fn
    let d := vdOf s.sys vk
    let m := s.sys.msg
    let refused := d.tdi = 2 ∧ ide = false
    let behind := heldBefore s.sys vk = true
    let waits := behind ∨ hostMustWait s.sys vk = true
    let sends := fun (o : Out) => { s with sys := { s.sys with posts := s.sys.posts ++ [.send o] } }
    (behind ↔ ∃ e ∈ s.sys.sched, e.2.2.aux = 1 ∧ (m.aux = 1 → e.2.2.dl < m.dl) ∧ ∃ f, s.sys.mgmt.chip * 32 + f = vk ∧
      ((∃ a n i, e.2.1 = .hostRead f a n i) ∨ ∃ a b p i, e.2.1 = .hostWrite f a b p i)) ∧
    (off < 2 ^ 36 → refused → ∀ i ∈ [Instr.hostRead fn off len ide, .hostWrite fn off data ep ide], ∃ t, exec i s = .next t ∧
      vdOf t.sys vk = { d with tdi := 3 } ∧ .send (.unsupported fn off) ∈ t.sys.posts) ∧
    (off < 2 ^ 36 → ¬ refused → waits → ∃ k, (m.aux = 1 → k = m.dl) ∧
      ∀ i ∈ [Instr.hostRead fn off len ide, .hostWrite fn off data ep ide], exec i s = .next { s with
        sys := { s.sys with sched := s.sys.sched ++ [(s.gtc + 1, i, { noMsg with aux := 1, dl := k })] } }) ∧
    (off < 2 ^ 36 → ¬ refused → ¬ waits →
      let answers := fun (o : Out) => ∃ t, exec (.hostRead fn off len ide) s = .next t ∧ t.sys.posts.getLast? = some (.send o) ∧
        (hostEvents s vk off len true = [] → t.sys.posts = s.sys.posts ++ [.send o]) ∧
        t.sys.cores = s.sys.cores ∧ t.sys.vds = s.sys.vds ∧ t.sys.doms = s.sys.doms
      (∀ bs : List RdByte, (bs.length = len ∧ ∀ k < len, ∃ x, xlate2 s vk (off + k) = some x ∧ bs[k]? = some (readPhys s vk x.slot x.ia x.pa)) →
        answers (.readCompletion fn off (bs.map RdByte.val) (bs.any RdByte.poison))) ∧
      ((∃ k < len, xlate2 s vk (off + k) = none) → answers (.unsupported fn off)) ∧
      (data ≠ [] →
        let counted := { d with s2count := min (d.s2count + 1) 65535, s2gran := off / 65536 }
        let fails := fun (a : Nat) => ∀ x, xlate2 s vk a = some x → x.wr = false
        (∀ x, data.length + off % 64 ≤ 64 → xlate2 s vk off = some x → x.wr = true → ep = false →
          ∃ t, exec (.hostWrite fn off data ep ide) s = .next t ∧ t.sys.vds = (noteDirty s.sys
            (if (writePhys s vk x (data.map fun b => ⟨b, false, 0⟩) none).1 = [] then [] else dirtyX s vk x)).vds ∧
            t.sys.posts = s.sys.posts ++ (writePhys s vk x (data.map fun b => ⟨b, false, 0⟩) none).1) ∧
        (data.length + off % 64 ≤ 64 → fails off → ∃ t, exec (.hostWrite fn off data ep ide) s = .next t ∧
          t.sys.vds = (setVd s.sys counted).vds ∧ (hostEvents s vk off data.length false = [] → t.sys = setVd s.sys counted)) ∧
        (data.length + off % 65536 ≤ 65536 → (∀ k < data.length, fails (off + k)) →
          ∃ t, exec (.hostWrite fn off data ep ide) s = .next t ∧ vdOf t.sys vk = counted))) ∧
    (∀ o, o % 8 = 0 → o < (if fn = 0 then 0x80000 else 0x1000) → ¬ refused →
      let value := sends (.readCompletion fn (2 ^ 36 + o) (toBytes 8 (readBar0 s fn o)) false)
      (guestOff fn o ≠ some 0 → guestOff fn o ≠ some 0x10 → exec (.hostRead fn (2 ^ 36 + o) 8 ide) s = .next value) ∧
      (guestOff fn o = some 0 →
        (m.aux ≠ 2 ∨ usesOld s vk false 0 0 = true → exec (.hostRead fn (2 ^ 36 + o) 8 ide) s = .next { s with
          sys := { s.sys with sched := s.sys.sched ++ [(s.gtc + 1, .hostRead fn (2 ^ 36 + o) 8 true, { noMsg with aux := 2 })] } }) ∧
        (m.aux = 2 → usesOld s vk false 0 0 = false → exec (.hostRead fn (2 ^ 36 + o) 8 ide) s = .next value))) ∧
    (∃ t bs sig, exec (.spdmRequest fn) s = .next t ∧ t.sys.posts = s.sys.posts ++ [.send (.spdm fn bs sig)] ∧
      (m.gen = 0 → bs = measurements s.sys vk) ∧
      (m.gen = 1 → bs.take 2 = [((measurements s.sys vk)[1]?).getD [], ((measurements s.sys vk)[3]?).getD []])) ∧
    exec (.mctpVendorRead kind off) s = .next (sends (.mctp kind off (if kind = 0 then toBytes 8 (readBlock s.gtc s.sys.mgmt (off % 65536))
      else if kind = 1 then toBytes 8 (vdstatusOf (vdOf s.sys (s.sys.mgmt.chip * 32 + off % 32)))
      else (s.sys.mgmt.recent[off]?).getD []))))

/-- R379, R402, R403: an event record goes into the ring while it has room: its 32 bytes are posted at EVBASE + 32 x (HEAD
mod 2^LOG2) of the host's region, unless the host is removed, HEAD counts up, and the record that makes HEAD - TAIL 1 raises
the vector of EVVEC: its message leaves, or it is pending while it is masked. Without room it is counted in LOST and posts
nothing; the last 256 are kept in any case. Every record's 32 bytes hold its tick, class, virtual device, source, detail,
address and value. -/
def Obligations.EventRecords : Prop :=
  ∀ (y : Sys) (g cls vd source detail addr value : Nat),
    let m := y.mgmt
    let b := eventBytes g cls vd source detail addr value
    let z := writeEvent y g cls vd source detail addr value
    let n := z.mgmt
    let room := 7 ≤ m.evsize ∧ m.evsize ≤ 20 ∧ (m.evhead + 2 ^ 32 - m.evtail) % 2 ^ 32 < 2 ^ m.evsize
    let pa := 2 ^ 50 + m.evbase + 32 * (m.evhead % 2 ^ m.evsize)
    let first := ((m.evhead + 1) % 2 ^ 32 + 2 ^ 32 - m.evtail) % 2 ^ 32 = 1
    let x := msixAt y 0 m.evvec
    b.length = 32 ∧ at' b 0 8 = g % 2 ^ 64 ∧ at' b 8 1 = cls % 256 ∧ at' b 9 1 = vd % 256 ∧ at' b 10 2 = source % 65536 ∧
    at' b 12 4 = detail % 2 ^ 32 ∧ at' b 16 8 = addr % 2 ^ 64 ∧ at' b 24 8 = value % 2 ^ 64 ∧
    n.recent = (m.recent ++ [b]).drop ((m.recent ++ [b]).length - 256) ∧
    (room → n.evhead = (m.evhead + 1) % 2 ^ 32 ∧ n.evlost = m.evlost) ∧
    (room ∧ m.hostGone = true → z.posts = y.posts) ∧
    (room ∧ m.hostGone = false ∧ m.evbase % 4096 = 0 →
      z.posts = y.posts ++ [.write (physKey m.chip pa) 0 0 pa b false true false] ++
        (if first ∧ x.mask = false then [.send (.msix 0 m.evvec x.addr x.data)] else []) ∧
      n.vectors = if first ∧ x.mask = true then putBy Msix.key { x with pend := true } m.vectors else m.vectors) ∧
    (¬ room → n.evhead = m.evhead ∧ n.evlost = min (m.evlost + 1) (2 ^ 32 - 1) ∧ z.posts = y.posts ∧ n.vectors = m.vectors)

/-! ## Recovery -/

/-- R381 to R384: a spare lane, once used, makes its port go down at the next loss; either stalls the port at most
32,000 ticks, a stall under way going on, and its link is then retrained; a port that goes down is not ready, and every chip of the
device's jobs that has no path left by it is given 32,000 ticks. A link whose stall ends runs. The host's link stalls as long as its recovery lasts; past 32,000 ticks it is removed. R385,
R388, R389, R370: a chip that a presence notice or an expired path takes away is in the list of the removed, with
its tick, once for the jobs provisioned before it: nothing runs on it, its shadows, events, arrivals and open entries
are gone; an expiry that the loss of GTCSYNC announced does nothing once GTCSYNC is back, nor one of a lost port
once a path has come up. The
removal of the host is noted once, and every locked TDI goes to ERROR. -/
def Obligations.LinksAndRemovals : Prop :=
  (∀ (s : State) (p lane st : Nat), p < 24 →
    let v := portAt s.sys p
    let stall := min st 32000
    let till := if s.gtc < v.stall then max v.stall (s.gtc + stall) else s.gtc + stall
    let long := if s.gtc < v.stall then till - (v.stall - v.len) else stall
    (v.spare = true → exec (.laneSpare p lane st) s = exec (.portDown p st) s) ∧
    (v.spare = false → ∃ t, exec (.laneSpare p lane st) s = .next t ∧
      portAt t.sys p = { v with spare := true, stall := till, len := long } ∧ t.sys.mgmt.ready = s.sys.mgmt.ready ∧
      (till, Instr.linkRetrained p, noMsg) ∈ t.sys.sched) ∧
    (∃ t, exec (.portDown p st) s = .next t ∧
      portAt t.sys p = { v with up := false, stall := till, len := long, lost := if v.lost.isSome then v.lost else some s.gtc } ∧
      t.sys.mgmt.ready = s.sys.mgmt.ready &&& ~~~(1#64 <<< (24 + p)) ∧ (till, Instr.linkRetrained p, noMsg) ∈ t.sys.sched ∧
      ∀ c ∈ jobChips s.sys, Config.routePort c % 24 = p ∨ Config.altPort c = p → (portAt t.sys (viaPort t.sys c)).lost.isSome →
        (s.gtc + 32000, Instr.pathDownExpiry c, { noMsg with aux := 2, party := p }) ∈ t.sys.sched) ∧
    (v.stall ≠ s.gtc ∨ v.len = 0 → exec (.linkRetrained p) s = .next s) ∧
    (v.stall = s.gtc → v.len ≠ 0 → exec (.linkRetrained p) s = .next { s with sys := setPort s.sys p { v with len := 0 } }) ∧
    (∃ t, exec (.hostLinkRecovery st) s = .next t ∧ t.sys.mgmt.hostStall = max s.sys.mgmt.hostStall (s.gtc + st) ∧
      t.sys.mgmt.hostGone = s.sys.mgmt.hostGone ∧ t.sys.mgmt.recent.getLast? = some (eventBytes s.gtc clsHostRecov noVd (sourceOf 3 0) 0 0 st) ∧
      t.sys.sched = s.sys.sched ++ if 32000 < st then [(s.gtc + 32001, .hostRemoval 2, { noMsg with aux := 1 })] else [])) ∧
  (∀ (s : State) (chip cause : Nat),
    let m := s.sys.mgmt
    let already := ∃ p ∈ m.removed, p.1 = chip ∧ ∀ v ∈ s.sys.vds, v.st = .absent ∨ v.since ≤ p.2
    let gone := fun (t : State) => t.sys.mgmt.removed = m.removed ++ [(chip, s.gtc)] ∧
      (∀ d ∈ t.sys.doms, d.vd / 32 = chip → d.st = .ended) ∧ (∀ w ∈ t.sys.shadows, w.chip = chip → w.waiting = []) ∧
      (∀ e ∈ t.sys.sched, isHomeEvent e.2.1 = true → ¬ (e.2.1 = .homeQpush ∧ e.2.2.role = 3) →
        ¬ (homeField e.2.2.obj = 4 ∧ chipField e.2.2.obj = chip) ∧ chipOf e.2.2.core ≠ chip) ∧
      (∀ o ∈ t.sys.objs, ∀ b, o.body = .barrier b → ∀ p ∈ b.chips, p.2 ≠ chip) ∧
      (∀ o ∈ t.sys.objs, ∀ q, o.body = .queue q → ∀ x ∈ q.slots, x.st = 1 → chipOf x.core ≠ chip)
    (already ∨ chip = m.chip → exec (.presenceNotice chip) s = .next s ∧ exec (.pathDownExpiry chip) s = .next s) ∧
    (¬ already → chip ≠ m.chip → ∃ t, exec (.presenceNotice chip) s = .next t ∧ gone t) ∧
    (¬ already → chip ≠ m.chip → (s.sys.msg.aux = 1 → m.ready.getLsbD 6 = false) →
      (s.sys.msg.aux = 2 → pathGone s.sys s.gtc chip = true) → ∃ t, exec (.pathDownExpiry chip) s = .next t ∧ gone t) ∧
    (s.sys.msg.aux = 2 → pathGone s.sys s.gtc chip = false → exec (.pathDownExpiry chip) s = .next s) ∧
    (s.sys.msg.aux = 1 → m.ready.getLsbD 6 = true → exec (.pathDownExpiry chip) s = .next s) ∧
    (m.hostGone = true → exec (.hostRemoval cause) s = .next s) ∧
    (m.hostGone = false → ∃ t, exec (.hostRemoval cause) s = .next t ∧ t.sys.mgmt.hostGone = true ∧
      t.sys.mgmt.removed = m.removed ++ [(hostEnd, s.gtc)] ∧
      ∀ vk, (vdOf s.sys vk).tdi = 1 ∨ (vdOf s.sys vk).tdi = 2 → (vdOf t.sys vk).tdi = 3))

/-- R86, R390: TEMP shows the highest reading; one at or above TEMERG begins an emergency with its record; one at
least 2 °C below ends it and takes the thermal hold from every domain; one at or above TCRIT takes the module's power,
whose memory is then lost. R391, R392, R397: a function that is ready sets its bit of READY, KEYTAB bringing slot 0,
HOST a host that was removed (R389), and a port coming up, none of the reserved, nor one of HBM before KEYTAB. A bit that is lost clears; GTCSYNC announces
every other chip of the jobs after 32,000 ticks; a function that is no port resets every virtual device. Power on
starts with READY 0; power loss keeps the firmware slots and the host's memory and nothing else. -/
def Obligations.ThermalAndPower : Prop :=
  (∀ (s : State) (sensor temp : Nat),
    let m := s.sys.mgmt
    let hot := fun (x : Nat) => { s with sys := { s.sys with mgmt := { m with temp := x % 65536 } } }
    (temp < m.temerg → exec (.thermalEmergency sensor temp) s = .next (hot (max m.temp temp))) ∧
    (m.temerg ≤ temp → ∃ t, exec (.thermalEmergency sensor temp) s = .next t ∧ t.sys.mgmt.emergency = true ∧
      t.sys.mgmt.temp = max m.temp temp % 65536 ∧
      t.sys.mgmt.recent.getLast? = some (eventBytes s.gtc 10 255 (5 * 4096 + sensor % 4096) 1 sensor temp)) ∧
    (m.emergency = false ∨ m.temerg < temp + 32 → exec (.thermalClear sensor temp) s = .next (hot temp)) ∧
    (m.emergency = true → temp + 32 ≤ m.temerg → ∃ t, exec (.thermalClear sensor temp) s = .next t ∧
      t.sys.mgmt.emergency = false ∧ ∀ id d, domAt s.sys id = some d → ∃ d', domAt t.sys id = some d' ∧ d'.thermal = false) ∧
    (temp < m.tcrit → exec (.thermalCritical sensor temp) s = .next (hot (max m.temp temp))) ∧
    (m.tcrit ≤ temp → ∃ t, exec (.thermalCritical sensor temp) s = .next t ∧ t.sys.mgmt.power = false ∧ t.sys.mgmt.ready = 0 ∧
      t.sys.doms = [] ∧ t.sys.vds = [] ∧ t.sys.posts.getLast? = some (.wipe (physKey m.chip 0) (2 ^ 50)))) ∧
  (∀ (s : State) (bit : Nat),
    let m := s.sys.mgmt
    let may := m.power = true ∧ 1 ≤ bit ∧ bit < 48 ∧ (12 ≤ bit → bit < 24 → m.ready.getLsbD 5 = true)
    (¬ may → exec (.functionReady bit) s = .next s) ∧
    (may → ∃ t, exec (.functionReady bit) s = .next t ∧ t.sys.mgmt.ready = m.ready ||| (1#64 <<< bit) ∧
      (bit = 5 → (keySlot t.sys m.chip 0).kind = 1) ∧ (bit = 6 → t.sys.sched = s.sys.sched.filter fun e => match e.2.1 with | .pathDownExpiry _ => e.2.2.aux != 1 | _ => true) ∧
      (bit = 7 → t.sys.mgmt.hostGone = false) ∧ (bit ≠ 7 → t.sys.mgmt.hostGone = m.hostGone) ∧
      (24 ≤ bit → portAt t.sys (bit - 24) = { portAt s.sys (bit - 24) with
        up := true, lost := none, stall := min (portAt s.sys (bit - 24)).stall s.gtc })) ∧
    (m.ready.getLsbD bit = false → exec (.readyLost bit) s = .next s) ∧
    (m.ready.getLsbD bit = true → bit < 64 → ∃ t, exec (.readyLost bit) s = .next t ∧
      t.sys.mgmt.ready = m.ready &&& ~~~(1#64 <<< bit) ∧
      (24 ≤ bit → bit < 48 → (portAt t.sys (bit - 24)).up = false) ∧
      (bit = 6 → t.sys.sched = s.sys.sched ++ (jobChips s.sys).map fun c =>
        (s.gtc + 32000, .pathDownExpiry c, { noMsg with aux := 1, party := c })) ∧
      (bit < 24 → bit ≠ 6 → ∀ n < 32, (vdOf s.sys (m.chip * 32 + n)).st ≠ .absent → (vdOf t.sys (m.chip * 32 + n)).st = .resetting)) ∧
    (m.power = true → exec .powerOn s = .next s) ∧
    (m.power = false → exec .powerOn s = .next { s with
      sys := { s.sys with mgmt := { m with power := true, ready := 0, fwstate := .idle, hostGone := false } } }) ∧
    (m.power = false → exec .powerLoss s = .next s) ∧
    (m.power = true → ∃ t, exec .powerLoss s = .next t ∧ t.mem = s.mem ∧
      (t.sys.mgmt.power, t.sys.mgmt.ready, t.sys.mgmt.active, t.sys.mgmt.slotA, t.sys.mgmt.slotB) = (false, 0, m.active, m.slotA, m.slotB) ∧
      t.sys.cores = [] ∧ t.sys.doms = [] ∧ t.sys.vds = [] ∧ t.sys.keys = [] ∧ t.sys.objs = [] ∧
      t.sys.posts = s.sys.posts ++ [.wipe (physKey m.chip 0) (2 ^ 50)]))

/-! ## The whole machine -/

/-- R41, R43 to R57: every instruction that is an encoding of the manual has one word, and that word decodes to it;
and a word that decodes is the word of a well-formed instruction. The words that the manual prints beside its programs
decode to what stands beside them. -/
def Obligations.EncodingsRoundTrip : Prop :=
  (∀ i : Instr, wf i = true → encode i ≠ 0 →
    encode i < 2 ^ 32 ∧ decodeNat (encode i) = .ok i ∧ decodeTableWord 32 (encode i) = some i) ∧
  (∀ (w : Nat) (i : Instr), w < 2 ^ 32 → decodeNat w = .ok i → wf i = true ∧ encode i = w) ∧
  (∀ i j : Instr, wf i = true → wf j = true → encode i ≠ 0 → encode i = encode j → i = j)

/-- Words that the manual's programs print, from every family, and the instructions that stand beside them. -/
def Obligations.DecodeWords : Prop :=
  ∀ p ∈ [(0x065000FF, Instr.addi 5 0 255), (0x05E39802, .and 30 7 6), (0x16A00082, .lui 10 130), (0x2102002B, .bne 16 43),
      (0x240F8000, .jalr 0 31 0), (0x1B194000, .slw 17 18 0), (0x1D82E0C0, .ssd 24 5 192), (0x30600061, .csrr 6 97),
      (0x38000003, .halt), (0x3A000064, .ttsync 0 100), (0x0200001C, .mode 0 0 0 0 28), (0x3E030000, .vsave 6),
      (0x40C30B80, .vadd 24 24 23), (0x44100001, .mor 2 0 0), (0x46B22000, .vbcast 22 17), (0x4CD30006, .vredminidx 26 24),
      (0x80BA8B01, .vfsub 23 20 22), (0x80C2E009, .vfexp2 24 23), (0xA0804000, .mmabO 2 0 1), (0xA008D008, .xscacc 0 2 3 2),
      (0xA5030000, .tshape 16 6), (0xB0A0E000, .vld 20 7 0), (0xB400C103, .vldf 0 6 2), (0xC1660000, .xgo 22 12),
      (0xC127B801, .xdrain 18 15 14), (0xD0853000, .arrive 8 10 12), (0xD2054020, .bind 10 16), (0xE1653000, .coll 22 10 12)],
    decodeTableWord 32 p.1 = some p.2

/-- The physical memory keeps its canonical form in every step, from every state that has it: the listed bytes rise
strictly in address and none is what an unlisted byte reads as, and so the line tags. -/
def Obligations.StepKeepsInv : Prop :=
  ∀ (s t : State), s.Inv → step s = .next t → t.Inv

/-- The state after reset has the memory's canonical form. -/
def Obligations.ResetInv : Prop :=
  State.reset.Inv

/-- R391, R395, R402, R408: what the manual gives for reset: READY 0, EVSIZE 0, EVVEC 32, TCRIT 1,680 and TEMERG
1,520, no watts allocated, the firmware IDLE on slot A; no virtual device but ABSENT, no domain, every key slot EMPTY.
Log entry 13: GTC 0 and the other registers at zero are the model's choice. -/
def Obligations.ResetValues : Prop :=
  let s := State.reset
  let m := s.sys.mgmt
  (m.ready, m.evsize, m.evvec, m.tcrit, m.temerg, m.fwstate, m.active) = (0, 0, 32, 1680, 1520, .idle, false) ∧
  (∀ n : Nat, (m.palloc[n]?).getD 0 = 0) ∧ (∀ k, (vdOf s.sys k).st = .absent) ∧ s.sys.doms = [] ∧
  (∀ c n, (keySlot s.sys c n).kind = 0) ∧ (∀ h, objOf s.sys h = none) ∧ s.sys.sched = [] ∧ s.gtc = 0 ∧
  ∀ c q, (roleOf s.sys c q).handler = false ∧ (roleOf s.sys c q).queue = [] ∧ (roleOf s.sys c q).pc = 0

/-- Every instruction and event answers a next state, from every state; and but for the tick itself none changes GTC
or a byte of memory at once: what it writes is posted, and visible at the next tick (R5; log entry 6). -/
def Obligations.EveryInstructionCompletes : Prop :=
  ∀ (i : Instr) (s : State), ∃ t, exec i s = .next t ∧ (i ≠ .gtcTick → t.gtc = s.gtc ∧ t.mem = s.mem) ∧ s.gtc ≤ t.gtc
end

