-- ==== Sys2Proof/Laws/Bits.lean ====
section
/-! SUPPORT. Laws of the number helpers: two's complement readings, wrapping, counts of bits, bit fields. -/

namespace Sys2Proof.Machine

/-- Wrapping to 64 bits is the bit vector of an integer. -/
theorem d64_wrap (x : Int) : d64 (wrap 64 x) = BitVec.ofInt 64 x := by
  apply BitVec.eq_of_toNat_eq
  simp only [d64, wrap, BitVec.toNat_ofNat, BitVec.toNat_ofInt]
  omega

/-- The two's complement reading is the bit vector's. -/
theorem sx_toInt (w n : Nat) (h : 0 < w) : sx w n = (BitVec.ofNat w n).toInt := by
  obtain ⟨k, rfl⟩ : ∃ k, w = k + 1 := ⟨w - 1, by omega⟩
  rw [BitVec.toInt_eq_toNat_cond]
  simp only [sx, BitVec.toNat_ofNat, Nat.add_sub_cancel]
  have : 2 * (n % 2 ^ (k + 1)) < 2 ^ (k + 1) ↔ n % 2 ^ (k + 1) < 2 ^ k := by
    have : 2 ^ (k + 1) = 2 * 2 ^ k := by rw [Nat.pow_succ]; omega
    omega
  simp only [this]

/-- A sign-extended immediate. -/
theorem d64_sx (w n : Nat) (h : 0 < w) : d64 (wrap 64 (sx w n)) = (BitVec.ofNat w n).signExtend 64 := by
  rw [d64_wrap, sx_toInt w n h, BitVec.signExtend]

/-- A sign-extended word offset. -/
theorem d64_4sx (w n : Nat) (h : 0 < w) : d64 (wrap 64 (4 * sx w n)) = 4 * (BitVec.ofNat w n).signExtend 64 := by
  rw [d64_wrap, sx_toInt w n h, BitVec.ofInt_mul, BitVec.signExtend]; rfl

/-- The immediate of lui. -/
theorem d64_lui (w n : Nat) (h : 0 < w) :
    d64 (wrap 64 (sx w n * 32768)) = (BitVec.ofNat w n).signExtend 64 * 32768 := by
  rw [d64_wrap, sx_toInt w n h, BitVec.ofInt_mul, BitVec.signExtend]; rfl

/-- The number of leading zeros of a number below 2^w. -/
theorem clz_eq (w x : Nat) (h : x < 2 ^ w) : clz w x = if x = 0 then w else w - 1 - Nat.log2 x := by
  induction w with
  | zero => have : x = 0 := by simpa using h
            simp [clz, this]
  | succ w ih =>
    by_cases hb : x < 2 ^ w
    · have ht : x.testBit w = false := Nat.testBit_lt_two_pow hb
      rw [clz, ht, if_neg (by simp), ih hb]
      split
      · omega
      · have := (Nat.log2_lt (by assumption)).2 hb
        omega
    · have ht : x.testBit w = true := by
        rw [Nat.testBit_eq_decide_div_mod_eq]
        have : x / 2 ^ w = 1 := by
          rw [Nat.div_eq_iff (by positivity)]; rw [Nat.pow_succ] at h; omega
        simp [this]
      have hx : x ≠ 0 := by rintro rfl; exact hb (by positivity)
      have hl : w ≤ Nat.log2 x := (Nat.le_log2 hx).2 (by omega)
      rw [clz, ht, if_pos rfl, if_neg hx]; omega

/-- The number of one bits. -/
theorem popcount_eq (n x : Nat) : popcount n x = (List.range n).countP fun i => x.testBit i := by
  induction n with
  | zero => rfl
  | succ n ih =>
    rw [popcount, ih, List.range_succ, List.countP_append]
    cases h : x.testBit n <;> simp [b01, h]

end Sys2Proof.Machine
end

