-- ==== Sys2Proof/Laws/Decode.lean ====
section
/-! SUPPORT. Decoding by major opcode: bits [31:25] choose the table. -/

namespace Sys2Proof

/-- The table of a known major opcode reads the word. -/
theorem decodeNat_of_op {w k : Nat} (h : w / 33554432 = k) : decodeNat w = decodeMajor k w := congrArg (decodeMajor · w) h

theorem decodeNat_op01 {w : Nat} (h : w / 33554432 = 1) : decodeNat w = decodeOp01 w := decodeNat_of_op h
theorem decodeNat_op02 {w : Nat} (h : w / 33554432 = 2) : decodeNat w = decodeOp02 w := decodeNat_of_op h
theorem decodeNat_op03 {w : Nat} (h : w / 33554432 = 3) : decodeNat w = decodeOp03 w := decodeNat_of_op h
theorem decodeNat_op04 {w : Nat} (h : w / 33554432 = 4) : decodeNat w = decodeOp04 w := decodeNat_of_op h
theorem decodeNat_op05 {w : Nat} (h : w / 33554432 = 5) : decodeNat w = decodeOp05 w := decodeNat_of_op h
theorem decodeNat_op06 {w : Nat} (h : w / 33554432 = 6) : decodeNat w = decodeOp06 w := decodeNat_of_op h
theorem decodeNat_op07 {w : Nat} (h : w / 33554432 = 7) : decodeNat w = decodeOp07 w := decodeNat_of_op h
theorem decodeNat_op08 {w : Nat} (h : w / 33554432 = 8) : decodeNat w = decodeOp08 w := decodeNat_of_op h
theorem decodeNat_op09 {w : Nat} (h : w / 33554432 = 9) : decodeNat w = decodeOp09 w := decodeNat_of_op h
theorem decodeNat_op0A {w : Nat} (h : w / 33554432 = 10) : decodeNat w = decodeOp0A w := decodeNat_of_op h
theorem decodeNat_op0B {w : Nat} (h : w / 33554432 = 11) : decodeNat w = decodeOp0B w := decodeNat_of_op h
theorem decodeNat_op0C {w : Nat} (h : w / 33554432 = 12) : decodeNat w = decodeOp0C w := decodeNat_of_op h
theorem decodeNat_op0D {w : Nat} (h : w / 33554432 = 13) : decodeNat w = decodeOp0D w := decodeNat_of_op h
theorem decodeNat_op0E {w : Nat} (h : w / 33554432 = 14) : decodeNat w = decodeOp0E w := decodeNat_of_op h
theorem decodeNat_op10 {w : Nat} (h : w / 33554432 = 16) : decodeNat w = decodeOp10 w := decodeNat_of_op h
theorem decodeNat_op11 {w : Nat} (h : w / 33554432 = 17) : decodeNat w = decodeOp11 w := decodeNat_of_op h
theorem decodeNat_op12 {w : Nat} (h : w / 33554432 = 18) : decodeNat w = decodeOp12 w := decodeNat_of_op h
theorem decodeNat_op18 {w : Nat} (h : w / 33554432 = 24) : decodeNat w = decodeOp18 w := decodeNat_of_op h
theorem decodeNat_op19 {w : Nat} (h : w / 33554432 = 25) : decodeNat w = decodeOp19 w := decodeNat_of_op h
theorem decodeNat_op1A {w : Nat} (h : w / 33554432 = 26) : decodeNat w = decodeOp1A w := decodeNat_of_op h
theorem decodeNat_op1B {w : Nat} (h : w / 33554432 = 27) : decodeNat w = decodeOp1B w := decodeNat_of_op h
theorem decodeNat_op1C {w : Nat} (h : w / 33554432 = 28) : decodeNat w = decodeOp1C w := decodeNat_of_op h
theorem decodeNat_op1D {w : Nat} (h : w / 33554432 = 29) : decodeNat w = decodeOp1D w := decodeNat_of_op h
theorem decodeNat_op1E {w : Nat} (h : w / 33554432 = 30) : decodeNat w = decodeOp1E w := decodeNat_of_op h
theorem decodeNat_op1F {w : Nat} (h : w / 33554432 = 31) : decodeNat w = decodeOp1F w := decodeNat_of_op h
theorem decodeNat_op20 {w : Nat} (h : w / 33554432 = 32) : decodeNat w = decodeOp20 w := decodeNat_of_op h
theorem decodeNat_op21 {w : Nat} (h : w / 33554432 = 33) : decodeNat w = decodeOp21 w := decodeNat_of_op h
theorem decodeNat_op22 {w : Nat} (h : w / 33554432 = 34) : decodeNat w = decodeOp22 w := decodeNat_of_op h
theorem decodeNat_op23 {w : Nat} (h : w / 33554432 = 35) : decodeNat w = decodeOp23 w := decodeNat_of_op h
theorem decodeNat_op24 {w : Nat} (h : w / 33554432 = 36) : decodeNat w = decodeOp24 w := decodeNat_of_op h
theorem decodeNat_op25 {w : Nat} (h : w / 33554432 = 37) : decodeNat w = decodeOp25 w := decodeNat_of_op h
theorem decodeNat_op26 {w : Nat} (h : w / 33554432 = 38) : decodeNat w = decodeOp26 w := decodeNat_of_op h
theorem decodeNat_op40 {w : Nat} (h : w / 33554432 = 64) : decodeNat w = decodeOp40 w := decodeNat_of_op h
theorem decodeNat_op41 {w : Nat} (h : w / 33554432 = 65) : decodeNat w = decodeOp41 w := decodeNat_of_op h
theorem decodeNat_op42 {w : Nat} (h : w / 33554432 = 66) : decodeNat w = decodeOp42 w := decodeNat_of_op h
theorem decodeNat_op43 {w : Nat} (h : w / 33554432 = 67) : decodeNat w = decodeOp43 w := decodeNat_of_op h
theorem decodeNat_op44 {w : Nat} (h : w / 33554432 = 68) : decodeNat w = decodeOp44 w := decodeNat_of_op h
theorem decodeNat_op45 {w : Nat} (h : w / 33554432 = 69) : decodeNat w = decodeOp45 w := decodeNat_of_op h
theorem decodeNat_op50 {w : Nat} (h : w / 33554432 = 80) : decodeNat w = decodeOp50 w := decodeNat_of_op h
theorem decodeNat_op51 {w : Nat} (h : w / 33554432 = 81) : decodeNat w = decodeOp51 w := decodeNat_of_op h
theorem decodeNat_op52 {w : Nat} (h : w / 33554432 = 82) : decodeNat w = decodeOp52 w := decodeNat_of_op h
theorem decodeNat_op58 {w : Nat} (h : w / 33554432 = 88) : decodeNat w = decodeOp58 w := decodeNat_of_op h
theorem decodeNat_op59 {w : Nat} (h : w / 33554432 = 89) : decodeNat w = decodeOp59 w := decodeNat_of_op h
theorem decodeNat_op5A {w : Nat} (h : w / 33554432 = 90) : decodeNat w = decodeOp5A w := decodeNat_of_op h
theorem decodeNat_op5B {w : Nat} (h : w / 33554432 = 91) : decodeNat w = decodeOp5B w := decodeNat_of_op h
theorem decodeNat_op60 {w : Nat} (h : w / 33554432 = 96) : decodeNat w = decodeOp60 w := decodeNat_of_op h
theorem decodeNat_op61 {w : Nat} (h : w / 33554432 = 97) : decodeNat w = decodeOp61 w := decodeNat_of_op h
theorem decodeNat_op68 {w : Nat} (h : w / 33554432 = 104) : decodeNat w = decodeOp68 w := decodeNat_of_op h
theorem decodeNat_op69 {w : Nat} (h : w / 33554432 = 105) : decodeNat w = decodeOp69 w := decodeNat_of_op h
theorem decodeNat_op6A {w : Nat} (h : w / 33554432 = 106) : decodeNat w = decodeOp6A w := decodeNat_of_op h
theorem decodeNat_op6B {w : Nat} (h : w / 33554432 = 107) : decodeNat w = decodeOp6B w := decodeNat_of_op h
theorem decodeNat_op6C {w : Nat} (h : w / 33554432 = 108) : decodeNat w = decodeOp6C w := decodeNat_of_op h
theorem decodeNat_op70 {w : Nat} (h : w / 33554432 = 112) : decodeNat w = decodeOp70 w := decodeNat_of_op h

end Sys2Proof
end

