-- ==== Sys2Proof/Laws/Memory.lean ====
section
/-! SUPPORT. Laws of the sparse memories and keyed lists: a read after a write, what a write leaves alone, and that every
memory operation keeps the canonical form. -/

namespace Sys2Proof.Machine

/-! ## Keyed lists -/

/-- What was put under a key is found there. -/
theorem getBy_putBy_same {α : Type} (key : α → Nat) (x : α) (l : List α) :
    getBy key (key x) (putBy key x l) = some x := by
  induction l with
  | nil => simp [putBy, getBy]
  | cons a l ih =>
    unfold putBy
    split
    · simp [getBy]
    · split
      · simp [getBy]
      · rename_i h _
        simpa [getBy, h] using ih

/-- Other keys find what they found before. -/
theorem getBy_putBy_other {α : Type} (key : α → Nat) (x : α) (k : Nat) (l : List α) (h : k ≠ key x) :
    getBy key k (putBy key x l) = getBy key k l := by
  have hx : (key x == k) = false := by simpa using Ne.symm h
  induction l with
  | nil => simp [putBy, getBy, hx]
  | cons a l ih =>
    unfold putBy
    split
    · rename_i ha
      have hk : (key a == k) = false := by simpa [ha] using Ne.symm h
      simp [getBy, hx, hk]
    · split
      · simp [getBy, hx]
      · simp only [getBy, List.find?_cons] at ih ⊢
        split <;> simp_all

/-- A found element has the key it was looked for under. -/
theorem getBy_key {α : Type} (key : α → Nat) (k : Nat) (l : List α) (x : α) (h : getBy key k l = some x) : key x = k := by
  simpa using List.find?_some h

/-! ## Sparse bytes -/

/-- The canonical form above a bound holds above every lower bound. -/
theorem Mem.wfFrom_mono {n k : Nat} {m : Mem} (h : Mem.wfFrom n m = true) (hk : k ≤ n) : Mem.wfFrom k m = true := by
  cases m with
  | nil => rfl
  | cons c m =>
    simp only [Mem.wfFrom, Bool.and_eq_true, decide_eq_true_eq] at h ⊢
    exact ⟨⟨by omega, h.1.2⟩, h.2⟩

/-- Removing entries keeps the canonical form. -/
theorem Mem.wfFrom_filter {n : Nat} {m : Mem} (p : Host.Cell → Bool) (h : Mem.wfFrom n m = true) :
    Mem.wfFrom n (m.filter p) = true := by
  induction m generalizing n with
  | nil => rfl
  | cons c m ih =>
    simp only [Mem.wfFrom, Bool.and_eq_true, decide_eq_true_eq] at h
    by_cases hp : p c = true
    · have := ih h.2
      simp [hp, Mem.wfFrom, h.1.1, this]; exact h.1.2
    · have := Mem.wfFrom_mono (ih h.2) (show n ≤ c.1 + 1 by omega)
      simpa [List.filter_cons, hp] using this

/-- Putting a byte other than zero keeps the canonical form above a bound at or below its address. -/
theorem Mem.wfFrom_put {n x : Nat} {m : Mem} {v : Byte} (hv : v ≠ 0#8) (h : Mem.wfFrom n m = true) (hx : n ≤ x) :
    Mem.wfFrom n (Mem.put m x v) = true := by
  induction m generalizing n with
  | nil => simp [Mem.put, Mem.wfFrom, hv, hx]
  | cons c m ih =>
    simp only [Mem.wfFrom, Bool.and_eq_true, decide_eq_true_eq] at h
    obtain ⟨⟨hn, hc⟩, hm⟩ := h
    by_cases ha : c.1 = x
    · simp [Mem.put, ha, hv, Mem.wfFrom, hx]; simpa [ha] using hm
    · by_cases hlt : x < c.1
      · have hm' : Mem.wfFrom (c.1 + 1) m = true := hm
        have : x + 1 ≤ c.1 := hlt
        simp [Mem.put, ha, hlt, hv, Mem.wfFrom, hx, hm', this]; exact hc
      · have := ih hm (by omega)
        simp [Mem.put, ha, hlt, Mem.wfFrom, hn, this]; exact hc

/-- A write keeps the canonical form. -/
theorem Mem.wf_write {m : Mem} (x : Nat) (v : Byte) (h : Mem.wf m = true) : Mem.wf (Mem.write m x v) = true := by
  unfold Mem.write
  split
  · exact Mem.wfFrom_filter _ h
  · exact Mem.wfFrom_put (by assumption) h (Nat.zero_le x)

/-- A run of writes keeps the canonical form. -/
theorem Mem.wf_writes {m : Mem} (a : Nat) (l : List Byte) (h : Mem.wf m = true) : Mem.wf (Mem.writes m a l) = true := by
  induction l generalizing m a with
  | nil => exact h
  | cons b l ih => exact ih (a + 1) (Mem.wf_write a b h)

/-- Clearing a range keeps the canonical form. -/
theorem Mem.wf_clear {m : Mem} (lo hi : Nat) (h : Mem.wf m = true) : Mem.wf (Mem.clear m lo hi) = true :=
  Mem.wfFrom_filter _ h

/-- What is read after a byte was put. -/
theorem Mem.read_put (m : Mem) (x y : Nat) (v : Byte) : Mem.read (Mem.put m x v) y = if y = x then v else Mem.read m y := by
  induction m with
  | nil =>
    by_cases h : y = x
    · simp [Mem.put, Mem.read, h]
    · have h' : ¬ x = y := fun e => h e.symm
      simp [Mem.put, Mem.read, h, h']
  | cons c m ih =>
    by_cases h : y = x
    · subst h
      rw [if_pos rfl] at ih ⊢
      by_cases ha : c.1 = y
      · simp [Mem.put, Mem.read, ha]
      · by_cases hlt : y < c.1 <;> simp [Mem.put, Mem.read, ha, hlt, ih]
    · rw [if_neg h] at ih ⊢
      have h' : ¬ x = y := fun e => h e.symm
      by_cases ha : c.1 = x
      · simp [Mem.put, Mem.read, ha, h']
      · by_cases hlt : x < c.1
        · simp [Mem.put, Mem.read, ha, hlt, h']
        · simp [Mem.put, Mem.read, ha, hlt, ih]

/-- What is read after the entries of an address were removed. -/
theorem Mem.read_remove (m : Mem) (x y : Nat) :
    Mem.read (m.filter fun c => c.1 != x) y = if y = x then 0 else Mem.read m y := by
  induction m with
  | nil => simp [Mem.read]
  | cons c m ih =>
    by_cases h : y = x
    · subst h
      rw [if_pos rfl] at ih ⊢
      by_cases ha : c.1 = y
      · simpa [ha] using ih
      · simpa [ha, Mem.read] using ih
    · rw [if_neg h] at ih ⊢
      have h' : ¬ x = y := fun e => h e.symm
      by_cases ha : c.1 = x
      · simpa [ha, Mem.read, h'] using ih
      · simp [ha, Mem.read, ih]

/-- A read after a write: the written byte at its address, every other byte as before. -/
theorem Mem.read_write (m : Mem) (x y : Nat) (v : Byte) :
    Mem.read (Mem.write m x v) y = if y = x then v else Mem.read m y := by
  unfold Mem.write
  split
  · rename_i hv; rw [Mem.read_remove, hv]
  · exact Mem.read_put m x y v

/-- A read after a run of writes: the bytes of the run in their places, every other byte as before. -/
theorem Mem.read_writes (m : Mem) (a : Nat) (l : List Byte) (y : Nat) :
    Mem.read (Mem.writes m a l) y = if a ≤ y ∧ y < a + l.length then (l[y - a]?).getD 0 else Mem.read m y := by
  induction l generalizing m a with
  | nil => rw [Mem.writes, if_neg (by rw [List.length_nil]; omega)]
  | cons b l ih =>
    rw [Mem.writes, ih, Mem.read_write]
    by_cases h : y = a
    · subst h
      rw [if_neg (by omega), if_pos rfl, if_pos (by simp)]; simp
    · by_cases h2 : a + 1 ≤ y ∧ y < a + 1 + l.length
      · have e : y - a = (y - (a + 1)) + 1 := by omega
        rw [if_pos h2, if_pos ⟨by omega, by simp; omega⟩, e]; simp
      · rw [if_neg h2, if_neg h, if_neg (by simp; omega)]

/-! ## Line tags -/

/-- The form above a bound holds above every lower bound. -/
theorem linesWfFrom_mono {n k : Nat} {l : List (Nat × LineTag)} (h : linesWfFrom n l = true) (hk : k ≤ n) :
    linesWfFrom k l = true := by
  cases l with
  | nil => rfl
  | cons c l =>
    simp only [linesWfFrom, Bool.and_eq_true, decide_eq_true_eq] at h ⊢
    exact ⟨by omega, h.2⟩

/-- Giving a line its tag keeps the form. -/
theorem linesWfFrom_putTag {n x : Nat} {l : List (Nat × LineTag)} (t : LineTag) (h : linesWfFrom n l = true) (hx : n ≤ x) :
    linesWfFrom n (putTag l x t) = true := by
  induction l generalizing n with
  | nil => simp [putTag, linesWfFrom, hx]
  | cons c l ih =>
    simp only [linesWfFrom, Bool.and_eq_true, decide_eq_true_eq] at h
    by_cases ha : c.1 = x
    · have := h.2
      simp [putTag, ha, linesWfFrom, hx]; simpa [ha] using this
    · by_cases hlt : x < c.1
      · simp [putTag, ha, hlt, linesWfFrom, hx, h.2]
      · have := ih h.2 (by omega)
        simp [putTag, ha, hlt, linesWfFrom, h.1, this]

/-- Removing tags keeps the form. -/
theorem linesWfFrom_filter {n : Nat} {l : List (Nat × LineTag)} (p : Nat × LineTag → Bool) (h : linesWfFrom n l = true) :
    linesWfFrom n (l.filter p) = true := by
  induction l generalizing n with
  | nil => rfl
  | cons c l ih =>
    simp only [linesWfFrom, Bool.and_eq_true, decide_eq_true_eq] at h
    by_cases hp : p c = true
    · have := ih h.2
      simp [hp, linesWfFrom, h.1, this]
    · have := linesWfFrom_mono (ih h.2) (show n ≤ c.1 + 1 by omega)
      simpa [List.filter_cons, hp] using this

/-! ## The physical memory -/

/-- Storing one post keeps the canonical form. -/
theorem applyPost_wf (m : PMem) (p : Post) (h : Memory.wf m = true) : Memory.wf (applyPost m p) = true := by
  simp only [Memory.wf, Bool.and_eq_true] at h ⊢
  cases p with
  | write pa slot gen ia data poison fresh =>
    exact ⟨Mem.wf_writes pa data h.1, linesWfFrom_putTag _ h.2 (Nat.zero_le _)⟩
  | wipe pa len => exact ⟨Mem.wf_clear _ _ h.1, linesWfFrom_filter _ h.2⟩
  | send o => exact h

/-- Storing what was posted keeps the canonical form. -/
theorem drainPosts_wf (m : PMem) (l : List Post) (h : Memory.wf m = true) : Memory.wf (drainPosts m l) = true := by
  induction l generalizing m with
  | nil => exact h
  | cons p l ih => exact ih (applyPost m p) (applyPost_wf m p h)

end Sys2Proof.Machine
end

