-- ==== Sys2Proof/Laws/State.lean ====
section
/-! SUPPORT. Laws of the state's accessors and updates: one lemma for each field of each update, true by unfolding, and what
is read after something was put. -/

namespace Sys2Proof.Machine

/-! ## What each update leaves alone -/

@[simp] theorem setCore_doms (y : Sys) (c : Core) : (setCore y c).doms = y.doms := rfl
@[simp] theorem setCore_nextDom (y : Sys) (c : Core) : (setCore y c).nextDom = y.nextDom := rfl
@[simp] theorem setCore_objs (y : Sys) (c : Core) : (setCore y c).objs = y.objs := rfl
@[simp] theorem setCore_answers (y : Sys) (c : Core) : (setCore y c).answers = y.answers := rfl
@[simp] theorem setCore_nextTicket (y : Sys) (c : Core) : (setCore y c).nextTicket = y.nextTicket := rfl
@[simp] theorem setCore_shadows (y : Sys) (c : Core) : (setCore y c).shadows = y.shadows := rfl
@[simp] theorem setCore_xfers (y : Sys) (c : Core) : (setCore y c).xfers = y.xfers := rfl
@[simp] theorem setCore_nextXid (y : Sys) (c : Core) : (setCore y c).nextXid = y.nextXid := rfl
@[simp] theorem setCore_vds (y : Sys) (c : Core) : (setCore y c).vds = y.vds := rfl
@[simp] theorem setCore_keys (y : Sys) (c : Core) : (setCore y c).keys = y.keys := rfl
@[simp] theorem setCore_window (y : Sys) (c : Core) : (setCore y c).window = y.window := rfl
@[simp] theorem setCore_torn (y : Sys) (c : Core) : (setCore y c).torn = y.torn := rfl
@[simp] theorem setCore_cached (y : Sys) (c : Core) : (setCore y c).cached = y.cached := rfl
@[simp] theorem setCore_apertures (y : Sys) (c : Core) : (setCore y c).apertures = y.apertures := rfl
@[simp] theorem setCore_mgmt (y : Sys) (c : Core) : (setCore y c).mgmt = y.mgmt := rfl
@[simp] theorem setCore_outbox (y : Sys) (c : Core) : (setCore y c).outbox = y.outbox := rfl
@[simp] theorem setCore_posts (y : Sys) (c : Core) : (setCore y c).posts = y.posts := rfl
@[simp] theorem setCore_sched (y : Sys) (c : Core) : (setCore y c).sched = y.sched := rfl
@[simp] theorem setCore_agenda (y : Sys) (c : Core) : (setCore y c).agenda = y.agenda := rfl
@[simp] theorem setCore_msg (y : Sys) (c : Core) : (setCore y c).msg = y.msg := rfl
@[simp] theorem setCore_curCore (y : Sys) (c : Core) : (setCore y c).curCore = y.curCore := rfl
@[simp] theorem setCore_curRole (y : Sys) (c : Core) : (setCore y c).curRole = y.curRole := rfl
@[simp] theorem setCore_free (y : Sys) (c : Core) : (setCore y c).free = y.free := rfl
@[simp] theorem setCore_corrected (y : Sys) (c : Core) : (setCore y c).corrected = y.corrected := rfl

@[simp] theorem setRole_doms (y : Sys) (c r : Nat) (v : RoleSt) : (setRole y c r v).doms = y.doms := rfl
@[simp] theorem setRole_nextDom (y : Sys) (c r : Nat) (v : RoleSt) : (setRole y c r v).nextDom = y.nextDom := rfl
@[simp] theorem setRole_objs (y : Sys) (c r : Nat) (v : RoleSt) : (setRole y c r v).objs = y.objs := rfl
@[simp] theorem setRole_answers (y : Sys) (c r : Nat) (v : RoleSt) : (setRole y c r v).answers = y.answers := rfl
@[simp] theorem setRole_nextTicket (y : Sys) (c r : Nat) (v : RoleSt) : (setRole y c r v).nextTicket = y.nextTicket := rfl
@[simp] theorem setRole_shadows (y : Sys) (c r : Nat) (v : RoleSt) : (setRole y c r v).shadows = y.shadows := rfl
@[simp] theorem setRole_xfers (y : Sys) (c r : Nat) (v : RoleSt) : (setRole y c r v).xfers = y.xfers := rfl
@[simp] theorem setRole_nextXid (y : Sys) (c r : Nat) (v : RoleSt) : (setRole y c r v).nextXid = y.nextXid := rfl
@[simp] theorem setRole_vds (y : Sys) (c r : Nat) (v : RoleSt) : (setRole y c r v).vds = y.vds := rfl
@[simp] theorem setRole_keys (y : Sys) (c r : Nat) (v : RoleSt) : (setRole y c r v).keys = y.keys := rfl
@[simp] theorem setRole_window (y : Sys) (c r : Nat) (v : RoleSt) : (setRole y c r v).window = y.window := rfl
@[simp] theorem setRole_torn (y : Sys) (c r : Nat) (v : RoleSt) : (setRole y c r v).torn = y.torn := rfl
@[simp] theorem setRole_cached (y : Sys) (c r : Nat) (v : RoleSt) : (setRole y c r v).cached = y.cached := rfl
@[simp] theorem setRole_apertures (y : Sys) (c r : Nat) (v : RoleSt) : (setRole y c r v).apertures = y.apertures := rfl
@[simp] theorem setRole_mgmt (y : Sys) (c r : Nat) (v : RoleSt) : (setRole y c r v).mgmt = y.mgmt := rfl
@[simp] theorem setRole_outbox (y : Sys) (c r : Nat) (v : RoleSt) : (setRole y c r v).outbox = y.outbox := rfl
@[simp] theorem setRole_posts (y : Sys) (c r : Nat) (v : RoleSt) : (setRole y c r v).posts = y.posts := rfl
@[simp] theorem setRole_sched (y : Sys) (c r : Nat) (v : RoleSt) : (setRole y c r v).sched = y.sched := rfl
@[simp] theorem setRole_agenda (y : Sys) (c r : Nat) (v : RoleSt) : (setRole y c r v).agenda = y.agenda := rfl
@[simp] theorem setRole_msg (y : Sys) (c r : Nat) (v : RoleSt) : (setRole y c r v).msg = y.msg := rfl
@[simp] theorem setRole_curCore (y : Sys) (c r : Nat) (v : RoleSt) : (setRole y c r v).curCore = y.curCore := rfl
@[simp] theorem setRole_curRole (y : Sys) (c r : Nat) (v : RoleSt) : (setRole y c r v).curRole = y.curRole := rfl
@[simp] theorem setRole_free (y : Sys) (c r : Nat) (v : RoleSt) : (setRole y c r v).free = y.free := rfl
@[simp] theorem setRole_corrected (y : Sys) (c r : Nat) (v : RoleSt) : (setRole y c r v).corrected = y.corrected := rfl

@[simp] theorem setMe_doms (y : Sys) (v : RoleSt) : (setMe y v).doms = y.doms := rfl
@[simp] theorem setMe_nextDom (y : Sys) (v : RoleSt) : (setMe y v).nextDom = y.nextDom := rfl
@[simp] theorem setMe_objs (y : Sys) (v : RoleSt) : (setMe y v).objs = y.objs := rfl
@[simp] theorem setMe_answers (y : Sys) (v : RoleSt) : (setMe y v).answers = y.answers := rfl
@[simp] theorem setMe_nextTicket (y : Sys) (v : RoleSt) : (setMe y v).nextTicket = y.nextTicket := rfl
@[simp] theorem setMe_shadows (y : Sys) (v : RoleSt) : (setMe y v).shadows = y.shadows := rfl
@[simp] theorem setMe_xfers (y : Sys) (v : RoleSt) : (setMe y v).xfers = y.xfers := rfl
@[simp] theorem setMe_nextXid (y : Sys) (v : RoleSt) : (setMe y v).nextXid = y.nextXid := rfl
@[simp] theorem setMe_vds (y : Sys) (v : RoleSt) : (setMe y v).vds = y.vds := rfl
@[simp] theorem setMe_keys (y : Sys) (v : RoleSt) : (setMe y v).keys = y.keys := rfl
@[simp] theorem setMe_window (y : Sys) (v : RoleSt) : (setMe y v).window = y.window := rfl
@[simp] theorem setMe_torn (y : Sys) (v : RoleSt) : (setMe y v).torn = y.torn := rfl
@[simp] theorem setMe_cached (y : Sys) (v : RoleSt) : (setMe y v).cached = y.cached := rfl
@[simp] theorem setMe_apertures (y : Sys) (v : RoleSt) : (setMe y v).apertures = y.apertures := rfl
@[simp] theorem setMe_mgmt (y : Sys) (v : RoleSt) : (setMe y v).mgmt = y.mgmt := rfl
@[simp] theorem setMe_outbox (y : Sys) (v : RoleSt) : (setMe y v).outbox = y.outbox := rfl
@[simp] theorem setMe_posts (y : Sys) (v : RoleSt) : (setMe y v).posts = y.posts := rfl
@[simp] theorem setMe_sched (y : Sys) (v : RoleSt) : (setMe y v).sched = y.sched := rfl
@[simp] theorem setMe_agenda (y : Sys) (v : RoleSt) : (setMe y v).agenda = y.agenda := rfl
@[simp] theorem setMe_msg (y : Sys) (v : RoleSt) : (setMe y v).msg = y.msg := rfl
@[simp] theorem setMe_curCore (y : Sys) (v : RoleSt) : (setMe y v).curCore = y.curCore := rfl
@[simp] theorem setMe_curRole (y : Sys) (v : RoleSt) : (setMe y v).curRole = y.curRole := rfl
@[simp] theorem setMe_free (y : Sys) (v : RoleSt) : (setMe y v).free = y.free := rfl
@[simp] theorem setMe_corrected (y : Sys) (v : RoleSt) : (setMe y v).corrected = y.corrected := rfl

@[simp] theorem setDom_cores (y : Sys) (d : Domain) : (setDom y d).cores = y.cores := rfl
@[simp] theorem setDom_nextDom (y : Sys) (d : Domain) : (setDom y d).nextDom = y.nextDom := rfl
@[simp] theorem setDom_objs (y : Sys) (d : Domain) : (setDom y d).objs = y.objs := rfl
@[simp] theorem setDom_answers (y : Sys) (d : Domain) : (setDom y d).answers = y.answers := rfl
@[simp] theorem setDom_nextTicket (y : Sys) (d : Domain) : (setDom y d).nextTicket = y.nextTicket := rfl
@[simp] theorem setDom_shadows (y : Sys) (d : Domain) : (setDom y d).shadows = y.shadows := rfl
@[simp] theorem setDom_xfers (y : Sys) (d : Domain) : (setDom y d).xfers = y.xfers := rfl
@[simp] theorem setDom_nextXid (y : Sys) (d : Domain) : (setDom y d).nextXid = y.nextXid := rfl
@[simp] theorem setDom_vds (y : Sys) (d : Domain) : (setDom y d).vds = y.vds := rfl
@[simp] theorem setDom_keys (y : Sys) (d : Domain) : (setDom y d).keys = y.keys := rfl
@[simp] theorem setDom_window (y : Sys) (d : Domain) : (setDom y d).window = y.window := rfl
@[simp] theorem setDom_torn (y : Sys) (d : Domain) : (setDom y d).torn = y.torn := rfl
@[simp] theorem setDom_cached (y : Sys) (d : Domain) : (setDom y d).cached = y.cached := rfl
@[simp] theorem setDom_apertures (y : Sys) (d : Domain) : (setDom y d).apertures = y.apertures := rfl
@[simp] theorem setDom_mgmt (y : Sys) (d : Domain) : (setDom y d).mgmt = y.mgmt := rfl
@[simp] theorem setDom_outbox (y : Sys) (d : Domain) : (setDom y d).outbox = y.outbox := rfl
@[simp] theorem setDom_posts (y : Sys) (d : Domain) : (setDom y d).posts = y.posts := rfl
@[simp] theorem setDom_sched (y : Sys) (d : Domain) : (setDom y d).sched = y.sched := rfl
@[simp] theorem setDom_agenda (y : Sys) (d : Domain) : (setDom y d).agenda = y.agenda := rfl
@[simp] theorem setDom_msg (y : Sys) (d : Domain) : (setDom y d).msg = y.msg := rfl
@[simp] theorem setDom_curCore (y : Sys) (d : Domain) : (setDom y d).curCore = y.curCore := rfl
@[simp] theorem setDom_curRole (y : Sys) (d : Domain) : (setDom y d).curRole = y.curRole := rfl
@[simp] theorem setDom_free (y : Sys) (d : Domain) : (setDom y d).free = y.free := rfl
@[simp] theorem setDom_corrected (y : Sys) (d : Domain) : (setDom y d).corrected = y.corrected := rfl

@[simp] theorem setVd_cores (y : Sys) (v : Vdev) : (setVd y v).cores = y.cores := rfl
@[simp] theorem setVd_doms (y : Sys) (v : Vdev) : (setVd y v).doms = y.doms := rfl
@[simp] theorem setVd_nextDom (y : Sys) (v : Vdev) : (setVd y v).nextDom = y.nextDom := rfl
@[simp] theorem setVd_objs (y : Sys) (v : Vdev) : (setVd y v).objs = y.objs := rfl
@[simp] theorem setVd_answers (y : Sys) (v : Vdev) : (setVd y v).answers = y.answers := rfl
@[simp] theorem setVd_nextTicket (y : Sys) (v : Vdev) : (setVd y v).nextTicket = y.nextTicket := rfl
@[simp] theorem setVd_shadows (y : Sys) (v : Vdev) : (setVd y v).shadows = y.shadows := rfl
@[simp] theorem setVd_xfers (y : Sys) (v : Vdev) : (setVd y v).xfers = y.xfers := rfl
@[simp] theorem setVd_nextXid (y : Sys) (v : Vdev) : (setVd y v).nextXid = y.nextXid := rfl
@[simp] theorem setVd_keys (y : Sys) (v : Vdev) : (setVd y v).keys = y.keys := rfl
@[simp] theorem setVd_window (y : Sys) (v : Vdev) : (setVd y v).window = y.window := rfl
@[simp] theorem setVd_torn (y : Sys) (v : Vdev) : (setVd y v).torn = y.torn := rfl
@[simp] theorem setVd_cached (y : Sys) (v : Vdev) : (setVd y v).cached = y.cached := rfl
@[simp] theorem setVd_apertures (y : Sys) (v : Vdev) : (setVd y v).apertures = y.apertures := rfl
@[simp] theorem setVd_mgmt (y : Sys) (v : Vdev) : (setVd y v).mgmt = y.mgmt := rfl
@[simp] theorem setVd_outbox (y : Sys) (v : Vdev) : (setVd y v).outbox = y.outbox := rfl
@[simp] theorem setVd_posts (y : Sys) (v : Vdev) : (setVd y v).posts = y.posts := rfl
@[simp] theorem setVd_sched (y : Sys) (v : Vdev) : (setVd y v).sched = y.sched := rfl
@[simp] theorem setVd_agenda (y : Sys) (v : Vdev) : (setVd y v).agenda = y.agenda := rfl
@[simp] theorem setVd_msg (y : Sys) (v : Vdev) : (setVd y v).msg = y.msg := rfl
@[simp] theorem setVd_curCore (y : Sys) (v : Vdev) : (setVd y v).curCore = y.curCore := rfl
@[simp] theorem setVd_curRole (y : Sys) (v : Vdev) : (setVd y v).curRole = y.curRole := rfl
@[simp] theorem setVd_free (y : Sys) (v : Vdev) : (setVd y v).free = y.free := rfl
@[simp] theorem setVd_corrected (y : Sys) (v : Vdev) : (setVd y v).corrected = y.corrected := rfl

@[simp] theorem setObj_cores (y : Sys) (o : Obj) : (setObj y o).cores = y.cores := rfl
@[simp] theorem setObj_doms (y : Sys) (o : Obj) : (setObj y o).doms = y.doms := rfl
@[simp] theorem setObj_nextDom (y : Sys) (o : Obj) : (setObj y o).nextDom = y.nextDom := rfl
@[simp] theorem setObj_answers (y : Sys) (o : Obj) : (setObj y o).answers = y.answers := rfl
@[simp] theorem setObj_nextTicket (y : Sys) (o : Obj) : (setObj y o).nextTicket = y.nextTicket := rfl
@[simp] theorem setObj_shadows (y : Sys) (o : Obj) : (setObj y o).shadows = y.shadows := rfl
@[simp] theorem setObj_xfers (y : Sys) (o : Obj) : (setObj y o).xfers = y.xfers := rfl
@[simp] theorem setObj_nextXid (y : Sys) (o : Obj) : (setObj y o).nextXid = y.nextXid := rfl
@[simp] theorem setObj_vds (y : Sys) (o : Obj) : (setObj y o).vds = y.vds := rfl
@[simp] theorem setObj_keys (y : Sys) (o : Obj) : (setObj y o).keys = y.keys := rfl
@[simp] theorem setObj_window (y : Sys) (o : Obj) : (setObj y o).window = y.window := rfl
@[simp] theorem setObj_torn (y : Sys) (o : Obj) : (setObj y o).torn = y.torn := rfl
@[simp] theorem setObj_cached (y : Sys) (o : Obj) : (setObj y o).cached = y.cached := rfl
@[simp] theorem setObj_apertures (y : Sys) (o : Obj) : (setObj y o).apertures = y.apertures := rfl
@[simp] theorem setObj_mgmt (y : Sys) (o : Obj) : (setObj y o).mgmt = y.mgmt := rfl
@[simp] theorem setObj_outbox (y : Sys) (o : Obj) : (setObj y o).outbox = y.outbox := rfl
@[simp] theorem setObj_posts (y : Sys) (o : Obj) : (setObj y o).posts = y.posts := rfl
@[simp] theorem setObj_sched (y : Sys) (o : Obj) : (setObj y o).sched = y.sched := rfl
@[simp] theorem setObj_agenda (y : Sys) (o : Obj) : (setObj y o).agenda = y.agenda := rfl
@[simp] theorem setObj_msg (y : Sys) (o : Obj) : (setObj y o).msg = y.msg := rfl
@[simp] theorem setObj_curCore (y : Sys) (o : Obj) : (setObj y o).curCore = y.curCore := rfl
@[simp] theorem setObj_curRole (y : Sys) (o : Obj) : (setObj y o).curRole = y.curRole := rfl
@[simp] theorem setObj_free (y : Sys) (o : Obj) : (setObj y o).free = y.free := rfl
@[simp] theorem setObj_corrected (y : Sys) (o : Obj) : (setObj y o).corrected = y.corrected := rfl

@[simp] theorem setKeySlot_cores (y : Sys) (c n : Nat) (k : KeySlot) : (setKeySlot y c n k).cores = y.cores := rfl
@[simp] theorem setKeySlot_doms (y : Sys) (c n : Nat) (k : KeySlot) : (setKeySlot y c n k).doms = y.doms := rfl
@[simp] theorem setKeySlot_nextDom (y : Sys) (c n : Nat) (k : KeySlot) : (setKeySlot y c n k).nextDom = y.nextDom := rfl
@[simp] theorem setKeySlot_objs (y : Sys) (c n : Nat) (k : KeySlot) : (setKeySlot y c n k).objs = y.objs := rfl
@[simp] theorem setKeySlot_answers (y : Sys) (c n : Nat) (k : KeySlot) : (setKeySlot y c n k).answers = y.answers := rfl
@[simp] theorem setKeySlot_nextTicket (y : Sys) (c n : Nat) (k : KeySlot) : (setKeySlot y c n k).nextTicket = y.nextTicket := rfl
@[simp] theorem setKeySlot_shadows (y : Sys) (c n : Nat) (k : KeySlot) : (setKeySlot y c n k).shadows = y.shadows := rfl
@[simp] theorem setKeySlot_xfers (y : Sys) (c n : Nat) (k : KeySlot) : (setKeySlot y c n k).xfers = y.xfers := rfl
@[simp] theorem setKeySlot_nextXid (y : Sys) (c n : Nat) (k : KeySlot) : (setKeySlot y c n k).nextXid = y.nextXid := rfl
@[simp] theorem setKeySlot_vds (y : Sys) (c n : Nat) (k : KeySlot) : (setKeySlot y c n k).vds = y.vds := rfl
@[simp] theorem setKeySlot_window (y : Sys) (c n : Nat) (k : KeySlot) : (setKeySlot y c n k).window = y.window := rfl
@[simp] theorem setKeySlot_torn (y : Sys) (c n : Nat) (k : KeySlot) : (setKeySlot y c n k).torn = y.torn := rfl
@[simp] theorem setKeySlot_cached (y : Sys) (c n : Nat) (k : KeySlot) : (setKeySlot y c n k).cached = y.cached := rfl
@[simp] theorem setKeySlot_apertures (y : Sys) (c n : Nat) (k : KeySlot) : (setKeySlot y c n k).apertures = y.apertures := rfl
@[simp] theorem setKeySlot_mgmt (y : Sys) (c n : Nat) (k : KeySlot) : (setKeySlot y c n k).mgmt = y.mgmt := rfl
@[simp] theorem setKeySlot_outbox (y : Sys) (c n : Nat) (k : KeySlot) : (setKeySlot y c n k).outbox = y.outbox := rfl
@[simp] theorem setKeySlot_posts (y : Sys) (c n : Nat) (k : KeySlot) : (setKeySlot y c n k).posts = y.posts := rfl
@[simp] theorem setKeySlot_sched (y : Sys) (c n : Nat) (k : KeySlot) : (setKeySlot y c n k).sched = y.sched := rfl
@[simp] theorem setKeySlot_agenda (y : Sys) (c n : Nat) (k : KeySlot) : (setKeySlot y c n k).agenda = y.agenda := rfl
@[simp] theorem setKeySlot_msg (y : Sys) (c n : Nat) (k : KeySlot) : (setKeySlot y c n k).msg = y.msg := rfl
@[simp] theorem setKeySlot_curCore (y : Sys) (c n : Nat) (k : KeySlot) : (setKeySlot y c n k).curCore = y.curCore := rfl
@[simp] theorem setKeySlot_curRole (y : Sys) (c n : Nat) (k : KeySlot) : (setKeySlot y c n k).curRole = y.curRole := rfl
@[simp] theorem setKeySlot_free (y : Sys) (c n : Nat) (k : KeySlot) : (setKeySlot y c n k).free = y.free := rfl
@[simp] theorem setKeySlot_corrected (y : Sys) (c n : Nat) (k : KeySlot) : (setKeySlot y c n k).corrected = y.corrected := rfl

@[simp] theorem schedule_cores (y : Sys) (t : Nat) (i : Instr) (m : HomeMsg) : (schedule y t i m).cores = y.cores := rfl
@[simp] theorem schedule_doms (y : Sys) (t : Nat) (i : Instr) (m : HomeMsg) : (schedule y t i m).doms = y.doms := rfl
@[simp] theorem schedule_nextDom (y : Sys) (t : Nat) (i : Instr) (m : HomeMsg) : (schedule y t i m).nextDom = y.nextDom := rfl
@[simp] theorem schedule_objs (y : Sys) (t : Nat) (i : Instr) (m : HomeMsg) : (schedule y t i m).objs = y.objs := rfl
@[simp] theorem schedule_answers (y : Sys) (t : Nat) (i : Instr) (m : HomeMsg) : (schedule y t i m).answers = y.answers := rfl
@[simp] theorem schedule_nextTicket (y : Sys) (t : Nat) (i : Instr) (m : HomeMsg) : (schedule y t i m).nextTicket = y.nextTicket := rfl
@[simp] theorem schedule_shadows (y : Sys) (t : Nat) (i : Instr) (m : HomeMsg) : (schedule y t i m).shadows = y.shadows := rfl
@[simp] theorem schedule_xfers (y : Sys) (t : Nat) (i : Instr) (m : HomeMsg) : (schedule y t i m).xfers = y.xfers := rfl
@[simp] theorem schedule_nextXid (y : Sys) (t : Nat) (i : Instr) (m : HomeMsg) : (schedule y t i m).nextXid = y.nextXid := rfl
@[simp] theorem schedule_vds (y : Sys) (t : Nat) (i : Instr) (m : HomeMsg) : (schedule y t i m).vds = y.vds := rfl
@[simp] theorem schedule_keys (y : Sys) (t : Nat) (i : Instr) (m : HomeMsg) : (schedule y t i m).keys = y.keys := rfl
@[simp] theorem schedule_window (y : Sys) (t : Nat) (i : Instr) (m : HomeMsg) : (schedule y t i m).window = y.window := rfl
@[simp] theorem schedule_torn (y : Sys) (t : Nat) (i : Instr) (m : HomeMsg) : (schedule y t i m).torn = y.torn := rfl
@[simp] theorem schedule_cached (y : Sys) (t : Nat) (i : Instr) (m : HomeMsg) : (schedule y t i m).cached = y.cached := rfl
@[simp] theorem schedule_apertures (y : Sys) (t : Nat) (i : Instr) (m : HomeMsg) : (schedule y t i m).apertures = y.apertures := rfl
@[simp] theorem schedule_mgmt (y : Sys) (t : Nat) (i : Instr) (m : HomeMsg) : (schedule y t i m).mgmt = y.mgmt := rfl
@[simp] theorem schedule_outbox (y : Sys) (t : Nat) (i : Instr) (m : HomeMsg) : (schedule y t i m).outbox = y.outbox := rfl
@[simp] theorem schedule_posts (y : Sys) (t : Nat) (i : Instr) (m : HomeMsg) : (schedule y t i m).posts = y.posts := rfl
@[simp] theorem schedule_agenda (y : Sys) (t : Nat) (i : Instr) (m : HomeMsg) : (schedule y t i m).agenda = y.agenda := rfl
@[simp] theorem schedule_msg (y : Sys) (t : Nat) (i : Instr) (m : HomeMsg) : (schedule y t i m).msg = y.msg := rfl
@[simp] theorem schedule_curCore (y : Sys) (t : Nat) (i : Instr) (m : HomeMsg) : (schedule y t i m).curCore = y.curCore := rfl
@[simp] theorem schedule_curRole (y : Sys) (t : Nat) (i : Instr) (m : HomeMsg) : (schedule y t i m).curRole = y.curRole := rfl
@[simp] theorem schedule_free (y : Sys) (t : Nat) (i : Instr) (m : HomeMsg) : (schedule y t i m).free = y.free := rfl
@[simp] theorem schedule_corrected (y : Sys) (t : Nat) (i : Instr) (m : HomeMsg) : (schedule y t i m).corrected = y.corrected := rfl

@[simp] theorem lift_eq (f : State → Sys) (s : State) : lift f s = .next { s with sys := f s } := rfl

/-! ## Cores and roles -/

@[simp] theorem Core.setRole_id (c : Core) (r : Nat) (v : RoleSt) : (c.setRole r v).id = c.id := rfl

/-- The core found at a number has that number. -/
@[simp] theorem coreOf_id (y : Sys) (n : Nat) : (coreOf y n).id = n := by
  unfold coreOf
  cases h : getBy Core.id n y.cores with
  | none => rfl
  | some c => exact getBy_key _ _ _ _ h

/-- A core that was put back is found under its number. -/
@[simp] theorem coreOf_setCore_same (y : Sys) (c : Core) : coreOf (setCore y c) c.id = c := by
  simp [coreOf, setCore, getBy_putBy_same]

/-- The other cores stay. -/
theorem coreOf_setCore_other (y : Sys) (c : Core) (n : Nat) (h : n ≠ c.id) : coreOf (setCore y c) n = coreOf y n := by
  simp [coreOf, setCore, getBy_putBy_other _ _ _ _ h]

/-- The replaced role of a core. -/
theorem Core.role_setRole_same (c : Core) (r : Nat) (v : RoleSt) (h : r < 3) : (c.setRole r v).role r = v := by
  obtain rfl | rfl | rfl : r = 0 ∨ r = 1 ∨ r = 2 := by omega
  all_goals simp [Core.role, Core.setRole]

/-- The other roles of a core stay. -/
theorem Core.role_setRole_other (c : Core) (r q : Nat) (v : RoleSt) (hr : r < 3) (hq : q < 3) (h : q ≠ r) :
    (c.setRole r v).role q = c.role q := by
  obtain rfl | rfl | rfl : r = 0 ∨ r = 1 ∨ r = 2 := by omega
  all_goals
    obtain rfl | rfl | rfl : q = 0 ∨ q = 1 ∨ q = 2 := by omega
  all_goals first | exact absurd rfl h | simp [Core.role, Core.setRole]

/-- A role that was put back is found. -/
theorem roleOf_setRole_same (y : Sys) (c r : Nat) (v : RoleSt) (h : r < 3) : roleOf (setRole y c r v) c r = v := by
  have e := coreOf_setCore_same y ((coreOf y c).setRole r v)
  simp only [Core.setRole_id, coreOf_id] at e
  simp [roleOf, setRole, e, Core.role_setRole_same _ _ _ h]

/-- Every other role of every core stays. -/
theorem roleOf_setRole_other (y : Sys) (c r d q : Nat) (v : RoleSt) (hr : r < 3) (hq : q < 3) (h : d ≠ c ∨ q ≠ r) :
    roleOf (setRole y c r v) d q = roleOf y d q := by
  by_cases hd : d = c
  · subst hd
    have e := coreOf_setCore_same y ((coreOf y d).setRole r v)
    simp only [Core.setRole_id, coreOf_id] at e
    have hq' : q ≠ r := by simpa using h
    simp [roleOf, setRole, e, Core.role_setRole_other _ _ _ _ hr hq hq']
  · have e := coreOf_setCore_other y ((coreOf y c).setRole r v) d (by simpa using hd)
    simp [roleOf, setRole, e]

/-- The acting role after it was put back. -/
theorem me_setMe (y : Sys) (v : RoleSt) (h : y.curRole < 3) : me (setMe y v) = v := roleOf_setRole_same _ _ _ _ h

/-! ## Scalar registers (R11) -/

@[simp] theorem RoleSt.s_zero (r : RoleSt) : r.s 0 = 0 := rfl
@[simp] theorem RoleSt.setS_zero (r : RoleSt) (v : Dword) : r.setS 0 v = r := rfl
@[simp] theorem RoleSt.setS_pc (r : RoleSt) (n : Nat) (v : Dword) : (r.setS n v).pc = r.pc := by unfold RoleSt.setS; split <;> rfl
@[simp] theorem RoleSt.setS_handler (r : RoleSt) (n : Nat) (v : Dword) : (r.setS n v).handler = r.handler := by
  unfold RoleSt.setS; split <;> rfl

/-- A written scalar register but s0 holds the value. -/
theorem RoleSt.s_setS_same (r : RoleSt) (n : Nat) (v : Dword) (h0 : n ≠ 0) (h : n < 32) : (r.setS n v).s n = v := by
  simp [RoleSt.setS, RoleSt.s, h0, h]

/-- The other scalar registers stay. -/
theorem RoleSt.s_setS_other (r : RoleSt) (n k : Nat) (v : Dword) (h : k ≠ n) : (r.setS n v).s k = r.s k := by
  by_cases h0 : n = 0
  · simp [RoleSt.setS, h0]
  · simp [RoleSt.setS, RoleSt.s, h0, Ne.symm h]

/-! ## Domains, virtual devices, objects, key slots -/

@[simp] theorem domAt_setDom_same (y : Sys) (d : Domain) : domAt (setDom y d) d.id = some d := by
  simp [domAt, setDom, getBy_putBy_same]

theorem domAt_setDom_other (y : Sys) (d : Domain) (n : Nat) (h : n ≠ d.id) : domAt (setDom y d) n = domAt y n := by
  simp [domAt, setDom, getBy_putBy_other _ _ _ _ h]

@[simp] theorem vdOf_setVd_same (y : Sys) (v : Vdev) : vdOf (setVd y v) v.key = v := by
  simp [vdOf, setVd, getBy_putBy_same]

theorem vdOf_setVd_other (y : Sys) (v : Vdev) (n : Nat) (h : n ≠ v.key) : vdOf (setVd y v) n = vdOf y n := by
  simp [vdOf, setVd, getBy_putBy_other _ _ _ _ h]

@[simp] theorem objOf_setObj_same (y : Sys) (o : Obj) : objOf (setObj y o) o.key = some o := by
  simp [objOf, setObj, getBy_putBy_same]

theorem objOf_setObj_other (y : Sys) (o : Obj) (n : Nat) (h : n ≠ o.key) : objOf (setObj y o) n = objOf y n := by
  simp [objOf, setObj, getBy_putBy_other _ _ _ _ h]

end Sys2Proof.Machine
end

