-- ==== Sys2Proof/Laws/Ops.lean ====
section
/-! SUPPORT. One lemma for each shared operation: what it answers, in the words of Safety.lean. -/

namespace Sys2Proof.Machine

/-! ## The front end -/

/-- Readable sources make no instruction wait. -/
theorem readable_any {s : State} {ns : List Nat} (h : s.readable ns) : ns.any s.sys.waits = false := by
  simpa [State.readable, List.any_eq_false] using h

/-- A scalar operation with its sources there writes its result and goes on. -/
theorem alu_next {s : State} {d : Nat} {ns : List Nat} (f : RoleSt → Dword) (h : s.readable ns) :
    alu d ns f s = .next (s.wrote d (f (me s.sys))) := by
  simp [alu, lift, readable_any h, State.wrote, State.withMe]

/-- A scalar operation that waits for a source changes nothing. -/
theorem alu_wait {s : State} {d : Nat} {ns : List Nat} (f : RoleSt → Dword) (h : ns.any s.sys.waits = true) :
    alu d ns f s = .next s := by
  simp [alu, lift, h]

/-- A branch with its sources there goes to one of two places. -/
theorem branch_next {s : State} {ns : List Nat} {off : Nat} (c : RoleSt → Bool) (h : s.readable ns) :
    branch ns off c s = .next (s.goneTo (if c (me s.sys) then branchTarget (me s.sys).pc off else (me s.sys).pc + 4)) := by
  simp [branch, lift, readable_any h, State.goneTo, State.withMe]

/-- A branch that waits for a source changes nothing. -/
theorem branch_wait {s : State} {ns : List Nat} {off : Nat} (c : RoleSt → Bool) (h : ns.any s.sys.waits = true) :
    branch ns off c s = .next s := by
  simp [branch, lift, h]

/-- A scalar access that waits changes nothing. -/
theorem scalarAccess_wait {s : State} {l : Bool} {w d a o : Nat}
    (h : ((me s.sys).sacc.isSome || s.sys.waits a || (!l && s.sys.waits d)) = true) :
    scalarAccess l w d a o s = .next s := by
  simp only [scalarAccess, lift, h, if_true]

/-- A control-register instruction that waits changes nothing. -/
theorem csrOp_wait {s : State} {d c : Nat} {ns : List Nat} (g : Dword → RoleSt → Option Dword)
    (h : (ns.any s.sys.waits || s.sys.waitsCsr c) = true) : csrOp d ns c g s = .next s := by
  simp only [csrOp, lift, h, if_true]

/-- A control-register instruction: the register written, then its old value in s[d]. -/
theorem csrOp_next {s : State} {d c : Nat} {ns : List Nat} (g : Dword → RoleSt → Option Dword) (h : s.readable ns)
    (hc : s.sys.waitsCsr c = false) : csrOp d ns c g s = .next (
      State.wrote { s with sys := match g (readCsr s s.sys.curCore s.sys.curRole c) (me s.sys) with
        | some v => setCore s.sys (writeCsr (coreOf s.sys s.sys.curCore) s.sys.curRole c v)
        | none => s.sys } d (readCsr s s.sys.curCore s.sys.curRole c)) := by
  simp only [csrOp, lift]
  rw [if_neg (by simp [readable_any h, hc])]
  rfl

/-- trap and svc with their code there raise their cause at the next word. -/
theorem softTrap_next {s : State} {k a : Nat} (h : s.sys.waits a = false) :
    softTrap k a s = .next (s.raises (frontCause k ((me s.sys).s a).toNat ((me s.sys).pc + 4))) := by
  simp [softTrap, lift, h, State.raises]

end Sys2Proof.Machine
end

