-- ==== Sys2Proof/Laws/Places.lean ====
section
/-! SUPPORT. What a place of the machine reads as after it, or another, has been written: cores, roles, domains, virtual devices,
objects; and what the operations over them that most meanings share do to it. -/

namespace Sys2Proof.Machine

/-! ## A core read back -/

theorem coreOf_setCore (y : Sys) (c : Core) (x : Nat) : coreOf (setCore y c) x = if x = c.id then c else coreOf y x := by
  unfold coreOf setCore
  by_cases h : x = c.id
  · subst h; simp [getBy_putBy_same]
  · simp [h, getBy_putBy_other]

theorem coreOf_setRole (y : Sys) (c r x : Nat) (v : RoleSt) :
    coreOf (setRole y c r v) x = if x = c then (coreOf y c).setRole r v else coreOf y x := by
  simp [setRole, coreOf_setCore, Core.setRole]

@[simp] theorem roleOf_setDom (y : Sys) (d : Domain) (c r : Nat) : roleOf (setDom y d) c r = roleOf y c r := rfl
@[simp] theorem roleOf_setVd (y : Sys) (v : Vdev) (c r : Nat) : roleOf (setVd y v) c r = roleOf y c r := rfl
@[simp] theorem coreOf_setDom (y : Sys) (d : Domain) (c : Nat) : coreOf (setDom y d) c = coreOf y c := rfl
@[simp] theorem coreOf_setVd (y : Sys) (v : Vdev) (c : Nat) : coreOf (setVd y v) c = coreOf y c := rfl

/-! ## Scalar registers -/

theorem RoleSt.s_setS (r : RoleSt) (n m : Nat) (v : Dword) (h : n < 32) :
    (r.setS n v).s m = if m = 0 then 0 else if m = n then v else r.s m := by
  unfold RoleSt.setS RoleSt.s
  by_cases h0 : m = 0
  · simp [h0]
  · by_cases hn : n = 0
    · subst hn; simp [h0]
    · by_cases hm : m = n
      · subst hm; simp [h0, h]
      · simp [h0, hn, hm, Ne.symm hm]

/-! ## Domains, virtual devices, objects -/

theorem domAt_id {y : Sys} {k : Nat} {d : Domain} (h : domAt y k = some d) : d.id = k := getBy_key Domain.id k y.doms d h
@[simp] theorem domAt_setCore (y : Sys) (c : Core) (k : Nat) : domAt (setCore y c) k = domAt y k := rfl
@[simp] theorem domAt_setRole (y : Sys) (c r k : Nat) (v : RoleSt) : domAt (setRole y c r v) k = domAt y k := rfl
@[simp] theorem domAt_setVd (y : Sys) (v : Vdev) (k : Nat) : domAt (setVd y v) k = domAt y k := rfl

@[simp] theorem vdOf_key (y : Sys) (k : Nat) : (vdOf y k).key = k := by
  unfold vdOf
  cases h : getBy Vdev.key k y.vds with
  | none => rfl
  | some x => exact getBy_key Vdev.key k y.vds x h

theorem vdOf_setVd (y : Sys) (v : Vdev) (k : Nat) : vdOf (setVd y v) k = if k = v.key then v else vdOf y k := by
  unfold vdOf setVd
  by_cases h : k = v.key
  · subst h; simp [getBy_putBy_same]
  · simp [h, getBy_putBy_other]

@[simp] theorem vdOf_setDom (y : Sys) (d : Domain) (k : Nat) : vdOf (setDom y d) k = vdOf y k := rfl
@[simp] theorem vdOf_setCore (y : Sys) (c : Core) (k : Nat) : vdOf (setCore y c) k = vdOf y k := rfl
@[simp] theorem vdOf_schedule (y : Sys) (t : Nat) (i : Instr) (m : HomeMsg) (k : Nat) : vdOf (schedule y t i m) k = vdOf y k := rfl

theorem objOf_key {y : Sys} {h : Nat} {o : Obj} (e : objOf y h = some o) : o.key = h := getBy_key Obj.key h y.objs o e

/-! ## Operations that meanings share -/

/-- A meaning changes GTC and memory in no way, and answers a next state. -/
theorem lift_next (f : State → Sys) (s : State) : lift f s = .next { s with sys := f s } := rfl

/-- A message out leaves everything but the posts. -/
theorem sendOut_frame (y : Sys) (o : Out) : ∃ l, sendOut y o = { y with posts := y.posts ++ l } := ⟨_, rfl⟩

/-- A vector that is raised changes at most its own entry, and the posts. -/
theorem raiseMsix_frame (y : Sys) (fn vec : Nat) :
    ∃ v l, raiseMsix y fn vec = { y with mgmt := { y.mgmt with vectors := v }, posts := y.posts ++ l } := by
  unfold raiseMsix
  split
  · exact ⟨y.mgmt.vectors, [], by simp⟩
  · by_cases h : (msixAt y fn vec).mask = true
    · exact ⟨_, [], by simp [h, setMsix]; rfl⟩
    · exact ⟨y.mgmt.vectors, _, by simp only [h, Bool.false_eq_true, if_false]; rfl⟩

/-- An answer changes at most the answers and the counter of free values. -/
theorem reply_frame (y : Sys) (g : Nat) (m : HomeMsg) (first status who value : Nat) :
    ∃ l n, reply y g m first status who value = { y with answers := y.answers ++ l, free := n } := by
  unfold reply takeFree
  split
  · exact ⟨[], y.free, by simp⟩
  · split
    · exact ⟨_, _, rfl⟩
    · exact ⟨_, y.free, rfl⟩

/-- A request complete: its device's answer, and at most a message. -/
theorem completeRequest_vd (y : Sys) (vk r d : Nat) :
    vdOf (completeRequest y vk r d) vk = { vdOf y vk with busy := false, result := r, detail := d } := by
  unfold completeRequest
  obtain ⟨v, l, h⟩ := raiseMsix_frame (setVd y { vdOf y vk with busy := false, result := r, detail := d }) 0 (vk % 32)
  rw [h]
  show vdOf (setVd y _) vk = _
  simp [vdOf_setVd]

/-- A cause changes its role and its domain and nothing else. -/
theorem takeCause_frame (y : Sys) (g core role : Nat) (k : Cause) :
    ∃ d, takeCause y g core role k = setRole (setDom y d) core role ((roleOf y core role).enter g k) := ⟨_, rfl⟩

theorem takeCause_role (y : Sys) (g core role : Nat) (k : Cause) (h : role < 3) :
    roleOf (takeCause y g core role k) core role = (roleOf y core role).enter g k := by
  obtain ⟨d, e⟩ := takeCause_frame y g core role k
  rw [e, roleOf_setRole_same _ _ _ _ h]

theorem takeCause_other (y : Sys) (g core role c q : Nat) (k : Cause) (hr : role < 3) (hq : q < 3)
    (h : c ≠ core ∨ q ≠ role) :
    roleOf (takeCause y g core role k) c q = roleOf y c q := by
  obtain ⟨d, e⟩ := takeCause_frame y g core role k
  rw [e, roleOf_setRole_other _ _ _ _ _ _ hr hq h]
  rfl

/-- A role outside handler mode that meets a cause takes it. -/
theorem raise_takes (s : State) (y : Sys) (core role : Nat) (k : Cause) (h : (roleOf y core role).aside = none) :
    raise s y core role k = takeCause y s.gtc core role k := by
  simp [raise, h]

end Sys2Proof.Machine
end

