-- ==== Sys2Proof/Tests/Slice0.lean ====
section
/-! SUPPORT. Tests: what WellFormed refuses, words of the manual with what they decode to, single steps of small states, and for each
obligation states and operands that meet its hypotheses. Expected values come from the manual's rules and programs, as each comment says. -/

namespace Sys2Proof.Tests
/- One theorem after another: side by side, theorems that wait for the kernel hold a thread each. -/
set_option Elab.async false

open Sys2Proof.Machine

/-! ## Well-formedness -/

/-- An ill-formed term for every kind of check of R43 to R57, and a well-formed one beside it. -/
theorem test_wf_register : wf (.add 32 0 0) = false ∧ wf (.add 31 31 31) = true := by decide
theorem test_wf_immediate : wf (.addi 1 1 32768) = false ∧ wf (.addi 1 1 32767) = true := by decide
theorem test_wf_shift : wf (.slli 1 1 64) = false ∧ wf (.slli 1 1 63) = true := by decide
theorem test_wf_offset : wf (.slb 1 1 8192) = false ∧ wf (.beq 1 131072) = false ∧ wf (.beq 1 131071) = true := by decide
theorem test_wf_even_pair : wf (.bltu 1 0) = false ∧ wf (.bltu 2 0) = true := by decide
theorem test_wf_csr : wf (.csrr 1 0x0A) = false ∧ wf (.csrr 1 0x09) = true ∧ wf (.csrw 0 1 0x63) = false := by decide
theorem test_wf_mode : wf (.mode 0 0 19 0 0) = false ∧ wf (.mode 0 0 18 7 0) = false ∧ wf (.mode 7 1 18 6 8191) = true := by decide
theorem test_wf_vector : wf (.vadd 64 0 0) = false ∧ wf (.vadd 63 63 63) = true := by decide
theorem test_wf_mask : wf (.mand 0 1 2) = false ∧ wf (.mand 16 1 2) = false ∧ wf (.mand 15 1 2) = true := by decide
theorem test_wf_scalar_in_vector : wf (.vbcast 1 32) = false ∧ wf (.vbcast 1 31) = true := by decide
theorem test_wf_tile : wf (.mmad 8 0 0) = false ∧ wf (.mmad 7 15 15) = true := by decide
theorem test_wf_event : wf (.entryIssue 0 3) = false ∧ wf (.entryIssue 0 2) = true := by decide

/-! ## Decoding -/

/-- The words that the manual prints beside its programs' lines, family by family. -/
theorem test_decode_scalar :
    [0x065000FF, 0x0E528016, 0x0A729000, 0x16A00082, 0x05E39802, 0x0462140A, 0x04720010, 0x0559D001, 0x058C0803, 0x14940069, 0x118D8020,
      0x086D0001].map (decodeTableWord 32) =
    [some (.addi 5 0 255), some (.slli 5 5 22), some (.ori 7 5 0x1000), some (.lui 10 0x82), some (.and 30 7 6), some (.div 6 4 5),
      some (.clz 7 4), some (.sub 21 19 20), some (.or 24 24 2), some (.slti 9 8 105), some (.srli 24 27 32), some (.andi 6 26 1)] := by
  decide
theorem test_decode_control :
    [0x2102002B, 0x20600003, 0x20C80003, 0x2093FFF3, 0x22000005, 0x240F8000, 0x32030000, 0x30600061, 0x38028000, 0x38000002, 0x38000003,
      0x3A000064, 0x0200001C, 0x020A0387].map (decodeTableWord 32) =
    [some (.bne 16 43), some (.beq 6 3), some (.bltu 12 3), some (.bne 9 131059), some (.jal 5), some (.jalr 0 31 0), some (.csrw 0 6 0),
      some (.csrr 6 0x61), some (.trap 5), some .tret, some .halt, some (.ttsync 0 100), some (.mode 0 0 0 0 28),
      some (.mode 0 0 10 0 903)] := by decide
theorem test_decode_scalar_memory :
    [0x1A744000, 0x1B194000, 0x1A62E000, 0x1D42C080, 0x1D82E0C0, 0x1D29E048].map (decodeTableWord 32) =
    [some (.slw 7 8 0), some (.slw 17 18 0), some (.sld 6 5 0), some (.ssw 20 5 0x80), some (.ssd 24 5 0xC0), some (.ssd 18 19 0x48)] := by
  decide
theorem test_decode_context :
    [0x3E030000, 0x3E050001, 0x3E050002].map (decodeTableWord 32) = [some (.vsave 6), some (.vrestore 10), some (.replay 10)] := by
  decide
theorem test_decode_vector :
    [0x40C30B80, 0x40B28A89, 0x40BAC011, 0x44100001, 0x46B22000, 0x46A34001, 0x4CD30006, 0x80A2AB00, 0x80C2EB01, 0x80BA8B02,
      0x80C2E009].map (decodeTableWord 32) =
    [some (.vadd 24 24 23), some (.vxor 22 20 21), some (.vpopc 23 22), some (.mor 2 0 0), some (.vbcast 22 17), some (.vextract 20 26 0),
      some (.vredminidx 26 24), some (.vfadd 20 21 22), some (.vfsub 24 23 22), some (.vfmul 23 20 22), some (.vfexp2 24 23)] := by decide
theorem test_decode_matrix :
    [0xA0804000, 0xA008D008, 0xA2000000, 0xA2000920, 0xA20011E0, 0xA20015E0, 0xA5030000].map (decodeTableWord 32) =
    [some (.mmabO 2 0 1), some (.xscacc 0 2 3 2), some (.oclaim 0), some (.oload 0 9), some (.aload 0 15), some (.astore 0 15),
      some (.tshape 16 6)] := by decide
theorem test_decode_memory :
    [0xB0A0E000, 0xB2A8E000, 0xB400C103, 0xB400C702, 0xB6096000, 0xC1660000, 0xC127B801].map (decodeTableWord 32) =
    [some (.vld 20 7 0), some (.vst 21 7 0), some (.vldf 0 6 2), some (.vldt 0 6 14), some (.mld 1 11), some (.xgo 22 12),
      some (.xdrain 18 15 14)] := by decide
theorem test_decode_sync :
    [0xD0853000, 0xD1A53010, 0xD2054020, 0xE1653000, 0xE1853410].map (decodeTableWord 32) =
    [some (.arrive 8 10 12), some (.bwait 26 10 12), some (.bind 10 16), some (.coll 22 10 12), some (.collwait 24 10 13)] := by decide
/-- The reason of an illegal encoding at decode; 0 for a legal one. -/
def reasonOf (w : Nat) : Nat := match decodeNat w with | .error k => k | .ok _ => 0
/-- R57: OP 0x00 is unassigned (1), a control register that does not exist (2), a reserved field (3),
a reserved MODE value (4), a mask number (5), an odd pair (6). -/
theorem test_decode_rejects :
    [0x00000000, 0x30600062 + 1, 0x16A08082, 0x02130000, 0x44000000, 0x20180000].map reasonOf = [1, 2, 3, 4, 5, 6] := by decide

/-! ## Single steps -/

/-- The next state, or the state itself where there is none. -/
def after (i : Instr) (s : State) : State := match exec i s with | .next t => t | _ => s

/-- Role L of core 0 acts, in a launch of its own, with nothing on the agenda: TTC 0, next stamp 16. -/
def w0 : State :=
  let s := State.reset.withFetchWord 32 0
  { s with sys := { s.sys with agenda := [] } }

/-- The acting role with some scalar registers written. -/
def sets (s : State) (l : List (Nat × Nat)) : State := s.withMe (l.foldl (fun r p => r.setS p.1 (BitVec.ofNat 64 p.2)) (me s.sys))

/-- The acting role after a change. -/
def withRole (s : State) (f : RoleSt → RoleSt) : State := s.withMe (f (me s.sys))

/-- The core of the acting role after a change. -/
def withCore (s : State) (f : Core → Core) : State := { s with sys := setCore s.sys (f s.myCore) }

/-- The values of scalar registers of the acting role. -/
def gets (s : State) (l : List Nat) : List Nat := l.map fun n => ((me s.sys).s n).toNat

/-- −6 and 4. -/
def w1 : State := sets w0 [(1, 2 ^ 64 - 6), (2, 4)]

/-- RegisterOperations, ImmediateOperations: w1 meets `readable`. R112: −6 + 4, −6 − 4, −6 / 4 and −6 rem 4 toward zero, order signed and
unsigned, shifts by s2 mod 64. -/
theorem witness_readable : w1.readable [1, 2] ∧ w1.hasRole := by decide
theorem test_register_operations :
    [Instr.add 3 1 2, .sub 3 1 2, .div 3 1 2, .rem 3 1 2, .slt 3 1 2, .sltu 3 1 2, .sra 3 1 2, .min 3 1 2, .mulh 3 1 2, .popc 3 1].map
      (fun i => gets (after i w1) [3]) =
    [[2 ^ 64 - 2], [2 ^ 64 - 10], [2 ^ 64 - 1], [2 ^ 64 - 2], [1], [0], [2 ^ 64 - 1], [2 ^ 64 - 6], [2 ^ 64 - 1], [62]] := by decide
/-- R112: a quotient of a division by zero is all ones and its remainder the dividend; the least number divided by −1 is itself. -/
theorem test_division_corners :
    gets (after (.div 3 1 0) w1) [3] = [2 ^ 64 - 1] ∧ gets (after (.rem 3 1 0) w1) [3] = [2 ^ 64 - 6] ∧
    gets (after (.div 3 1 2) (sets w0 [(1, 2 ^ 63), (2, 2 ^ 64 - 1)])) [3] = [2 ^ 63] := by decide
theorem test_bit_operations :
    [Instr.and 3 1 2, .or 3 1 2, .xor 3 1 2, .sll 3 1 2, .srl 3 1 2, .mul 3 1 2, .max 3 1 2, .clz 3 2].map (fun i => gets (after i w1) [3]) =
    [[0], [2 ^ 64 - 2], [2 ^ 64 - 2], [2 ^ 64 - 96], [2 ^ 60 - 1], [2 ^ 64 - 24], [4], [61]] := by decide
/-- R113: the logical immediates are zero-extended, the others sign-extended; pcrel is relative to the word itself. -/
theorem test_immediates :
    [Instr.addi 3 1 32767, .andi 3 1 32767, .ori 3 2 3, .xori 3 2 5, .slli 3 1 63, .srli 3 1 60, .srai 3 1 2, .slti 3 1 32767, .lui 3 32767,
      .pcrel 3 2].map (fun i => gets (after i w1) [3]) =
    [[2 ^ 64 - 7], [32762], [7], [1], [0], [15], [2 ^ 64 - 2], [1], [2 ^ 64 - 32768], [((me w1.sys).pc + 8).toNat]] := by decide
/-- R11: what is written to s0 is gone; the role goes on at the next word. -/
theorem test_zero_register : gets (after (.addi 0 1 1) w1) [0] = [0] ∧ (me (after (.addi 0 1 1) w1).sys).pc = (me w1.sys).pc + 4 := by
  decide
/-- R117: taken and not taken, forward and back; bltu compares s[sa] with the register after it. -/
theorem test_branches :
    [Instr.beq 0 3, .beq 1 3, .bne 1 3, .blt 1 3, .bge 1 3, .bltu 2 131071, .bgeu 2 131071].map
      (fun i => ((me (after i w1).sys).pc - (me w1.sys).pc).toInt) = [12, 4, 12, 12, 4, 4, -4] := by decide
/-- R118: jal writes s31; jalr to a misaligned target raises ALIGN (cause 9) and writes no register. -/
theorem test_jumps :
    ((me (after (.jal 5) w1).sys).pc - (me w1.sys).pc).toInt = 20 ∧ gets (after (.jal 5) w1) [31] = [((me w1.sys).pc + 4).toNat] ∧
    (me (after (.jalr 3 2 1) w1).sys).pc = 8 ∧ (me (after (.jalr 3 1 0) w1).sys).trapcause = 9 ∧ gets (after (.jalr 3 1 0) w1) [3] = [0] := by
  decide

/-- An entry whose landing writes s5 (SourceWait): an mfirst that has issued. -/
def wWait : State := withRole (after (.mfirst 5 1) w0) id
theorem witness_source_wait : wWait.sys.waits 5 = true ∧ (me wWait.sys).sacc = none ∧ exec (.add 6 5 0) wWait = .next wWait := by
  refine ⟨by decide, by decide, ?_⟩
  rfl

/-- R114: offset 13 bits signed from s[sa]; an address past 32 bits and one outside the scratchpad are SPADDR, then ALIGN, then POISON. -/
def wSp : State := sets w0 [(1, 0x3FC00000), (2, 2 ^ 40), (3, 0xABCD), (6, 0x400000)]
theorem witness_scalar_accesses : (me wSp.sys).sacc = none ∧ wSp.readable [3, 1] ∧ spAddr wSp.sys 0 (0x3FC00000 + 8) = some (0, 8) ∧
    spAddr wSp.sys 0 0x400000 = none := by decide
theorem test_scalar_access_checks :
    [Instr.slw 4 1 8, .slw 4 2 0, .slw 4 6 0, .slh 4 1 1, .ssw 3 1 8191].map (fun i => (me (after i wSp).sys).trapcause) = [0, 10, 10, 9, 10] := by
  decide
theorem test_scalar_access_poison :
    (me (after (.slb 4 1 8) (withCore wSp fun c => { c with poison := [0] })).sys).trapcause = 11 ∧
    (me (after (.ssb 3 1 8) (withCore wSp fun c => { c with poison := [0] })).sys).trapcause = 0 := by decide
theorem test_scalar_access_waits : (me (after (.ssd 3 1 8) wSp).sys).sacc =
    some { isLoad := false, wd := 3, core := 0, off := 8, rd := 3, data := 0xABCD, after := 1 } := by decide

/-- ControlRegisters: csrr of VL; csrw of VL stops at VLMAX, 8 × W (R5, R122); VTYPE below 3 slices is 3; a read-only register stays. -/
theorem witness_control_registers : w1.hasRole ∧ w1.readable [1] ∧ w1.sys.waitsCsr 0x000 = false ∧
    (∀ i ∈ [Instr.csrr 3 0x042, .csrw 3 1 0x042, .csrs 3 1 0x042, .csrc 3 1 0x042], (me (after i w1).sys).pc = (me w1.sys).pc + 4) := by decide
theorem test_csr_values :
    gets (after (.csrr 3 0x000) (after (.csrw 0 1 0x000) w1)) [3] = [512] ∧ gets (after (.csrr 3 0x003) (after (.csrw 0 0 0x003) w1)) [3] = [3] ∧
    gets (after (.csrw 3 2 0x062) w1) [3] = [0] ∧ gets (after (.csrr 3 0x041) (after (.csrw 0 1 0x041) w1)) [3] = [64 * 256] := by decide
theorem test_csr_set_clear :
    gets (after (.csrr 3 0x042) (after (.csrs 0 2 0x042) w1)) [3] = [4] ∧
    gets (after (.csrr 3 0x042) (after (.csrc 4 2 0x042) (after (.csrs 0 1 0x042) w1))) [3, 4] = [2 ^ 64 - 6, 2 ^ 64 - 6] ∧
    gets (after (.csrc 4 2 0x042) (after (.csrs 0 1 0x042) w1)) [4] = [2 ^ 64 - 6] := by decide

/-- ModeAndMark, TimetableSync (R37, R66, R68, R69): DELTA 28 makes NS P + 28 and leaves P; ttsync to 100 makes NS 100; one to a stamp at or
before P or c + 1 is domain fault 3; a MODE behind it counts from the target less 1. -/
theorem test_mode_delta : ((me (after (.mode 1 1 10 2 28) w0).sys).ns, (me (after (.mode 1 1 10 2 28) w0).sys).p) = (43, 15) ∧
    gets (after (.ttmark 3) (after (.mode 1 1 10 2 28) w0)) [3] = [43] := by decide
theorem witness_ttsync : w0.readable [0] ∧ (me w0.sys).handler = false ∧ (me w0.sys).p = 15 ∧ w0.ttc = 0 := by decide
theorem test_ttsync : (me (after (.ttsync 0 16) w0).sys).ns = 16 ∧ (me (after (.ttsync 0 15) w0).sys).trapcause = 4 ∧
    (me (after (.mode 0 0 0 0 5) (after (.ttsync 0 100) w0)).sys).ns = 104 := by decide

/-! ## Traps -/

/-- Role L of core 0 in a handler that a trap entered at tick 0, the tick then 5. -/
def wTrap : State := { after (.trap 2) w1 with gtc := 5 }
/-- Trap entry (R91, R126 to R128): TRAPCAUSE 5, TRAPELEM the whole code, TRAPPC the next word, PC the first word of TEXT, frozen at F = c. -/
theorem test_trap_entry :
    ((me wTrap.sys).trapcause, (me wTrap.sys).trapelem.toNat, (me wTrap.sys).handler) = (5, 4, true) ∧
    (me wTrap.sys).trappc = (me w1.sys).pc + 4 ∧ (me wTrap.sys).pc = (me w1.sys).textBase ∧
    (wTrap.myDom.st, wTrap.myDom.f) = (.frozen, 0) := by decide
theorem witness_traps_taken : w1.readable [2] ∧ (me w1.sys).aside = none ∧ domAt w1.sys w1.myCore.dom = some w1.myDom ∧
    w1.myDom.st = .run ∧ w1.hasRole := by decide
/-- A second trap in the handler at a later tick ends the launch FAULTED (R91). -/
theorem witness_trap_in_handler : wTrap.readable [2] ∧ ((me wTrap.sys).aside.map Aside.tick) = some 0 ∧ wTrap.myDom.st ≠ .ended ∧
    ((domAt (after (.svc 2) wTrap).sys wTrap.myDom.id).map fun d => (d.st, d.endStatus)) = some (.ended, 3) := by decide
/-- tret goes on at TRAPPC and the domain resumes (R129, R89); in a domain fault's handler it ends the launch; outside it is CONTEXT. -/
theorem witness_tret : (me wTrap.sys).aside.isSome = true ∧ (me wTrap.sys).hop = none ∧ (me wTrap.sys).trapcause ≠ 4 ∧
    wTrap.sys.curCore ∈ wTrap.myDom.cores ∧ wTrap.myDom.preempt = [] ∧ wTrap.myDom.thermal = false ∧ wTrap.myDom.stopHold = false ∧
    wTrap.myDom.cancel = false ∧ (roleOf wTrap.sys 0 1).handler = false := by decide
theorem test_tret : (me (after .tret wTrap).sys).pc = (me w1.sys).pc + 4 ∧ (me (after .tret wTrap).sys).handler = false ∧
    (after .tret wTrap).myDom.st = .resuming ∧ (me (after .tret w1).sys).trapcause = 12 := by decide
theorem test_tret_domain_fault :
    (domAt (after .tret { after (.ttsync 0 1) w0 with gtc := 5 }).sys w0.myDom.id).map Domain.endStatus = some 3 := by decide
/-- A handler with an unfinished back-end instruction holds tret back (R91). -/
theorem witness_tret_waits : (me (withRole wTrap fun r => { r with hop := some ⟨9, [], false⟩ }).sys).hop.isSome = true := by decide
/-- While role C is in its handler too the domain stays frozen. -/
theorem witness_tret_other_role :
    let s := { wTrap with sys := setRole wTrap.sys 0 1 { roleOf wTrap.sys 0 1 with handler := true } }
    (roleOf s.sys 0 1).handler = true ∧ (after .tret s).myDom.st = .frozen := by decide
/-- halt (R71, R130, R131): outside a handler it halts and counts; in a PREEMPT handler it reports the core; in any other it ends the launch. -/
theorem witness_halt : (me w0.sys).aside = none ∧ (me w0.sys).counted = false ∧ (me w0.sys).queue = [] ∧ w0.myDom.control = false ∧
    (after .halt w0).sys.sched.length = 1 ∧ (me (after .halt w0).sys).halted = true := by decide
def wPre : State := { after (.preemptionArrival 1) w0 with gtc := 5 }
theorem witness_halt_preempt : ((me wPre.sys).aside.isSome, (me wPre.sys).trapcause) = (true, 7) ∧
    domAt wPre.sys wPre.myCore.dom = some wPre.myDom ∧ 0 ∈ (after .halt wPre).myDom.saved := by decide
theorem test_halt_in_handler : (domAt (after .halt wTrap).sys wTrap.myDom.id).map Domain.endStatus = some 3 := by decide
/-- IllegalEncodings (R57): OP 0x0F at decode, and an unassigned FN of OP 0x20 at the push point, which waits for a free entry. -/
theorem witness_illegal : reasonOf 0x1E000000 = 1 ∧ reasonOf 0x4000007F = 2 ∧
    (me (after (.decodeIllegalEncoding 0x1E000000) w0).sys).trapcause = 1 ∧
    ((me (after (.backendPush 0x4000007F) w0).sys).trapcause, (me (after (.backendPush 0x4000007F) w0).sys).trapelem.toNat) = (1, 0xFF0002) ∧
    ((me (after (.backendPush 0x40B28A89) w0).sys).queue.map Entry.instr) = [.vxor 22 20 21] ∧
    (me (after (.backendPush 0x40B28A89) w0).sys).pc = (me w0.sys).pc + 4 := by decide

/-! ## A step -/

/-- StepRunsDecoded: right after reset with a word placed, it is role L's turn, and the step runs the instruction; one with no instruction
traps; past TEXT it is FETCH (cause 8). -/
theorem witness_step_runs : (State.reset.withFetchWord 32 0x065000FF).sys.agenda = [.front 0 0] ∧
    mayExecute (State.reset.withFetchWord 32 0x065000FF) 0 0 = true ∧
    fetchWord (roleOf (State.reset.withFetchWord 32 0x065000FF).sys 0 0) = some 0x065000FF ∧
    struckSource (State.reset.withFetchWord 32 0x065000FF).sys 0 0 (.addi 5 0 255) = none := by decide
/-- One step. -/
def stepped (s : State) : State := match step s with | .next t => t | _ => s
theorem test_step_runs : gets (stepped (State.reset.withFetchWord 32 0x065000FF)) [5] = [255] ∧
    (me (stepped (State.reset.withFetchWord 32 0)).sys).trapcause = 1 := by decide
theorem test_step_fetch :
    let s := withRole (State.reset.withFetchWord 32 0x065000FF) fun r => { r with pc := r.pc + 4 }
    (me (stepped s).sys).trapcause = 8 := by decide
/-- StepServesAgenda: an empty agenda is a tick, a listed event its own turn; a module without power and events stops. -/
theorem test_step_tick : (stepped w0).gtc = 1 ∧ powerless w0 = false := by decide
theorem test_step_event : (stepped { w0 with sys := { w0.sys with agenda := [.ev (.evvecWrite 40) noMsg] } }).sys.mgmt.evvec = 40 := by decide
theorem test_no_power : powerless { State.reset with sys := { Sys.reset with mgmt := { Mgmt.reset with power := false } } } = true := by decide

/-! ## The back end -/

/-- A core whose vector registers begin with some words. -/
def withVec (s : State) (l : List (Nat × List Nat)) : State :=
  withCore s fun c => { c with pool := l.foldl (fun m p => Mem.writes m (2048 * p.1) (p.2.flatMap (toBytes 4))) c.pool }

/-- The acting role under an element type with VL elements. -/
def under (s : State) (t : ETy) (vl : Nat) : State :=
  withRole s fun r => { r with mode := { r.mode with ety := t }, csrs := { r.csrs with vl := vl } }

/-- The entry that a back-end word pushes. -/
def pushed (i : Instr) (s : State) : Option Entry := (me (after i s).sys).queue.head?

/-- What a back-end word does in its entry, as if issued in cycle 16. -/
def opOf (i : Instr) (s : State) : Option BackOp :=
  match backOf i, pushed i s with
  | some b, some e => some (b.op ⟨s, 0, 0⟩ { e with issued := some 16 })
  | _, _ => none

/-- The landings of row 0: due cycle, register, and the first words of the data (of a mask, its enabled bits). -/
def row0 (i : Instr) (s : State) (n : Nat) : List (Nat × Nat × List Nat) :=
  match opOf i s with
  | some op => match op.sample 0 with | .ok (ls, _) => ls.map fun l =>
    (l.due, l.reg, (l.data.take n).map fun x => if l.tgt == .mask then x &&& l.enable else x) | .error _ => []
  | none => []

/-- The cause that stops row 0: code and element. -/
def row0Stop (i : Instr) (s : State) : Option Stop :=
  match opOf i s with
  | some op => match op.sample 0 with | .error k => some k | .ok _ => none
  | none => none

/-- i32: v1 holds 7, −2, the greatest number; v2 holds 3, 5, 1; v3 holds 100, 100, 100. -/
def wInt : State := withVec (under w0 .i32 3) [(1, [7, 2 ^ 32 - 2, 2 ^ 31 - 1]), (2, [3, 5, 1]), (3, [100, 100, 100])]

/-- BackEndPush, PushPoint (R13, R66, R70): the entry has stamp NS, and P becomes it. -/
theorem witness_push : (backOf (.vadd 3 1 2)).isSome = true ∧ (me wInt.sys).handler = false ∧ (me wInt.sys).queue.length < 64 ∧
    wInt.sys.waitsCsr 0x000 = false ∧ (wInt.ttc : Int) + 2 ≤ (me wInt.sys).ns ∧
    ((me (after (.vadd 3 1 2) wInt).sys).queue.map fun e => (e.instr, e.stamp, e.seq, e.vl)) = [(.vadd 3 1 2, 16, 0, 3)] ∧
    ((me (after (.vadd 3 1 2) wInt).sys).p, (me (after (.vadd 3 1 2) wInt).sys).armed) = (16, true) := by decide
/-- R57, R61: an element type that the word does not accept is reason 8 after an odd pair register, reason 6; a register of another role is
OWNER, with its number; an object of no range is HANDLE; a stamp before c + 2 is domain fault 2, here at TTC 15. -/
theorem test_push_causes :
    let cause := fun (i : Instr) (s : State) => ((me (after i s).sys).trapcause, (me (after i s).sys).trapelem.toNat % 65536)
    cause (.vadd 3 1 2) (under w0 .b32 3) = (1, 8) ∧ cause (.vadd 3 1 2) (under w0 .i64 3) = (1, 6) ∧
    cause (.vadd 3 1 1) (withCore wInt fun c => { c with part := 2 + 8 * 4 + 2 * 64 + 64 * 8192 + 64 * 1048576 }) = (2, 3) ∧
    cause (.arrive 8 9 10) (sets w0 [(9, 5 * 2 ^ 14)]) = (3, 0) ∧ cause (.vadd 3 1 2) { wInt with gtc := 15 } = (4, 2) := by decide
theorem witness_push_full : 64 ≤ (me (withRole wInt fun r => { r with
    queue := List.replicate 64 ((r.queue.headD (handlerEntry wInt r 0 (.vadd 3 1 2) []))) }).sys).queue.length := by decide
/-- RegisterOwnership (R16, R17): L owns v0 to v9, C v10 to v19, S v20 to v29; v30 is a ring register from L to C (code 0). -/
theorem witness_ownership :
    let p := 10 * 64 + 20 * 8192 + 30 * 1048576
    partOk p = true ∧ nv p = 32 ∧ mayWrite p 0 9 = true ∧ mayRead p 1 9 = false ∧ mayWrite p 1 10 = true ∧ mayWrite p 2 29 = true ∧
    rdir p 30 = 0 ∧ mayWrite p 0 30 = true ∧ mayRead p 1 30 = true ∧ mayWrite p 1 30 = false ∧ mayRead p 0 32 = false ∧
    (vecNames isInt 28 false [20] .i64).notOwned (10 * 64 + 20 * 8192 + 29 * 1048576 + 4 * 2 ^ 27) 2 = some 29 := by decide

/-- HandlerModeWords (R91, R133): outside handler mode vsave is CONTEXT; in it a back-end word has its effect and lands at once. -/
def wHand : State := under (withVec { after (.trap 0) w0 with gtc := 5 } [(1, [7]), (2, [3])]) .i32 1
theorem test_context : (me (after (.vsave 1) w0).sys).trapcause = 12 := by decide
theorem witness_handler : (me wHand.sys).handler = true ∧ (me wHand.sys).hop = none ∧ wHand.hasRole := by decide
theorem test_handler_execution :
    (wHand.myCore.vec 3 0, (after (.vadd 3 1 2) wHand).myCore.vec 3 0, ((me (after (.vadd 3 1 2) wHand).sys).hop.map HandlerOp.ready)) =
    (0, 10, some 8) := by decide
theorem test_handler_completion :
    let s := after (.vadd 3 1 2) wHand
    (me (after (.handlerBackendComplete 0 0) s).sys).hop.isSome = true ∧
    (me (after (.handlerBackendComplete 0 0) { s with gtc := 8 }).sys).hop = none := by decide
theorem test_handler_stop : (domAt (after (.vadd 3 1 2) (under wHand .b32 1)).sys 1).map Domain.endStatus = some 3 := by decide

/-- A vector add pushed with stamp 16, and the state in cycle 16, which has been checked. -/
def wIssue : State :=
  let s := { after (.vadd 3 1 2) wInt with gtc := 16 }
  { s with sys := setDom s.sys { s.myDom with checked := some 16 } }
/-- IssueOrFault, RowSample, LandingWrites (R14, R24, R74): issue in cycle 16, row 0 sampled then, landing in cycle 19. -/
theorem witness_clear_cycle : ∃ d, domAt wIssue.sys (coreOf wIssue.sys 0).dom = some d ∧ d.st = .run ∧
    d.checked = some (d.ttc wIssue.gtc) := ⟨wIssue.myDom, by decide⟩
theorem witness_issue : ((roleOf wIssue.sys 0 0).queue.find? fun x => x.issued.isNone).map Entry.stamp = some 16 ∧
    ((roleOf (after (.entryIssue 0 0) wIssue).sys 0 0).queue.map Entry.issued) = [some 16] := by decide
def wRow : State := after (.rowSample 0 0 0 0 0) (after (.entryIssue 0 0) wIssue)
theorem test_row_sample : (wRow.sys.landingsOf 0).map (fun l => (l.due, l.reg, l.row, l.data.take 3)) = [(19, 3, 0, [10, 3, 2 ^ 31])] ∧
    wRow.myCore.vec 3 0 = 100 := by decide
def wLand : State :=
  let s := { wRow with gtc := 19 }
  { s with sys := setDom s.sys { s.myDom with checked := some 19 } }
theorem test_row_landing :
    let t := after (.rowLanding 0 1) wLand
    ((List.range 4).map (t.myCore.vec 3), t.myCore.dirty.toNat, (t.sys.landingsOf 0).length) = ([10, 3, 2 ^ 31, 0], 8, 0) := by decide
/-- A landing not yet due, and a row that is not the entry's next, do nothing. -/
theorem test_not_due : (after (.rowLanding 0 1) { wRow with gtc := 18 }).myCore.vec 3 0 = 100 ∧
    (after (.rowSample 0 0 0 1 0) (after (.entryIssue 0 0) wIssue)).sys.landingsOf 0 = [] := by decide
/-- A cycle with a fault takes no effect (R82): two entries of one unit issue in one cycle, so that the domain freezes at F = 16. -/
def wClash : State := { withRole (after (.vadd 3 1 2) wInt) (fun r => { r with
  queue := r.queue ++ r.queue.map fun e => { e with seq := 1, instr := .vsub 4 1 2 } }) with gtc := 16 }
theorem witness_fault_cycle : cycleCauses backOf wClash wClash.myDom (wClash.myDom.ttc wClash.gtc) ≠ [] ∧ wClash.myDom.checked ≠ some 16 ∧
    (∀ q < 3, (roleOf wClash.sys 0 q).aside = none) ∧
    ((after (.entryIssue 0 0) wClash).myDom.st, (after (.entryIssue 0 0) wClash).myDom.f) = (.frozen, 16) := by decide

/-! ## What rows compute -/

/-- IntegerLanes (R224): λ is 3, of products 5; the high half of a product is signed; saturation stops at the ends. -/
theorem witness_lanes : isInt .i32 = true ∧ isSigned .i32 = true ∧
    row0 (.vadd 3 1 2) wInt 3 = [(19, 3, [10, 3, 2 ^ 31])] ∧ row0 (.vsub 3 1 2) wInt 3 = [(19, 3, [4, 2 ^ 32 - 7, 2 ^ 31 - 2])] ∧
    row0 (.vmul 3 1 2) wInt 3 = [(21, 3, [21, 2 ^ 32 - 10, 2 ^ 31 - 1])] ∧ row0 (.vmulh 3 1 2) wInt 3 = [(21, 3, [0, 2 ^ 32 - 1, 0])] ∧
    row0 (.vmacc 3 1 2) wInt 3 = [(21, 3, [121, 90, 2 ^ 31 + 99])] := by decide
theorem test_lanes_order :
    row0 (.vmin 3 1 2) wInt 3 = [(19, 3, [3, 2 ^ 32 - 2, 1])] ∧ row0 (.vmax 3 1 2) wInt 3 = [(19, 3, [7, 5, 2 ^ 31 - 1])] ∧
    row0 (.vabs 3 1) wInt 3 = [(19, 3, [7, 2, 2 ^ 31 - 1])] ∧ row0 (.vaddsat 3 1 2) wInt 3 = [(19, 3, [10, 3, 2 ^ 31 - 1])] ∧
    row0 (.vsubsat 3 1 2) (under wInt .uint32 3) 3 = [(19, 3, [4, 2 ^ 32 - 7, 2 ^ 31 - 2])] := by decide
theorem test_lanes_bits :
    row0 (.vand 3 1 2) wInt 3 = [(19, 3, [3, 4, 1])] ∧ row0 (.vor 3 1 2) wInt 3 = [(19, 3, [7, 2 ^ 32 - 1, 2 ^ 31 - 1])] ∧
    row0 (.vxor 3 1 2) wInt 3 = [(19, 3, [4, 2 ^ 32 - 5, 2 ^ 31 - 2])] := by decide
theorem test_lanes_shifts :
    row0 (.vsll 3 1 2) wInt 3 = [(19, 3, [56, 2 ^ 32 - 64, 2 ^ 32 - 2])] ∧
    row0 (.vsrl 3 1 2) wInt 3 = [(19, 3, [0, 2 ^ 27 - 1, 2 ^ 30 - 1])] ∧ row0 (.vsra 3 1 2) wInt 3 = [(19, 3, [0, 2 ^ 32 - 1, 2 ^ 30 - 1])] ∧
    row0 (.vclz 3 2) wInt 3 = [(19, 3, [30, 29, 31])] ∧ row0 (.vpopc 3 1) wInt 3 = [(19, 3, [3, 31, 31])] := by decide
/-- MasksAndFloatCompares (R225, R226, R239): compares are signed under i32; bit i is element i's; −1.0 < +0 = −0, a NaN unordered. -/
theorem witness_compares : row0 (.vcmplt 2 1 2) wInt 1 = [(19, 2, [2])] ∧ row0 (.vcmple 2 1 1) wInt 1 = [(19, 2, [7])] ∧
    row0 (.vcmpeq 2 1 1) wInt 1 = [(19, 2, [7])] ∧ row0 (.vcmpne 2 1 2) wInt 1 = [(19, 2, [7])] ∧
    row0 (.mnot 2 1) (under w0 .b32 3) 1 = [(19, 2, [7])] ∧ row0 (.mor 2 0 0) (under w0 .b32 3) 1 = [(19, 2, [7])] := by decide +kernel
def wFlt : State := withVec (under w0 .f32 3) [(1, [0xBF800000, 0, 0x7FC00000]), (2, [0, 0x80000000, 0])]
theorem witness_float_compares : row0 (.vfcmplt 2 1 2) wFlt 1 = [(20, 2, [1])] ∧ row0 (.vfcmpeq 2 1 2) wFlt 1 = [(20, 2, [2])] ∧
    row0 (.vfcmple 2 1 2) wFlt 1 = [(20, 2, [3])] ∧ row0 (.vfcmpun 2 1 2) wFlt 1 = [(20, 2, [4])] ∧
    row0 (.vfabs 3 1) wFlt 3 = [(19, 3, [0x3F800000, 0, 0x7FC00000])] ∧
    row0 (.vfneg 3 1) wFlt 3 = [(19, 3, [0x3F800000, 0x80000000, 0xFFC00000])] := by decide
/-- ScalarsAndIndices (R227, R228): mcount and mfirst land n + 3 after issue; vid and vbcast. -/
theorem witness_vid : row0 (.vid 3) (under w0 .i32 3) 3 = [(19, 3, [0, 1, 2])] ∧
    row0 (.vbcast 3 1) (under w1 .i32 2) 2 = [(18, 3, [2 ^ 32 - 6, 2 ^ 32 - 6])] ∧
    row0 (.vbcast 3 1) (under w1 .sc12x2 1) 1 = [(18, 3, [0x0FFA0FFA])] := by decide
theorem witness_scalars : row0 (.mcount 5 1) (withCore (under w0 .b32 3) fun c => { c with masks := c.masks.setIfInBounds 1 6 }) 1 = [(20, 5, [2])] ∧
    row0 (.mfirst 5 1) (withCore (under w0 .b32 3) fun c => { c with masks := c.masks.setIfInBounds 1 6 }) 1 = [(20, 5, [1])] ∧
    row0 (.mfirst 5 1) (under w0 .b32 3) 1 = [(20, 5, [2 ^ 64 - 1])] := by decide +kernel
theorem witness_scalars_empty : ((opOf (.mcount 5 1) (under w0 .b32 0)).map fun op => ((op.issue ()).1.map fun l => (l.due, l.data))) =
    some [(19, [0])] := by decide +kernel

/-- MemoryRows (R155 to R157): words 0, 4 and 8 of the own scratchpad land at t + 6; OFF13 counts words; a stride too; a misaligned element is
ALIGN (9), one outside SPADDR (10), a poisoned granule POISON (11), each with the first such element. -/
def wMem : State := withCore (sets (under w0 .i32 3) [(1, 0x3FC00000), (4, 12)]) fun c => c.sput 0 ([11, 22, 33, 44].flatMap (toBytes 4))
theorem witness_memory_rows : wideOf .i32 = false ∧ row0 (.vld 3 1 0) wMem 3 = [(22, 3, [11, 22, 33])] ∧
    row0 (.vld 3 1 1) wMem 3 = [(22, 3, [22, 33, 44])] ∧ row0 (.vlds 3 1 4) (under wMem .i32 2) 2 = [(22, 3, [11, 44])] := by decide
theorem test_memory_causes :
    row0Stop (.vld 3 1 8191) wMem = some (.trap 10 0) ∧ row0Stop (.vld 3 1 0) (sets wMem [(1, 0x3FC00002)]) = some (.trap 9 0) ∧
    row0Stop (.vld 3 1 14) (withCore wMem fun c => { c with poison := [1] }) = some (.trap 11 2) := by decide
/-- vst writes the words of its active elements four cycles after issue. -/
theorem test_store_row : ((opOf (.vst 1 1 0) (withVec wMem [(1, [7, 8, 9])])).map fun op => match op.sample 0 with
    | .ok (ls, _) => ls.map fun l => (l.due, (spadBytes l).map fun p => (p.1, p.2.toNat)) | .error _ => []) =
    some [(20, [(0, 7), (1, 0), (2, 0), (3, 0), (4, 8), (5, 0), (6, 0), (7, 0), (8, 9), (9, 0), (10, 0), (11, 0)])] := by decide
/-- SlotsAndTiles (R255): a slot is claimed once and released once; anything else is SLOT (15). -/
def wClaim : State := withCore w0 fun c => { c with claims := 2 }
theorem witness_slots :
    ((opOf (.oclaim 1) w0).map fun op => (op.check (), (coreOf (op.fire w0.sys) 0).claimed 1)) = some (none, true) ∧
    ((opOf (.oclaim 1) wClaim).map fun op => op.check ()) = some (some (.trap 15 1)) ∧
    ((opOf (.orelease 1) wClaim).map fun op => (op.check (), (coreOf (op.fire wClaim.sys) 0).claimed 1)) = some (none, false) ∧
    ((opOf (.orelease 0) wClaim).map fun op => op.check ()) = some (some (.trap 15 0)) := by decide

/-! ## Homes -/

/-- A barrier on die 0, index 3, with parties 0 and 1 of which 0 has arrived, its deadline 100, generation 5, the last with party 1 absent. -/
def aBarrier : Barrier := { expect := 3, arrived := 1, deadline := 100, abs1 := 2, abs2 := 0 }
/-- An object at that handle. -/
def anObj (b : Body) : Obj := { key := 3, vdid := 0, window := false, s7 := false, torn := false, resolved := 1, gen := 5, regions := [], parts := 0, body := b }
/-- The state whose home serves a message about that object. -/
def serving (b : Body) (party gen dl aux : Nat) : State :=
  { w0 with gtc := 40, sys := { setObj w0.sys (anObj b) with
    msg := { noMsg with obj := 3, party := party, gen := gen, dl := dl, aux := aux, core := 0, role := 0, ticket := 1 } } }
/-- What the home answers: first word, STATUS, WHO, VALUE; and its object's generation. -/
def answered (i : Instr) (s : State) : List (Nat × Nat × Nat × Nat) :=
  (after i s).sys.answers.map fun a => (a.first, a.status % 256, a.status / 256 % 256, a.status / 2 ^ 32)
/-- The object after an event. -/
def objAfter (i : Instr) (s : State) : Option Obj := objOf (after i s).sys 3

/-- SyncIssue (R275, R299): an arrive on a barrier sends its event 6 ticks later on its own die, its answer back after 8. -/
theorem witness_sync_issue : ((opOf (.arrive 8 9 10) { sets (serving (.barrier aBarrier) 1 5 100 0) [(8, 1), (9, 3), (10, 100)] with gtc := 0 }).map
      fun op => (op.check (), ((op.issue ()).1.map fun l => (l.due, l.reg)), ((op.fire w0.sys).sched.map fun e => (e.1, e.2.2.party)))) =
    some (none, [(24, 8), (24, 9)], [(6, 1)]) := by decide
/-- HomeRoutesAndAnswers (R275, R298): another die after 30, the own Tulle after 20. -/
theorem witness_routes :
    ((sendHome w0.sys 10 .homeRel { noMsg with obj := 2 ^ 14, core := 0 }).sched.map Prod.fst, lambdaOf w0.sys 0 (2 ^ 14)) = ([40], 56) ∧
    ((sendHome w0.sys 10 .homeRel { noMsg with obj := 4 * 2 ^ 14, core := 0 }).sched.map Prod.fst, lambdaOf w0.sys 0 (4 * 2 ^ 14)) = ([30], 40) ∧
    chipRemoved w0.sys 0 1 = false ∧ isRemote 0 (4 * 2 ^ 14 + 2 ^ 17) = true ∧
    (sendHome { w0.sys with mgmt := { w0.sys.mgmt with removed := [(1, 0)] } } 10 .homeRel { noMsg with obj := 4 * 2 ^ 14 + 2 ^ 17 }).sched = [] := by
  decide
/-- Generations (R280), around the wrap. -/
theorem witness_generations : genClass 0 2 0 = .opened ∧ genClass 0 2 (2 ^ 32 - 1) = .resolved 1 ∧ genClass 0 2 (2 ^ 32 - 2) = .resolved 2 ∧
    genClass 0 2 1 = .ahead ∧ genClass 0 0 (2 ^ 32 - 1) = .stale := by decide
/-- Barriers (R281 to R283): NOTMEMBER 6, OK 0, MISMATCH 5, AHEAD 3, STALE 4, LATE 1 with the absentees. -/
theorem witness_arrive : (serving (.barrier aBarrier) 1 5 100 0).sys.msg.obj = 3 ∧ aBarrier.expect.getLsbD 1 = true ∧
    [(2, 5, 100), (1, 5, 100), (1, 5, 101), (1, 6, 100), (1, 3, 100), (1, 4, 100)].map (fun p : Nat × Nat × Nat =>
      answered .homeArrive (serving (.barrier aBarrier) p.1 p.2.1 p.2.2 0)) =
    [[(0, 6, 255, 5)], [(0, 0, 255, 5)], [(0, 5, 255, 5)], [(0, 3, 255, 5)], [(0, 4, 255, 5)], [(2, 1, 255, 5)]] := by decide
theorem test_arrive_sets_deadline :
    let s := serving (.barrier { aBarrier with deadline := 0 }) 1 5 40 0
    (answered .homeArrive s, (after .homeArrive s).sys.sched) = ([(0, 0, 255, 5)], [(40, .barrierResolution 3, noMsg)]) := by decide
/-- bwait: AHEAD 3 before the resolution; after it OK, or ABSENT 2 for an absentee (R283); barshed takes the absentee out, barjoin adds a party. -/
theorem witness_bwait : [(0, 5, 100), (0, 4, 100), (1, 4, 100)].map (fun p : Nat × Nat × Nat =>
      answered .homeBwait (serving (.barrier aBarrier) p.1 p.2.1 p.2.2 0)) = [[(0, 3, 255, 5)], [(2, 0, 255, 5)], [(2, 2, 255, 5)]] := by decide
theorem test_barshed_barjoin :
    (answered .homeBarshed (serving (.barrier aBarrier) 0 4 0 0), objAfter .homeBarshed (serving (.barrier aBarrier) 0 4 0 0)) =
      ([(2, 0, 255, 5)], some (anObj (.barrier { aBarrier with expect := 1 }))) ∧
    objAfter .homeBarjoin (serving (.barrier aBarrier) 4 5 0 0) = some (anObj (.barrier { aBarrier with expect := 19 })) := by decide
/-- At the deadline party 1 is absent, the masks move on and GEN is 6 (R282); before it nothing happens. -/
theorem witness_resolution :
    objAfter (.barrierResolution 3) { serving (.barrier aBarrier) 0 0 0 0 with gtc := 100 } = some { anObj (.barrier
      { expect := 3, arrived := 0, deadline := 0, abs1 := 2, abs2 := 2 }) with gen := 6, resolved := 2 } ∧
    objAfter (.barrierResolution 3) { serving (.barrier aBarrier) 0 0 0 0 with gtc := 99 } = some (anObj (.barrier aBarrier)) := by decide
/-- Locks (R286, R287): a free one is granted with GEN up; the holder renews; another finds it BUSY 7; acq.m takes an expired one, MENDED 8. -/
def freeLock : Lock := { holder := 255, prev := 255, acqtick := 0, expiry := 0, reltick := 0, parties := 7, covers := [], hcore := 0, hrole := 3, since := 0, pcore := 0, psince := 2 ^ 64, mended := [], relat := 0 }
def heldLock : Lock := { freeLock with holder := 1, expiry := 40, hrole := 0 }
theorem witness_acquire :
    [(freeLock, 0, 0), (freeLock, 3, 0), ({ freeLock with reltick := 50 }, 0, 0), (heldLock, 1, 0), (heldLock, 0, 0), (heldLock, 0, 1),
      ({ heldLock with expiry := 41 }, 0, 1)].map (fun p : Lock × Nat × Nat => answered .homeAcq (serving (.lock p.1) p.2.1 0 p.2.2 9)) =
    [[(0, 0, 255, 6)], [(0, 6, 255, 5)], [(0, 7, 255, 5)], [(0, 0, 255, 5)], [(2, 7, 1, 5)], [(2, 8, 1, 6)], [(2, 7, 1, 5)]] := by decide
theorem test_acquire_expiry : objAfter .homeAcq (serving (.lock freeLock) 2 0 0 9) = some { anObj (.lock { freeLock with
    holder := 2, acqtick := 40, expiry := 49, hrole := 0, since := 40 }) with gen := 6 } := by decide
/-- rel by the holder's core and role frees it at a tick at which its writes are visible; then RELTICK is over. By another it does nothing. -/
theorem witness_release :
    objAfter .homeRel (serving (.lock heldLock) 1 0 0 0) = some (anObj (.lock { heldLock with holder := 255, reltick := 40 })) ∧
    objAfter .homeRel (serving (.lock { heldLock with hrole := 1 }) 1 0 0 0) = some (anObj (.lock { heldLock with hrole := 1 })) ∧
    objAfter (.lockReleaseEffect 3) (serving (.lock { freeLock with reltick := 40 }) 0 0 0 0) = some (anObj (.lock freeLock)) := by decide
/-- RegionBinding (R304): entry 2, length 0x100 of party 4 at the base. -/
theorem witness_bind : (objAfter .homeBind (serving (.lock freeLock) 0 0 0x12345 (2 * 2 ^ 48 + 4 * 2 ^ 40 + 0x100))).map
    (fun o => (o.regions[2]?, o.gen)) = some (some ⟨0x12345, 0x100, 4⟩, 5) := by decide
/-- Queues (R289, R290): two places, producers 0 and 1, one consumer; producer 1 has an open entry. -/
def aQueue : Queue := { producers := 3, cap := 2, consumers := 1, since := [0], slots := [⟨0, 77, 1, 1, 0, 0⟩], nextOrder := 0 }
theorem witness_push_queue : (serving (.queue aQueue) 0 0 9 0).sys.msg.role = 0 ∧
    [(0, 0), (0, 1), (2, 0)].map (fun p : Nat × Nat => answered .homeQpush (serving (.queue aQueue) p.1 0 9 p.2)) =
      [[(0, 0, 255, 5)], [(0, 0, 255, 6)], [(0, 6, 255, 0)]] ∧
    answered .homeQpush (serving (.queue { aQueue with cap := 1 }) 0 0 9 0) = [(0, 10, 255, 0)] ∧
    objAfter .homeQpush (serving (.queue aQueue) 1 0 9 1) = some { anObj (.queue { aQueue with
      slots := [⟨0, 77, 1, 2, 0, 0⟩, ⟨0, 9, 1, 2, 1, 0⟩], since := [2], nextOrder := 2 }) with gen := 6 } := by decide
theorem witness_receive :
    [({ aQueue with slots := [⟨0, 9, 0, 2, 1, 0⟩, ⟨0, 8, 1, 2, 0, 0⟩] }, 0), (aQueue, 0), (aQueue, 1)].map (fun p : Queue × Nat =>
      answered .homeQrecv (serving (.queue p.1) p.2 0 0 0)) = [[(8, 0, 1, 0)], [(3, 9, 255, 0)], [(0, 6, 255, 0)]] ∧
    objAfter (.queueAbandonment 3 0) (serving (.queue aQueue) 0 0 0 0) = some (anObj (.queue { aQueue with slots := [] })) := by decide
/-- ProxyEvents (R307, R334): the shadow of die 0's queue accepts the first entry, sent when it is 256 ticks old, or at once with the eighth;
32 held is FULL. -/
def shadow0 : ProxyShadow := { chip := 0, obj := 3, waiting := [], flying := [], refused := [], nextBatch := 1 }
def withShadow (n : Nat) : State :=
  let s := serving (.queue aQueue) 0 0 9 0
  { s with sys := setShadow s.sys { shadow0 with waiting := List.replicate n (30, s.sys.msg) } }
theorem witness_proxy : [0, 6, 7].map (fun n => (after .shadowQproxy (withShadow n)).sys.sched) =
      [[(296, .proxyBatchSend 0 3, noMsg)], [(296, .proxyBatchSend 0 3, noMsg)], [(40, .proxyBatchSend 0 3, noMsg)]] ∧
    (after .shadowQproxy (withShadow 32)).sys.answers.map (fun a => (a.status % 256, a.status / 2 ^ 32)) = [(10, 32)] := by decide
theorem witness_proxy_refused :
    let s := serving (.queue aQueue) 0 0 9 0
    let s := { s with sys := setShadow s.sys { shadow0 with refused := [(0, 2)] } }
    (after .shadowQproxy s).sys.answers.map (fun a => (a.first, a.status % 256)) = [(2, 10)] ∧
    (shadowOf (after .shadowQproxy s).sys 0 3).refused = [] := by decide
theorem witness_proxy_batch :
    ((shadowOf (after (.proxyBatchSend 0 3) { withShadow 1 with gtc := 286 }).sys 0 3).waiting,
      (shadowOf (after (.proxyBatchSend 0 3) { withShadow 1 with gtc := 286 }).sys 0 3).flying.length) = ([], 1) ∧
    (shadowOf (after (.proxyBatchSend 0 3) { withShadow 1 with gtc := 285 }).sys 0 3).waiting.length = 1 := by decide
theorem witness_proxy_arrival :
    let s := serving (.queue aQueue) 0 0 9 1
    let s := { s with sys := setShadow s.sys { shadow0 with flying := [(1, [s.sys.msg])] } }
    (shadowOf s.sys 0 3).flying.find? (fun b => b.1 == 1) = some (1, [s.sys.msg]) ∧
    (after (.proxyBatchArrival 0 3 1) s).sys.sched.map (fun e => (e.1, e.2.1, e.2.2.role, e.2.2.party, e.2.2.dl)) = [(40, .homeQpush, 4, 0, 9)] := by
  decide
/-- CounterEvents (R291, R312): a second completion of a contributor does nothing; the last makes it DONE; cancel makes it CANCELLED. -/
def aCounter : Counter := {
  count := 1, target := 2, bitmap := 1, state := 0, donetick := 0, hasParent := false, parent := 0, ppos := 0, msix := 65535, vd := 0 }
theorem witness_counter :
    objAfter (.counterCompletion 3 0) (serving (.counter aCounter) 0 0 0 0) = some (anObj (.counter aCounter)) ∧
    objAfter (.counterCompletion 3 1) (serving (.counter aCounter) 0 0 0 0) =
      some (anObj (.counter { aCounter with count := 2, bitmap := 3, state := 1, donetick := 40 })) ∧
    objAfter (.counterCompletion 3 2) (serving (.counter { aCounter with target := 4 }) 0 0 0 0) =
      some (anObj (.counter { aCounter with target := 4, count := 2, bitmap := 5 })) := by decide
theorem witness_cwait_cancel :
    [0, 1, 2].map (fun n => (answered .homeCwait (serving (.counter { aCounter with state := n }) 0 0 0 0)).map fun a => (a.2.1, a.2.2.2)) =
      [[(11, 1)], [(0, 1)], [(12, 1)]] ∧
    (answered .homeCancel (serving (.counter { aCounter with state := 1 }) 0 0 0 0)).map (fun a => (a.1, a.2.1)) = [(1, 0)] ∧
    objAfter .homeCancel (serving (.counter aCounter) 0 0 0 0) =
      some (anObj (.counter { aCounter with state := 2, donetick := 40 })) := by decide
/-! ## What rows compute, on -/

/-- What lands at the issue of a back-end word: due cycle, register, the first words. -/
def issue0 (i : Instr) (s : State) (n : Nat) : List (Nat × Nat × List Nat) :=
  match opOf i s with
  | some op => (op.issue ()).1.map fun l => (l.due, l.reg, l.data.take n)
  | none => []
/-- MasksAndFloatCompares (R236 to R238): 1.5 and 2.25, and 1.0 in v3; 6 cycles, of a quotient, root, exponential or logarithm 20. -/
def wReal : State := withVec (under w0 .f32 1) [(1, [0x3FC00000]), (2, [0x40100000]), (3, [0x3F800000])]
theorem witness_float_lanes : isFsum .f32 = true ∧
    [Instr.vfadd 3 1 2, .vfsub 3 1 2, .vfmul 3 1 2, .vfma 3 1 2, .vfnma 3 1 2, .vfmin 3 1 2, .vfmax 3 1 2].map (fun i => row0 i wReal 1) =
      [0x40700000, 0xBF400000, 0x40580000, 0x408C0000, 0xC0180000, 0x3FC00000, 0x40100000].map fun x => [(22, 3, [x])] := by decide +kernel
theorem witness_float_special :
    [Instr.vfdiv 3 1 2, .vfsqrt 3 2, .vflog2 3 3].map (fun i => row0 i wReal 1) = [0x3F2AAAAB, 0x3FC00000, 0].map fun x => [(36, 3, [x])] := by
  decide +kernel
/-- R240 to R242: 1.5 to the nearest even integer is 2; two f32 as a bf16 pair; an i32 in halves. -/
theorem witness_conversions :
    row0 (.vcvt 3 1 10) (under wReal .i32 1) 1 = [(20, 3, [2])] ∧ row0 (.vcvtsr 3 3 10) (under wReal .i32 1) 1 = [(21, 3, [1])] ∧
    row0 (.vpack 3 1 2 10) (under wReal .bf16x2 1) 1 = [(20, 3, [0x40103FC0])] ∧
    row0 (.vunpack 4 1 4) (under wInt .i32 2) 2 = [(20, 4, [7, 65534]), (20, 5, [0, 65535])] := by decide +kernel
/-- IntegerLanes (R243 to R247): under BINBASE 10 the first bin of 1.5 is 3 × 2^29; a bin of 5 units is 5 × 2^−30; scales of W2P and SC12. -/
def wBin (t : ETy) : State := withRole (withVec (under w0 t 1) [(1, [0x3FC00000]), (2, [0x7F007F0]), (3, [0x3F800000]), (32, [5]), (48, [6])]) fun r =>
  { r with csrs := { r.csrs with binbase := 10 } }
theorem witness_bins :
    ((row0 (.vbinadd 16 32 1) (wBin .f32) 1).filter fun l => l.2.2 != [0]) = [(22, 16, [5 + 3 * 2 ^ 29]), (22, 28, [1])] ∧
    ((row0 (.vbinmerge 16 32 48) (wBin .bin) 1).filter fun l => l.2.2 != [0]) = [(22, 16, [11])] ∧
    row0 (.vbinfold 16 32 32) (wBin .bin) 1 = [(24, 16, [0]), (24, 17, [0x3E340000])] := by decide +kernel
theorem witness_scales :
    row0 (.vscacc 3 1 2) (wBin .f32) 1 = [(22, 3, [0x40200000])] ∧ row0 (.vscset 4 1 2) (wBin .f32) 1 = [(20, 4, [0x3FC00000])] ∧
    row0 (.vscext 4 1 3) (wBin .f32) 1 = [(20, 4, [0x7F8 + 65536 * 0x7E5])] ∧
    row0 (.vw2pmul 3 1 2) (withVec (under w0 .i8x4 1) [(1, [0x01020304]), (2, [0x10101010])]) 1 = [(21, 3, [960])] := by decide +kernel
/-- The exact sums of a record. -/
theorem witness_binned_add :
    let r : Binned := ⟨[0, 0, 0, 0, 0, 0], 0, 0⟩
    r.bins.length = 6 ∧ ((r.add (.fin false 3 (-1) false) 10).bins, (r.add (.fin false 3 (-1) false) 10).count) = ([3 * 2 ^ 29, 0, 0, 0, 0, 0], 1) := by
  decide +kernel
/-- ScalarsAndIndices (R228 to R230): 7, −2 and the greatest number moved. -/
theorem witness_moves :
    [Instr.vslidedn 4 1 1, .vperm 4 1 2, .vcompress 4 1, .vexpand 4 1, .vsel 4 1 2].map (fun i => row0 i wInt 3) =
      [[(22, 4, [2 ^ 32 - 2, 2 ^ 31 - 1, 0])], [(26, 4, [0, 0, 2 ^ 32 - 2])], [(26, 4, [7, 2 ^ 32 - 2, 2 ^ 31 - 1])],
        [(26, 4, [7, 2 ^ 32 - 2, 2 ^ 31 - 1])], [(19, 4, [7, 2 ^ 32 - 2, 2 ^ 31 - 1])]] ∧
    row0 (.vslideup 4 1 1) wInt 2 = [(22, 4, [7, 7])] ∧ row0 (.vextract 4 1 2) (sets wInt [(2, 1)]) 1 = [(23, 4, [2 ^ 64 - 2])] ∧
    issue0 (.vextract 4 1 2) (sets wInt [(2, 3)]) 1 = [(23, 4, [0])] := by decide +kernel
/-- R231 to R235: their sum, least, greatest and running sums; a grant of 600 from position 7. -/
theorem witness_reductions :
    issue0 (.vredsumO 4 1) wInt 1 = [(23, 4, [2 ^ 31 + 4])] ∧ row0 (.vredsumU 4 1) wInt 1 = [(25, 4, [2 ^ 31 + 4])] ∧
    row0 (.vredmin 4 1) wInt 1 = [(25, 4, [2 ^ 32 - 2])] ∧ row0 (.vredmax 4 1) wInt 1 = [(25, 4, [2 ^ 31 - 1])] ∧
    row0 (.vredminidx 4 1) wInt 1 = [(25, 4, [2 ^ 32 - 2]), (25, 5, [1])] ∧ row0 (.vredmaxidx 4 1) wInt 1 = [(25, 4, [2 ^ 31 - 1]), (25, 5, [2])] := by
  decide +kernel
theorem witness_scans :
    issue0 (.vscanO 4 1) wInt 3 = [(23, 4, [7, 5, 2 ^ 31 + 4])] ∧ row0 (.vscanF 4 1) wInt 3 = [(25, 4, [7, 5, 2 ^ 31 + 4])] ∧
    issue0 (.vgrant 4 2) (sets (under w0 .b32 0) [(2, 600), (3, 7)]) 1 = [(19, 0, [512]), (19, 5, [7]), (19, 4, [88]), (19, 5, [519])] := by
  decide +kernel
/-- mcount and mfirst over a row that is not the last (R218): the accumulator that it leaves, no landing. -/
theorem witness_scalars_kept :
    let s := withCore (under w0 .b32 100) fun c => { c with masks := c.masks.setIfInBounds 1 6 }
    ((opOf (.mcount 5 1) s).map fun op => (op.keep 0, match op.sample 0 with | .ok r => r.1.length | .error _ => 9)) = some (some [2], 0) ∧
    ((opOf (.mfirst 5 1) s).map fun op => op.keep 0) = some (some [1]) := by decide +kernel

/-- What a landing brings: due cycle, register, words, bytes written to the scratchpad. -/
structure Brought where
  due   : Nat
  reg   : Nat
  words : List Nat
  bytes : List (Nat × Nat)
  deriving DecidableEq
/-- What row 0 lands at its sample, or at the read that it waits for. -/
def memRow (i : Instr) (s : State) (n : Nat) : List Brought :=
  match opOf i s with
  | some op => match op.sample 0 with
    | .ok (ls, ps) => (ls ++ ps.flatMap op.access).map fun l => ⟨l.due, l.reg, l.data.take n,
      if l.tgt == .spad then (spadBytes l).filterMap fun p => if p.2 = 0 then none else some (p.1, p.2.toNat) else []⟩
    | .error _ => []
  | none => []
/-- The cycle of that read. -/
def readCycle (i : Instr) (s : State) : List Nat :=
  match opOf i s with
  | some op => match op.sample 0 with | .ok (_, ps) => ps.map Pend.due | .error _ => []
  | none => []
/-- MemoryRows (R158 to R164): indices 3, 1, 1 into the words 11, 22, 33, 44; data 5, 6, 7. -/
def wIdx : State := withVec wMem [(2, [3, 1, 1]), (3, [5, 6, 7])]
theorem witness_indexed_rows :
    memRow (.vgath 3 1 2) wIdx 3 = [⟨28, 3, [44, 22, 22], []⟩] ∧ memRow (.vscat 3 1 2) wIdx 0 = [⟨24, 0, [], [(4, 7), (12, 5)]⟩] ∧
    memRow (.vscadd 3 1 2) wIdx 0 = [⟨32, 0, [], [(4, 35), (12, 49)]⟩] ∧
    memRow (.vamo 3 1 2 0) wIdx 3 = [⟨32, 0, [0, 35, 0], [(4, 35), (12, 49)]⟩, ⟨32, 3, [44, 22, 28], []⟩] ∧
    memRow (.vsts 3 1 4) wIdx 0 = [⟨20, 0, [], [(0, 5), (12, 6), (24, 7)]⟩] ∧
    [Instr.vgath 3 1 2, .vscat 3 1 2, .vscadd 3 1 2, .vamo 3 1 2 0].map (fun i => readCycle i wIdx) = [[], [24], [24], [24]] := by
  decide +kernel
theorem witness_tile_rows :
    memRow (.vldt 3 1 2) (sets wIdx [(2, 0)]) 3 = [⟨22, 3, [11, 22, 33], []⟩] ∧
    row0Stop (.vldt 3 1 2) (sets wIdx [(2, 7)]) = some (.fault 8) ∧
    memRow (.vldf 3 1 2) wIdx 3 = [⟨22, 3, [11, 22, 33], []⟩, ⟨22, 2, [7], []⟩] ∧
    memRow (.vldf 3 1 2) (withCore wIdx fun c => { c with poison := [0] }) 3 =
      [⟨22, 3, [0, 0, 0], []⟩, ⟨22, 2, [0], []⟩, ⟨22, 7, [2 * 65536 + 2], []⟩] := by decide +kernel
theorem witness_mask_rows :
    (memRow (.mld 3 1) (under wIdx .b32 70) 1).take 2 = [⟨22, 3, [11 + 22 * 2 ^ 32], []⟩, ⟨22, 3, [33], []⟩] ∧
    memRow (.mst 3 1) (withCore (under wIdx .b32 12) fun c => { c with masks := c.masks.setIfInBounds 3 0xFFF5 }) 0 =
      [⟨20, 0, [], [(0, 0xF5), (1, 0xF)]⟩] ∧
    row0Stop (.mld 3 1) (sets wIdx [(1, 0x3FC00020)]) = some (.trap 9 0) ∧ row0Stop (.mst 3 1) (sets wIdx [(1, 0x400000)]) = some (.trap 10 0) ∧
    row0Stop (.mld 3 1) (withCore wIdx fun c => { c with poison := [0] }) = some (.trap 11 0) := by decide +kernel
theorem witness_binned_store :
    let s := sets (withVec (wBin .f32) [(2, [1]), (3, [0x3FC00000])]) [(1, 0x3FC00000)]
    memRow (.vscaddBin 3 1 2) s 0 = [⟨32, 0, [], [(67, 96), (112, 1)]⟩] := by decide +kernel
/-- A pattern record at scratchpad 0: base 0x100, counts 2, 1, 1, strides 12, 0, 0, cursor at 1 (R165); a count of zero is OPERAND. -/
def wPat : State := withCore (sets w0 [(1, 0x3FC00000)]) fun c =>
  c.sput 0 ([0x3FC00100, 0, 2, 1, 1, 0, 12, 0, 0, 0, 1, 0, 0, 0, 0, 0].flatMap (toBytes 4))
def bound (i : Instr) (s : State) : List Stream := ((opOf i s).map fun op => (coreOf (op.fire s.sys) 0).streams).getD []
theorem witness_streams : (bound (.vbind 5 1) wPat).map (fun st => (st.reg, st.base, st.since)) = [(5, 0x3FC00100, 22)] ∧
    (bound (.vbind 5 1) wPat).map Stream.cur = [[1, 0, 0]] ∧ ((opOf (.vbind 5 1) wPat).map fun op => op.check ()) = some none ∧
    ((opOf (.vbind 5 1) (withCore wPat fun c => c.sput 12 [0])).map fun op => op.check ()) = some (some (.trap 17 0)) := by decide +kernel
theorem witness_unbind :
    let s := withCore wPat fun c => { c with streams := [⟨0, 5, 0x3FC00000, 0x3FC00100, false, [2, 1, 1], [12, 0, 0], [1, 0, 0], true, 3, none⟩] }
    ((opOf (.vunbind 5) s).map fun op => ((op.issue ()).1.map fun l => (l.due, (spadBytes l).filterMap fun p =>
      if p.2 = 0 then none else some (p.1, p.2.toNat)), (coreOf (op.fire s.sys) 0).streams.map Stream.till)) =
      some ([(20, [(0x28, 1), (0x34, 1)])], [some 17]) := by decide +kernel

/-- What a matrix instruction lands at its issue and in its row 0: due cycle, tile or slot, row, the first words. -/
def matRow (i : Instr) (s : State) (n : Nat) : List (Nat × Nat × Nat × List Nat) × List (Nat × Nat × Nat × List Nat) :=
  let f := fun l : Landing => (l.due, l.reg, l.row, l.data.take n)
  match backOf i, pushed i s with
  | some b, some e =>
    let iss := ((b.op ⟨s, 0, 0⟩ { e with issued := some 16 }).issue ())
    (iss.1.map f, match (b.op ⟨s, 0, 0⟩ { e with issued := some 16, acc := iss.2 }).sample 0 with | .ok (ls, _) => ls.map f | .error _ => [])
  | _, _ => ([], [])
/-- Slots 0 and 1 claimed, with the bytes of vector 0 of each; two tiles; a shape of one row and one column. -/
def wMat (ta tb k : Nat) (a b : List Nat) : State := withCore (under w0 .b32 0) fun c => { c with
  part := BitVec.ofNat 64 (2 + 4 * 2 + 64 * 64 + 64 * 8192 + 64 * 1048576)
  claims := 3, tsm := 1, tsn := 1, tsk := BitVec.ofNat 64 (65536 * k + 2 ^ 48 * ta + 2 ^ 56 * tb)
  omem := Mem.writes (Mem.writes [] 0 (a.map (BitVec.ofNat 8))) 32768 (b.map (BitVec.ofNat 8)) }
/-- SlotsAndTiles (R262 to R265): 1 × 4 + 2 × 5 − 1 × 6 under i8; 1 × 1 + 2 × 3 under bf16; 8 × 1.0 × 1.0; 1.5 × 1 + 2 × 3 under f64. -/
theorem witness_blocks :
    ((matRow (.mmabO 0 0 1) (wMat 5 5 3 [1, 2, 255] [4, 5, 6]) 1).1.map fun l => (l.1, l.2.1, l.2.2.2)).take 3 =
      [(26, 0, [8]), (26, 0, [0]), (26, 1, [0])] ∧
    [Instr.mmabO 0 0 1, .mmabF 0 0 1].map (fun i => (matRow i (wMat 12 12 2 [0x80, 0x3F, 0, 0x40] [0x80, 0x3F, 0x40, 0x40]) 1).2.head?) =
      List.replicate 2 (some (26, 0, 0, [0x40E00000])) ∧
    (matRow (.xscacc 1 0 1 0) (withCore (wMat 5 5 3 [0xF0, 0x07] [0xF0, 0x07]) fun c => { c with
      pool := Mem.writes c.pool (tileBase c.partN 0) [8] }) 1).2.head? = some (24, 1, 0, [0x41000000]) := by decide +kernel
theorem witness_doubles :
    ((matRow (.mmad 0 0 1) (withRole (wMat 11 11 2 (List.replicate 6 0 ++ [0xF8, 0x3F] ++ List.replicate 6 0 ++ [0, 0x40])
      (List.replicate 6 0 ++ [0xF0, 0x3F] ++ List.replicate 6 0 ++ [8, 0x40])) fun r => { r with csrs := { r.csrs with vtype := 5 } }) 1).2.map fun l =>
        (l.1, l.2.1, l.2.2.2)) = [(39, 0, [0]), (39, 0, [0]), (39, 1, [0x401E0000]), (39, 1, [0])] := by decide +kernel
/-- R266, R267: the signed sums of 1, 2, 3, 4 that add the last; the entry of 0b0101 is that of its complement, negated. -/
theorem witness_tables :
    (matRow (.mtbl 0 1) (wMat 5 0 4 [1, 2, 3, 4] []) 4).1 = [(25, 1, 0, [65534, 2 + 4 * 65536, 4 + 6 * 65536, 8 + 10 * 65536])] ∧
    (matRow (.mmal 0 1 0) (wMat 5 0 4 [0x05] [2, 0, 4, 0, 6, 0, 8, 0, 10]) 1).2.head? = some (25, 0, 0, [2 ^ 32 - 6]) := by decide +kernel
/-- R251, R256, R268: a grant of 2 × 3 × 4 under i8; a reserved bit is OPERAND; two vectors to slot 0 from vector 7; a row of a tile. -/
theorem witness_grants :
    (matRow (.tshape 9 6) (sets (wMat 0 0 0 [] []) [(6, 2 + 256 * 3 + 65536 * 4 + 2 ^ 48 * 5 + 2 ^ 56 * 5)]) 1).1.take 2 = [(17, 0x47, 0, [2]), (17, 0x48, 0, [3])] ∧
    ((opOf (.tshape 9 6) (sets (wMat 0 0 0 [] []) [(6, 2 ^ 63)])).map fun o => o.check ()) = some (some (.trap 17 0)) ∧
    (matRow (.oload 0 9) (withCore (sets (wMat 0 0 0 [] []) [(9, 0x3FC00000 + 2 ^ 32 * 2 + 2 ^ 40 * 7)]) fun c => c.sput 256 [9, 8, 7, 6]) 1).2 =
      [(18, 0, 7, [0]), (18, 0, 8, [0x06070809])] := by decide +kernel
theorem witness_tile_moves :
    (matRow (.aload 0 15) (withCore (sets (wMat 0 0 1 [] []) [(15, 0x3FC00000)]) fun c => c.sput 0 [9, 8, 7, 6]) 1).2.head? = some (22, 0, 0, [0x06070809]) ∧
    (matRow (.astore 0 15) (withCore (sets (wMat 0 0 1 [] []) [(15, 0x3FC00000)]) fun c => { c with pool := Mem.writes c.pool (tileBase c.partN 0) [8] }) 1).2.head? =
      some (20, 0, 0, [8]) ∧
    ((opOf (.aload 0 15) (sets (wMat 0 0 1 [] []) [(15, 2 ^ 32)])).map fun o => o.check ()) = some (some (.trap 10 0)) := by decide +kernel


/-! ## Launches, collectives, transfers -/

/-- LaunchesQueuedAndServed (R308): the first launch gets sequence number 1, its counter 3 × COUNT contributors; the seventeenth is FULL 10. -/
def withFifo (s : State) (l : List Launch) : State := { s with sys := setVd s.sys { vdOf s.sys 0 with fifo := l } }
theorem witness_launch_queued :
    let s := serving (.counter { aCounter with state := 2 }) 0 0 0x9000 1
    objOf s.sys 3 = some (anObj (.counter { aCounter with state := 2 })) ∧
    (answered .homeLaunch s, (vdOf (after .homeLaunch s).sys 0).launchSeq) = ([(0, 0, 255, 1)], 1) ∧
    (vdOf (after .homeLaunch s).sys 0).fifo.map (fun l => (l.seq, l.desc, l.counter, l.count, l.served)) = [(1, 0x9000, 3, 1, false)] ∧
    ((objAfter .homeLaunch s).map fun o => match o.body with | .counter c => (c.state, c.count, c.target) | _ => (9, 9, 9)) = some (0, 0, 3) ∧
    answered .homeLaunch (withFifo s (List.replicate 16 .none)) = [(0, 10, 255, 0)] := by decide
/-- An entry whose descriptor cannot be read is refused (R310): it leaves, and its counter, if RUNNING, is CANCELLED. -/
theorem witness_launch_refused :
    let l := { Launch.none with counter := 3, desc := 0x9000 }
    let s := withFifo (serving (.counter aCounter) 0 0 0 0) [l]
    (vdOf s.sys 0).fifo = [l] ∧ (vdOf s.sys 0).key = 0 ∧ s.sys.mgmt.fwstate = .idle ∧
    (match serveLaunch s 0 41 l with | .error k => k | .ok _ => 0) = 1 ∧ (vdOf (after (.launchUnitServe 0) s).sys 0).fifo = [] ∧
    (objAfter (.launchUnitServe 0) s).map Obj.body = some (.counter { aCounter with state := 2, donetick := 40 }) := by decide
/-- LaunchStart: a core of a domain that runs refuses the launch. -/
theorem witness_launch_start_refused :
    let l := { Launch.none with count := 1, served := true, start := 40 }
    let s := withFifo (serving .free 0 0 0 0) [l]
    launchCores (vdOf s.sys 0) l = [0] ∧ (∃ d ∈ s.sys.doms, d.st ≠ .ended ∧ 0 ∈ d.cores) ∧
    ((vdOf (after (.launchStart 0) s).sys 0).fifo, (after (.launchStart 0) s).sys.doms == s.sys.doms) = ([], true) := by decide

/-- Collectives (R324, R332): parties 0 and 1, of which 0 has come, deadline 100, a walk of 64 ticks. -/
def aColl : Coll := {
  expect := 3, arrived := 1, deadline := 100, abs1 := 2, planVa := 0, span := 64, state1 := 1, pdone1 := 30, plan := none, w0 := 0
  walks := [] }
/-- A plan of one party of core 0, a copy of 4 bytes, and a walk of generation 4 that acts now. -/
def aPlan : Plan := {
  opk := 0, ety := .b32, srcsp := true, dstsp := true, switch := false, tagset := false, srcbase := 0x3FC00000, dstbase := 0x3FC00040
  chunk := 4, tag := 0, parties := [(0, 0)], srank := 0, drank := 0, rankmul := 0, peeroff := 0, levels := [⟨1, 0, 0, 0⟩] }
def aWalk : Walk := { gen := 4, absent := 2, due := 90, next := 40, begun := true, since := 40, left := [], whole := [], opened := [], aborted := false, tagged := [] }
theorem witness_coll : (collOf (serving (.coll aColl) 1 5 100 0).sys 3).isSome = true ∧
    [(2, 5, 100), (1, 5, 100), (1, 5, 101), (1, 4, 100)].map (fun p : Nat × Nat × Nat =>
      answered .homeColl (serving (.coll aColl) p.1 p.2.1 p.2.2 0)) =
    [[(0, 6, 255, 5)], [(0, 0, 255, 5)], [(0, 5, 255, 5)], [(2, 1, 255, 5)]] := by decide
theorem witness_collwait :
    [({ aColl with abs1 := 0 }, 4), (aColl, 4), ({ aColl with abs1 := 0, state1 := 0, pdone1 := 50 }, 4), ({ aColl with abs1 := 0, state1 := 2 }, 4),
      (aColl, 5)].map (fun p : Coll × Nat => answered .homeCollwait (serving (.coll p.1) 1 p.2 0 0)) =
    [[(0, 0, 255, 5)], [(2, 2, 255, 5)], [(0, 11, 255, 10)], [(0, 12, 255, 5)], [(0, 3, 255, 5)]] := by decide
theorem witness_collabort : answered .homeCollabort (serving (.coll aColl) 1 0 0 0) = [(1, 0, 255, 5)] ∧
    (objAfter .homeCollabort (serving (.coll { aColl with state1 := 0, walks := [{ aWalk with gen := 3 }, aWalk] }) 1 0 0 0)).map Obj.body =
      some (.coll { aColl with state1 := 2, walks := [{ aWalk with gen := 3 }, { aWalk with aborted := true }] }) := by decide
theorem witness_coll_resolution :
    ((objAfter (.collResolution 3) { serving (.coll aColl) 0 0 0 0 with gtc := 100 }).map fun o => (o.gen, match o.body with
      | .coll c => (c.abs1.toNat, c.w0, c.pdone1, c.state1, c.walks.length) | _ => (9, 9, 9, 9, 9))) = some (6, 2, 100, 164, 0, 1) ∧
    ((objAfter (.collResolution 3) { serving (.coll { aColl with arrived := 0 }) 0 0 0 0 with gtc := 100 }).map fun o => match o.body with
      | .coll c => (c.state1, c.walks.length) | _ => (9, 9)) = some (1, 0) ∧
    objAfter (.collResolution 3) { serving (.coll aColl) 0 0 0 0 with gtc := 99 } = some (anObj (.coll aColl)) := by decide
theorem witness_walk_done :
    let c := { aColl with state1 := 0, plan := some aPlan, walks := [aWalk] }
    let left := { aWalk with begun := false, due := 42 }
    (objAfter (.collWalkDone 3 4) (serving (.coll c) 0 0 0 0)).map Obj.body = some (.coll { c with state1 := 1, walks := [] }) ∧
    (objAfter (.collWalkDone 3 3) (serving (.coll c) 0 0 0 0)).map Obj.body = some (.coll c) ∧
    walkParties (serving (.coll c) 0 0 0 0).sys 0 aPlan 3 2 ≠ [] ∧
    (after (.collWalkDone 3 4) (serving (.coll { c with walks := [left] }) 0 0 0 0)).sys.sched = [(41, .collWalkDone 3 4, noMsg)] := by decide +kernel
/-- The last ticks of a walk's promise read its word and write it (R325, log entry 26). -/
theorem witness_walk_moves :
    let c := { aColl with state1 := 0, plan := some aPlan, walks := [{ aWalk with begun := false, due := 42 }] }
    let s := withCore (serving (.coll c) 0 0 0 0) fun c => c.sput 0 [9, 8, 7, 6]
    let one := after (.collWalkDone 3 4) s
    let two := after (.collWalkDone 3 4) { one with gtc := 41 }
    ((coreOf one.sys 0).snat 0x40 4, (coreOf two.sys 0).snat 0x40 4) = (0, 0x06070809) := by decide +kernel

/-- The domain with a bank floor of 100, its core's banks busy and 9 pJ charged, in a thermal emergency or not. -/
def wFrame (busy : List Nat) (hot : Bool) : State :=
  let s := withCore { w0 with gtc := 4096 } fun c => { c with busy := busy, energy := 9 }
  { s with sys := { setDom s.sys { s.myDom with launch := { Launch.none with floor := 100 } } with mgmt := { s.sys.mgmt with emergency := hot } } }
/-- TransferAdmission (R170): a copy of 64 bytes on channel 2, its channel's counter at 5; SHADOW with a reserved XOPT bit. -/
def copySet : Shadow := { Csrs.launch.shadow with
  xsrc := 0x10000, xdst := 0x3FC00100, xcount0 := 64, xcount1 := 1, xchan := 2, xopt := 0x10 }
def wXgo : State := withRole w0 fun r => { r with csrs := { r.csrs with shadow := copySet } }
theorem witness_xgo_checks : ((opOf (.xgo 22 12) wXgo).map fun op => op.check ()) = some none ∧
    ((opOf (.xgo 22 12) (withRole w0 fun r => { r with csrs := { r.csrs with shadow := { copySet with xopt := 0x80 } } })).map fun op =>
      op.check ()) = some (some (.trap 17 0)) ∧
    ((opOf (.xgo 22 12) (withRole w0 fun r => { r with csrs := { r.csrs with shadow := { copySet with xdst := 0x800000 } } })).map fun op =>
      op.check ()) = some (some (.trap 10 0)) := by decide
/-- A transfer from scratchpad 0x100 to 0x200 of core 0 that has read its source, and one that waits for nothing at each stage. -/
def anXfer : Xfer := {
  xid := 1, core := 0, role := 0, chan := 2, id := 5, kind := 0
  shadow := { copySet with xsrc := 0x3FC00100, xdst := 0x3FC00200, xcount0 := 4, xopt := 0x18 }, vl := 0, issue := 1, due := 51, urge := 50, load := 0
  after := .none, status := 0, stage := 1, idx := [], moves := [⟨some 0x200, [(0x100, some (0x04030201, false, 0))]⟩], dups := false
  trans := [], whole := [], tags := [], noted := [], keygen := 0 }
/-- The same with places of the pool of core 0, whose scratchpad begins at spadBase. -/
def spadXfer (r : Option (Nat × Bool × Nat)) : Xfer :=
  let b := spadBase (coreOf w0.sys 0).partN
  { anXfer with moves := [⟨some (b + 0x200), [(b + 0x100, r)]⟩], tags := [(0, 0)], shadow := { anXfer.shadow with xopt := 0x718 } }
def wXfer (x : Xfer) : State :=
  let s := withCore { w0 with gtc := 50 } fun c => c.sput 0x100 [9, 8, 7, 6]
  { s with sys := { s.sys with xfers := [x] } }
/-- TransfersAndInvalidations: in its last ticks a transfer reads, then writes; the flag and poison come along (R151, R153). -/
theorem witness_transfer_read :
    let x := { spadXfer none with due := 52 }
    let s := wXfer x
    xferOf s.sys 1 = some x ∧ waitMet s.sys 0 false .none = true ∧ behindXinv s.sys x = false ∧ anyStall s.sys 50 = true ∧
    ((xferOf (after (.transferDelivery 0 1 0) s).sys 1).map fun y => (y.stage, y.moves.map Move.words)) =
      some (1, [[(0x06070809, false, 0)]]) := by decide +kernel
theorem witness_transfer_write :
    let x := spadXfer (some (0x04030201, true, 3))
    let t := after (.transferDelivery 0 1 0) (wXfer x)
    channelBusy (wXfer x).sys x 2 = false ∧ x.shadow.toMemory = false ∧
    ((coreOf t.sys 0).snat 0x200 4, (coreOf t.sys 0).flagCause 0x80, (coreOf t.sys 0).poisoned 0x200, (coreOf t.sys 0).slotTag 0) =
      (0x04030201, 3, true, 0) ∧
    (xferOf t.sys 1).map (fun y => (y.stage, y.moves)) = some (2, []) ∧
    (coreOf (after (.transferDelivery 0 1 1) { t with gtc := 51 }).sys 0).slotTag 0 = 7 := by decide +kernel
/-- A poisoned byte that a gang delivers is zero in the ring register (R380, log entry 49). -/
theorem witness_gang_poison :
    let x := { anXfer with kind := 6, moves := [⟨some 0x200, [(0, some (0x04030201, true, 0))]⟩] }
    let t := after (.transferDelivery 0 1 0) (wXfer { x with shadow := { x.shadow with xopt := 0x58 } })
    (xferOf t.sys 1).map Xfer.stage = some 2 ∧ Mem.nat (coreOf t.sys 0).pool 0x200 4 = 0 := by decide +kernel
/-- What is all written leaves its channel, which keeps its error, at most 16 and none after an OVERFLOW (R175). -/
theorem witness_transfer_visible :
    let x := { anXfer with stage := 2, moves := [], status := 3 }
    (after (.transferDelivery 0 1 1) (wXfer { x with status := 0 })).sys.xfers = [] ∧
    ((coreOf (after (.transferDelivery 0 1 1) (wXfer x)).sys 0).chanAt 2).errors = [(5, 3)] ∧
    recordError [(1, 1), (2, 15)] 5 3 = [(1, 1), (2, 15)] ∧ (recordError (List.replicate 16 (1, 1)) 5 3).getLast? = some (1, 15) := by
  decide +kernel
/-- One that waits for an earlier transfer acts again; an earlier entry of the channel that is not written holds up its writes. -/
theorem witness_transfer_waits :
    let x := spadXfer (some (1, false, 0))
    let y := { x with xid := 2, after := { Wait.none with xids := [1] }, tags := [] }
    let z := { x with xid := 2 }
    let s := fun (q : Xfer) => { wXfer x with sys := { (wXfer x).sys with xfers := [x, q] } }
    ((after (.transferDelivery 0 2 0) (s y)).sys.xfers == [x, y]) = true ∧
    (after (.transferDelivery 0 2 1) (s y)).sys.sched.map (fun e => (e.1, e.2.1)) = [(51, .transferDelivery 0 2 1), (50, .transferDelivery 0 2 0)] ∧
    channelBusy (s z).sys z 2 = true ∧ (coreOf (after (.transferDelivery 0 2 0) (s z)).sys 0).snat 0x200 4 = 0 := by decide +kernel
theorem witness_transfer_to_memory :
    let x := { anXfer with shadow := { anXfer.shadow with xopt := 8 } }
    let s := wXfer x
    let s := { s with sys := { s.sys with mgmt := { s.sys.mgmt with
      ready := 64, ports := s.sys.mgmt.ports.map fun p => { p with up := true } } } }
    x.shadow.toMemory = true ∧ anyStall s.sys s.gtc = false ∧
    (xferOf (after (.transferDelivery 0 1 0) s).sys 1).map (fun y => (y.stage, y.status)) = some (2, 1) := by decide +kernel
/-- A decrypt whose key slot was retired since its admission ends TAGFAIL and moves nothing (R172, R373). -/
theorem witness_decrypt_fails :
    let x := { anXfer with kind := 3, stage := 0, shadow := { anXfer.shadow with xopt := 0x1B }, keygen := 1 }
    keyStands (wXfer x).sys x = false ∧ (decryptSource (wXfer x).sys x [(0, false, 0)]).1 = 4 ∧
    (xferOf (after (.transferDelivery 0 1 0) (wXfer x)).sys 1).map (fun y => (y.stage, y.status, y.moves)) = some (2, 4, []) := by decide +kernel
theorem witness_slot_tag_write :
    spAddr (wXfer anXfer).sys 0 0x3FC00200 = some (0, 0x200) ∧
    (coreOf (after (.transferDelivery 0 1 3) (wXfer { anXfer with kind := 5, id := 9, stage := 2, shadow := { anXfer.shadow with xopt := 0x718 } })).sys 0).slotTag 0 = 7 ∧
    ((after (.transferDelivery 0 1 4) (wXfer { anXfer with kind := 5, id := 9 })).sys.answers.map fun a => (a.ticket, a.first)) = [(9, 0)] := by
  decide
/-- An invalidation waits while an earlier entry of its channel is not visible, and tries again at the next tick (R147). -/
theorem witness_invalidation_waits :
    let x := { anXfer with xid := 2, id := 6, kind := 4, stage := 0 }
    let s := { wXfer x with sys := { (wXfer x).sys with xfers := [anXfer, x] } }
    let alone := wXfer { anXfer with kind := 4, stage := 0 }
    channelBusy s.sys x 3 = true ∧ (after (.xinvComplete 0 2) s).sys.sched.map (fun e => (e.1, e.2.1)) = [(51, .xinvComplete 0 2)] ∧
    ((after (.xinvComplete 0 1) alone).sys.xfers.map Xfer.stage, (after (.xinvComplete 0 1) (after (.xinvComplete 0 1) alone)).sys.xfers) =
      ([1], []) := by decide

/-- Virtual device 0 with both stages mapping its first 2^29 bytes onto host memory: stage 2 at 2^50 + 0x1_0000, stage 1 at 0x4_0000. -/
def wMapped : State :=
  let s := { w0 with gtc := 40, sys := setVd w0.sys { vdOf w0.sys 0 with s2root := 2 ^ 50 + 0x10000, s1root := 0x40000 } }
  let entry := fun (at_ v : Nat) => hostPosts 0 (2 ^ 50 + at_) (toBytes 8 v)
  { s with mem := drainPosts s.mem (entry 0x10000 (2 ^ 50 + 0x20001) ++ entry 0x20000 (2 ^ 50 + 0x30001) ++ entry 0x30000 (2 ^ 50 + 0x1F) ++
    entry 0x40000 0x50001 ++ entry 0x50000 0x60001 ++ entry 0x60000 7) }
theorem test_translation : (xlate wMapped 0 0x1234567).map (fun x => (x.ia, x.pa, x.slot, x.wr, x.hostsh)) =
    some (0x1234567, 2 ^ 50 + 0x1234567, 1, true, true) ∧ (xlate wMapped 0 (2 ^ 29)) = none ∧
    (xlate2 wMapped 0 0x50000).map (fun x => x.pa) = some (2 ^ 50 + 0x50000) := by decide +kernel
/-- HostAccess: a read and a write of mapped bytes (R401). -/
theorem witness_host_mapped :
    (after (.hostRead 0 0x40000 8 false) wMapped).sys.posts = [.send (.readCompletion 0 0x40000 [1, 0, 5, 0, 0, 0, 0, 0] false)] ∧
    ((xlate2 wMapped 0 0x9000).map fun x => x.wr) = some true ∧
    ((after (.hostWrite 0 0x9000 [3, 4] false false) wMapped).sys.posts.map fun p => match p with
      | .write pa _ _ _ data poison _ _ => (pa, data, poison) | _ => (0, [], true)) = [(2 ^ 50 + 0x9000, [3, 4], false)] := by
  decide +kernel
/-- LaunchStart (R31, R65): a launch that has been served, of core 1, whose image (here the fabric page) can be read, begins at tick 40 with power
granted; one of no watts does not. -/
def wStart : State :=
  let l := { Launch.none with count := 1, served := true, start := 40, image := fabricPage, first := 1 }
  let y := setVd wMapped.sys { vdOf wMapped.sys 0 with cores := [0, 1], fifo := [l] }
  { wMapped with sys := { y with mgmt := { y.mgmt with palloc := y.mgmt.palloc.setIfInBounds 0 100 } } }
theorem witness_launch_start :
    launchCores (vdOf wStart.sys 0) ((vdOf wStart.sys 0).fifo.headD .none) = [1] ∧ frameFigure 1 0 + runningFigures wStart.sys 0 ≤ powerOf wStart.sys 0 ∧
    (readImage wStart 0 fabricPage).isSome = true ∧ (∀ d ∈ wStart.sys.doms, 1 ∉ d.cores) := by
  decide +kernel
/-- Provisioning (R353): a descriptor of one core, one key slot, a bandwidth of 1 and one chip, with every function ready. -/
def wProvision : State :=
  let s := { w0 with gtc := 40, sys := { setVd w0.sys { Vdev.absent 0 with st := .provisioning, busy := true, arg0 := 2 ^ 50 } with
    mgmt := { w0.sys.mgmt with ready := BitVec.allOnes 64 }, msg := { noMsg with aux := 1 } } }
  let put := fun (o v : Nat) => hostPosts 0 (2 ^ 50 + o) (toBytes 1 v)
  { s with mem := drainPosts s.mem (put 0 1 ++ put 25 1 ++ put 28 9 ++ put 41 2 ++ put 54 4 ++ put 64 1 ++ put 72 64 ++ put 80 1) }
theorem witness_provisioning :
    descDetail wProvision.sys 0 (2 ^ 50) (hostBytes wProvision 0 (2 ^ 50) 256) = 0 ∧
    (let v := vdOf (after .provision wProvision).sys 0
     (v.st, v.busy, v.result, v.cores, v.lease, v.savedl)) = (.running, false, 0, [0], 9, 512) ∧
    (coreOf (after .provision wProvision).sys 0).lease = 9 := by
  decide +kernel
/-- ScalarAccesses (R115): a waiting load of 4 bytes at 0x100 is served in a free bank-cycle, sign-extended. -/
def wServe : State :=
  let s := withRole (wXfer anXfer) fun r => { r with
    sacc := some { isLoad := true, wd := 2, core := 0, off := 0x100, rd := 5, data := 0, after := 50 } }
  { s with sys := setDom s.sys { s.myDom with checked := some 50 } }
theorem witness_scalar_service : wServe.myDom.st = .run ∧ wServe.myDom.checked = some (wServe.myDom.ttc wServe.gtc) ∧
    timetabled backOf wServe wServe.myDom 50 0 &&& banksOf 0x100 4 = 0 ∧ gets (after (.scalarAccessService 0 0) wServe) [5] = [0x06070809] ∧
    (me (after (.scalarAccessService 0 0) wServe).sys).sacc = none := by decide
/-- TransferAdmission (R170): admitted, with a floor of banks; refused for its bandwidth (reason 3) without one. -/
theorem witness_xgo_decided :
    (match pushed (.xgo 22 12) wXgo with
      | some e => (match decideXgo ⟨wXgo, 0, 0⟩ e with | .error k => k | .ok _ => 0)
      | none => 9) = 3 := by decide
def wXgoFloor : State := { wXgo with sys := setDom wXgo.sys { wXgo.myDom with launch := { Launch.none with floor := 100 } } }
theorem witness_xgo_admitted : ∃ due, decideXgo ⟨wXgoFloor, 0, 0⟩ (handlerEntry wXgoFloor (me wXgoFloor.sys) 0 (.xgo 22 12) [12]) = .ok due :=
  ⟨_, rfl⟩

/-- OldValuesRead (R187): core 0 holds a lock whose region is 0x9000 to 0x90FF, and writes two bytes of a unit in its tenure; outside the region
nothing is torn; once core 1 has taken the lock over, the unit is torn for core 1. -/
def wHeldObj : Obj := { anObj (.lock { heldLock with hcore := 0, since := 4 }) with regions := [⟨0x9000, 0x100, 255⟩] }
def wHeld : State := { wMapped with sys := setObj wMapped.sys wHeldObj }
def unit9000 : Nat := (2 ^ 50 + 0x9000) / 8
theorem witness_torn_unit :
    (noteHeld wHeld wHeld.sys 0 5 0x9002 [7, 8]).torn =
      [⟨unit9000, 3, [0x9000], [[0, 0, 0, 0, 0, 0, 0, 0], [0, 0, 7, 8, 0, 0, 0, 0]], none⟩] ∧
    (tearUnits wHeld (noteHeld wHeld wHeld.sys 0 5 0x9102 [7, 8]) wHeldObj 0 1 40).torn = [] ∧
    (noteHeld wHeld wHeld.sys 0 3 0x9002 [7, 8]).torn = [] := by decide +kernel
theorem witness_torn_reader :
    let y := tearUnits wHeld (noteHeld wHeld wHeld.sys 0 5 0x9002 [7, 8]) wHeldObj 0 1 40
    (getBy TornUnit.unit unit9000 y.torn).map (fun t => (t.reader, t.vals.length)) = some (some (1, 40), 2) ∧
    storeKey wHeld 0 (2 ^ 50 + 0x9002) / 8 = unit9000 ∧ (readVaByte wHeld 0 0x9002).cause = 0 := by decide +kernel
/-- OldValuesRead (R147): an access caches its translations of both stages, of the table pages too; xinv of the page drops stage 1's of that page. -/
theorem witness_cached :
    (noteXlat wMapped wMapped.sys 0 0x9000 16).cached.map (fun c => (c.st2, c.page)) =
      [(true, 4), (true, 5), (true, 6), (false, 0), (true, 0)] ∧
    (dropCached (noteXlat wMapped wMapped.sys 0 0x9000 16) 0 false 0x8000 1).cached.length = 4 := by decide +kernel
/-- A page that the tables no longer map, cached before: the old value is one of those that may be used. -/
theorem test_old_translation :
    ((noteXlat wMapped wMapped.sys 0 0x9000 16).cached.filter fun c => c.page == 0).map (fun c => (c.out, c.leaf % 8)) =
      [(0, 7), (2 ^ 50, 7)] := by decide +kernel

/-! ## The tick, frames, freezes -/

/-- ClockTick (R5, R70): an armed role whose next stamp is c + 1 underruns, TRAPPC its last back-end word; one at c + 2 does not. -/
def wArmed (g : Nat) : State := withRole { w0 with gtc := g } fun r => { r with armed := true, pWord := 0x40 }
theorem witness_underrun : (roleOf (wArmed 14).sys 0 0).ns = 16 ∧ ((wArmed 14).myDom.ttc 15 : Int) + 1 = 16 ∧ (me (wArmed 14).sys).aside = none ∧
    (let t := after .gtcTick (wArmed 14)
     (t.gtc, (me t.sys).trapcause, (me t.sys).trapelem.toNat, (me t.sys).trappc.toNat)) = (15, 4, 0xFF0001, 0x40) ∧
    (me (after .gtcTick (wArmed 13)).sys).trapcause = 0 := by decide
/-- A byte posted to host memory is visible at the next tick (R363). -/
theorem test_post_visible : Mem.read (after .gtcTick { w0 with sys := { w0.sys with posts := [.write 70 0 0 70 [5] false true false] } }).mem.bytes 70 = 5 := by
  decide
/-- FramesFreezesResumes (R84): a bank busy in 4,000 of the frame's cycles; in a thermal emergency F = c. -/
theorem witness_frame_floor : (wFrame [4000] false).myDom.inCycle = true ∧ belowFloor (wFrame [4000] false).myDom (wFrame [4000] false).myCore = true ∧
    belowFloor (wFrame [3996] false).myDom (wFrame [3996] false).myCore = false ∧
    (let t := after (.frameBoundary 1) (wFrame [4000] false)
     ((me t.sys).trapcause, (me t.sys).trapelem.toNat, t.myCore.energy, t.myCore.busy)) = (4, 0xFF000A, 0, []) := by decide
theorem witness_frame_thermal :
    (let t := after (.frameBoundary 1) (wFrame [] true)
     (t.myDom.st, t.myDom.f, t.myDom.thermal)) = (.frozen, 4096, true) ∧ (after (.frameBoundary 1) (wFrame [] false)).myDom.st = .run := by decide
theorem witness_preemption : w0.myDom.st = .run ∧ (roleOf w0.sys 0 0).handler = false ∧
    (wPre.myDom.st, wPre.myDom.f, wPre.myDom.preempt, (me wPre.sys).trapcause) = (.frozen, 1, [0], 7) := by decide
/-- A domain frozen at F = 0 resumes at tick 9 with TTBASE 9 (R89). -/
def wResume : State := { after .tret wTrap with gtc := 9 }
theorem witness_resume : wResume.myDom.st = .resuming ∧ wResume.myDom.clearOfCauses wResume.sys = true ∧ wResume.myDom.f ≤ wResume.gtc ∧
    (let d := (after (.domainResume 1) wResume).myDom
     (d.st, d.ttbase, d.ttc 9)) = (.run, 9, 0) := by decide
theorem witness_no_resume : wTrap.myDom.st ≠ .resuming ∧ (after (.domainResume 1) wTrap).myDom.st = .frozen := by decide

/-! ## Virtual devices -/

/-- Virtual device 0 after a change, with a request's event at hand. -/
def vdState (aux : Nat) (f : Vdev → Vdev) : State :=
  { w0 with gtc := 40, sys := { setVd w0.sys (f (vdOf w0.sys 0)) with msg := { noMsg with aux := aux } } }
def vdAfter (i : Instr) (s : State) : Vdev := vdOf (after i s).sys 0
/-- DeviceRequests (R352): BUSY 1, BADSTATE 3, LOCKED 5 (R371); an accepted STOP of a locked TDI is STOPPING and in ERROR. -/
theorem witness_requests :
    ((vdAfter .stop (vdState 0 fun v => { v with busy := true })).result, (vdAfter .provision (vdState 0 id)).result,
      (vdAfter .aperture (vdState 0 fun v => { v with tdi := 2 })).result) = (1, 3, 5) ∧
    (let v := vdAfter .stop (vdState 0 fun v => { v with tdi := 2 })
     (v.st, v.busy, v.tdi)) = (.stopping, true, 3) ∧
    (vdAfter .preempt (vdState 0 id)).st = .preempting ∧ (vdAfter .restore (vdState 0 fun v => { v with st := .saved })).st = .restoring ∧
    (vdAfter .provision (vdState 0 fun _ => .absent 0)).st = .provisioning := by decide
theorem test_requests_keep_state :
    [(Instr.continueReq, VdState.stopped), (.inval2, .running), (.keyloadRetire, .saved), (.keyloadWindow, .running), (.keyloadImport, .stopped),
      (.aperture, .running)].map (fun p : Instr × VdState =>
        let v := vdAfter p.1 (vdState 0 fun v => { v with st := p.2 })
        (v.busy, v.st == p.2, v.result)) = List.replicate 6 (true, true, 0) := by decide
/-- Provisioning (R353): a descriptor of zeros fails the first check, SAVEDL 0: RESULT 4, DETAIL 1. -/
theorem witness_provision_refused :
    (let v := vdAfter .provision (vdState 1 fun _ => { Vdev.absent 0 with st := .provisioning, busy := true })
     (v.st, v.busy, v.result, v.detail)) = (.absent, false, 4, 1) := by decide
/-- SavingAndRestoring (R364, R365). -/
theorem witness_preempt_work : (after .preempt (vdState 1 fun v => { v with st := .preempting, savedl := 500 })).sys.sched.map (fun e => (e.1, e.2.1)) =
    [(40, .preemptionArrival 1), (540, .saveDeadlineExpiry 0), (41, .vdSaved 0)] := by decide
theorem witness_save_deadline : (vdAfter (.saveDeadlineExpiry 0) (vdState 0 fun v => { v with st := .preempting })).savelate = true ∧
    (vdAfter (.saveDeadlineExpiry 0) (vdState 0 id)).savelate = false := by decide
def wSave (saved : List Nat) : State :=
  let s := { wPre with sys := setVd wPre.sys { vdOf wPre.sys 0 with st := .preempting, busy := true } }
  { s with sys := setDom s.sys { s.myDom with saved := saved } }
theorem witness_saved : preempted (wSave [0]).sys 0 ≠ [] ∧ allSaved (preempted (wSave [0]).sys 0) = true ∧ savesOut (wSave [0]).sys [0] = false ∧
    ((wSave [0]).sys.doms.map Domain.id).Nodup ∧
    (let v := vdAfter (.vdSaved 0) (wSave [0])
     (v.st, v.busy, v.result, v.released, v.cores)) = (.saved, false, 0, [0], []) ∧
    (after (.vdSaved 0) (wSave [])).sys.sched.length = (wSave []).sys.sched.length + 1 := by decide
theorem witness_all_withdrew : (vdAfter (.vdSaved 0) (vdState 0 fun v => { v with st := .preempting })).st = .running := by decide
/-- RESTORE (R366): ARG0 names no cores, where one was released: RESULT 4, DETAIL 2; with none released it fits. -/
theorem witness_restore :
    (let v := vdAfter .restore (vdState 1 fun v => { v with st := .restoring, released := [0] })
     (v.st, v.result, v.detail)) = (.saved, 4, 2) ∧
    (vdAfter .restore (vdState 1 fun v => { v with st := .restoring })).result = 0 := by decide
/-- StopAndContinue (R368, R369): F is c + 1; CONTINUE lets the domain go. -/
theorem witness_stop :
    (let d := (after .stop (vdState 1 fun v => { v with st := .stopping })).myDom
     (d.st, d.f, d.stopHold)) = (.frozen, 41, true) ∧
    (let s := vdState 1 fun v => { v with st := .stopping, reqNo := 2 }
     let t := after .stop { s with sys := { s.sys with msg := { s.sys.msg with gen := 2 } } }
     (t.sys.sched.getLast?.map fun e => (e.1, e.2.1, e.2.2.gen), (after .stop s).sys.sched)) = (some (41, .stopPublish 0, 2), []) ∧
    ((vdState 1 id).sys.doms.map Domain.id).Nodup := by decide
theorem witness_stop_publish :
    ((vdAfter (.stopPublish 0) (vdState 0 fun v => { v with st := .stopping })).stoppedBit,
      stopPending (vdState 0 id) 0 40) = (true, false) ∧
    (let v := vdAfter (.stopPublish 0) (vdState 0 fun v => { v with st := .stopping, stoppedBit := true, dirtytrack := true, busy := true })
     (v.st, v.dpready, v.busy)) = (.stopped, true, false) ∧
    (vdAfter (.stopPublish 0) { wXfer anXfer with sys := setVd (wXfer anXfer).sys { vdOf w0.sys 0 with st := .stopping } }).stoppedBit = false := by
  decide
theorem witness_continue :
    let s := vdState 1 fun v => { v with st := .stopped, stoppedBit := true, busy := true }
    let s := { s with sys := setDom s.sys { s.myDom with st := .frozen, stopHold := true } }
    (vdAfter .continueReq s).st = .running ∧ (after .continueReq s).myDom.stopHold = false ∧ (after .continueReq s).myDom.st = .resuming := by
  decide
/-- Resetting (R367): RESULT 6 from PREEMPTING; the domain ends. -/
theorem witness_reset :
    (let v := vdAfter .resetReq (vdState 0 fun v => { v with st := .preempting })
     (v.st, v.busy, v.result)) = (.resetting, true, 6) ∧ (vdAfter .resetReq (vdState 0 fun v => { v with tdi := 2 })).tdi = 3 ∧ (after .resetReq (vdState 0 id)).sys.doms.map Domain.st = [.ended] ∧
    (vdAfter .resetReq (vdState 0 fun _ => .absent 0)).result = 3 ∧ (vdAfter (.flr 0) (vdState 0 id)).st = .resetting ∧
    (vdOf (after (.flr 1) { w0 with sys := setVd w0.sys { Vdev.absent 1 with st := .running } }).sys 1).st = .resetting ∧
    (let v := vdAfter (.stopInterfaceRequest 0) (vdState 0 fun v => { v with tdi := 3 })
     (v.st, v.tdi)) = (.resetting, 0) := by decide +kernel
theorem witness_reset_complete :
    (vdAfter (.vdResetComplete 0) (vdState 0 fun _ => { Vdev.absent 0 with st := .resetting, result := 6 })) = { Vdev.absent 0 with result := 6 } ∧
    (let s := vdState 0 fun _ => { Vdev.absent 0 with st := .resetting }
     let s := { s with sys := { s.sys with mgmt := { s.sys.mgmt with fwstate := .handover } } }
     ((vdAfter (.vdResetComplete 0) s).st, (after (.vdResetComplete 0) s).sys.sched.length)) = (.resetting, 1) := by decide
/-- KeysAperturesRegisters (R359, R360): a record of zeros names slot 0, no pool slot: RESULT 4; an aperture of another device is refused. -/
theorem witness_keys_refused : recordOk (keyRecord (vdState 1 id) 0) 0 = false ∧
    [Instr.keyloadRetire, .keyloadWindow, .keyloadImport].map (fun i => ((vdAfter i (vdState 1 id)).result, (vdAfter i (vdState 1 id)).detail)) =
      [(4, 1), (4, 1), (4, 1)] := by decide +kernel
/-- A record in host memory: slot 33 and a KIND. -/
def wKey (kind : Nat) (k : KeySlot) : State :=
  let s := vdState 1 fun v => { v with arg0 := 2 ^ 50, busy := true }
  let s := { s with sys := setKeySlot s.sys 0 33 k }
  { s with mem := drainPosts s.mem (hostPosts 0 (2 ^ 50) (toBytes 1 33 ++ toBytes 1 kind)) }
theorem witness_keys : recordOk (keyRecord (wKey 0 .empty) 0) 0 = true ∧
    ((vdAfter .keyloadRetire (wKey 0 { KeySlot.empty with kind := 1, gen := 4, owner := 0 })).result,
      keySlot (after .keyloadRetire (wKey 0 { KeySlot.empty with kind := 1, gen := 4, owner := 0 })).sys 0 33) =
      (0, { KeySlot.empty with gen := 4 }) ∧
    ((vdAfter .keyloadImport (wKey 3 .empty)).result, (keySlot (after .keyloadImport (wKey 3 .empty)).sys 0 33).kind) = (0, 3) := by decide +kernel
theorem witness_apertures :
    let s := vdState 1 fun v => { v with arg0 := 2 ^ 63 + 5, arg1 := 7 }
    (after .aperture s).sys.apertures = [(5, 0, 0, 7)] ∧
    (vdAfter .aperture { s with sys := { s.sys with apertures := [(5, 1, 0, 7)] } }).detail = 2 := by decide
theorem witness_device_registers :
    (let s := vdState 0 fun v => { v with busy := true }
     let t := after (.stage2InvalidationComplete 0) s
     let u := { t with sys := { t.sys with msg := { noMsg with party := 1 } } }
     (t.sys.sched.map fun e => (e.1, e.2.2.party), (vdAfter (.stage2InvalidationComplete 0) u).busy)) = ([(41, 1)], false) ∧
    (let s := vdState 0 id
     let s := { s with sys := { setMsix s.sys ⟨0, 7, 9, false, false⟩ with msg := { noMsg with party := 1 } } }
     (after (.stage2InvalidationComplete 0) s).sys.posts) = [.send (.msix 0 0 7 9)] ∧
    (vdAfter (.s2faultClear 0 (2 ^ 48)) (vdState 0 fun v => { v with s2count := 3 })).s2count = 0 ∧
    (vdAfter (.s2faultClear 0 (2 ^ 47)) (vdState 0 fun v => { v with s2count := 3 })).s2count = 3 ∧
    (vdAfter (.chipTableWrite 0 [(1, 2, 3)]) (vdState 0 id)).chipTable = [(1, 2, 3)] ∧
    ((vdAfter (.lockInterfaceRequest 0) (vdState 0 id)).tdi, (vdAfter (.startInterfaceRequest 0) (vdState 0 fun v => { v with tdi := 1 })).tdi,
      (vdAfter (.startInterfaceRequest 0) (vdState 0 id)).tdi) = (1, 2, 0) ∧ (vdAfter .inval2 (vdState 1 id)).busy = false := by decide

/-! ## The control firmware -/

/-- The management block after a change. -/
def mgState (aux : Nat) (f : Mgmt → Mgmt) : State :=
  { w0 with gtc := 40, sys := { w0.sys with mgmt := f w0.sys.mgmt, msg := { noMsg with aux := aux } } }
def mgAfter (i : Instr) (s : State) : Mgmt := (after i s).sys.mgmt
def fwOf (i : Instr) (s : State) : FwState × Nat × Nat := ((mgAfter i s).fwstate, (mgAfter i s).fwresult, (mgAfter i s).fwtick)
/-- FirmwareUpdates (R395, R396): BUSY 1, BADSTATE 3; STAGE empties the slot; an image at FWARG 0 is BADIMAGE 4. -/
theorem witness_firmware_requests :
    (mgAfter .stage (mgState 0 fun m => { m with fwstate := .probation })).fwresult = 1 ∧
    (mgAfter .stage (mgState 0 fun m => { m with fwstate := .staged })).fwresult = 3 ∧ (mgAfter .abort (mgState 0 id)).fwresult = 3 ∧
    fwOf .stage (mgState 0 fun m => { m with slotB := some .none }) = (.staging, 0, 40) ∧
    (mgAfter .stage (mgState 0 fun m => { m with slotB := some .none })).slotB = none ∧
    fwOf .stage (mgState 1 fun m => { m with fwstate := .staging }) = (.idle, 4, 40) := by decide
theorem witness_activate :
    fwOf .activate (mgState 0 fun m => { m with fwstate := .staged }) = (.quiescing, 0, 40) ∧
    (after .activate (mgState 0 fun m => { m with fwstate := .staged })).sys.sched =
      [(41, .quiesceComplete, noMsg), (1600040, .quiesceTimeout, noMsg)] ∧
    fwOf .abort (mgState 0 fun m => { m with fwstate := .staged }) = (.idle, 0, 40) := by decide
theorem witness_quiesce : quiet (mgState 0 id).sys = true ∧
    fwOf .quiesceComplete (mgState 0 fun m => { m with fwstate := .quiescing }) = (.handover, 0, 40) ∧
    (let s := mgState 0 fun m => { m with fwstate := .quiescing }
     fwOf .quiesceComplete { s with sys := setVd s.sys { vdOf s.sys 0 with busy := true } }) = (.quiescing, 0, 0) ∧
    fwOf .quiesceTimeout { mgState 0 fun m => { m with fwstate := .quiescing } with gtc := 1600000 } = (.idle, 8, 1600000) ∧
    fwOf .quiesceTimeout { mgState 0 fun m => { m with fwstate := .quiescing } with gtc := 1599999 } = (.quiescing, 0, 0) := by decide
theorem witness_probation :
    fwOf .newImageStart (mgState 0 fun m => { m with fwstate := .handover, fwtick := 9 }) = (.probation, 0, 9) ∧
    fwOf .firstHeartbeat { mgState 0 fun m => { m with fwstate := .probation } with gtc := 160000000 } = (.idle, 0, 160000000) ∧
    (mgAfter .firstHeartbeat { mgState 0 fun m => { m with fwstate := .probation } with gtc := 160000000 }).active = true ∧
    fwOf .probationTimeout { mgState 0 fun m => { m with fwstate := .probation } with gtc := 160000000 } = (.rollback, 7, 160000000) ∧
    fwOf .probationTimeout { mgState 0 fun m => { m with fwstate := .probation } with gtc := 159999999 } = (.probation, 0, 0) ∧
    fwOf .rollbackRestart (mgState 0 fun m => { m with fwstate := .rollback, fwresult := 7 }) = (.idle, 7, 40) ∧
    (mgAfter .firstHeartbeat (mgState 0 id)).ready = 4 := by decide

/-! ## The host -/

/-- RegisterWrites (R402, R403, R408). -/
theorem test_register_writes :
    (let m := mgAfter (.evsizeWrite 0x27) (mgState 0 fun m => { m with evhead := 3, evtail := 2 })
     (m.evsize, m.evhead, m.evtail)) = (7, 0, 0) ∧
    [3, 5, 2 ^ 32 - 200].map (fun n => (mgAfter (.evtailWrite n) (mgState 0 fun m => { m with evsize := 7, evhead := 3, evtail := 1 })).evtail) =
      [3, 1, 1] ∧
    [0, 1].map (fun n => (mgAfter (.evlostClear n) (mgState 0 fun m => { m with evlost := 4 })).evlost) = [4, 0] ∧
    [31, 63].map (fun n => (mgAfter (.evvecWrite n) (mgState 0 id)).evvec) = [32, 63] := by decide
theorem test_power_writes :
    [1000 * 65536 + 969, 1000 * 65536 + 968].map (fun n => (mgAfter (.thermWrite n) (mgState 0 id)).temerg) = [1520, 968] ∧
    [501, 500].map (fun n => ((mgAfter (.pallocWrite 1 n) (mgState 0 fun m => { m with palloc := m.palloc.setIfInBounds 0 1000 })).palloc[1]?)) =
      [some 0, some 500] ∧
    (vdAfter (.s1rootWrite 0 0xFFFF) (vdState 0 id)).s1root = 0xFFC0 := by decide
theorem witness_register_window :
    mgAfter (.registerWrite 0 0x048 9) (mgState 0 id) = mgAfter (.evsizeWrite 9) (mgState 0 id) ∧
    (after (.registerWrite 0 0x11000 4) (vdState 0 id)).sys.sched = [(40, .stop, { noMsg with obj := 1 })] ∧
    (after (.registerWrite 0 0x020 2) (vdState 0 id)).sys.sched = [(40, .activate, noMsg)] ∧
    (vdAfter (.registerWrite 0 0x10010 77) (vdState 0 id)).arg0 = 77 := by decide
/-- The MSI-X table (R363, R400): vector 2 of function 0 is pending; its unmasking sends it. A read of VDSTATUS, and one of the table. -/
theorem witness_vectors :
    let s := vdState 0 id
    let s := { s with sys := setMsix s.sys ⟨2, 7, 0, true, true⟩ }
    (msixAt (after (.registerWrite 0 (2 ^ 20 + 32) 9) s).sys 0 2).addr = 9 ∧
    (after (.registerWrite 0 (2 ^ 20 + 40) 5) s).sys.posts = [.send (.msix 0 2 7 5)] ∧
    (after (.registerWrite 0 (2 ^ 20 + 40) (2 ^ 32 + 5)) s).sys.posts = [] ∧
    (after (.hostRead 0 (2 ^ 36 + 0x10008) 8 true) s).sys.posts = [.send (.readCompletion 0 (2 ^ 36 + 0x10008) [2, 0, 0, 0, 0, 0, 0, 0] false)] ∧
    (after (.hostRead 0 (2 ^ 36 + 2 ^ 20 + 32) 4 true) s).sys.posts = [.send (.readCompletion 0 (2 ^ 36 + 2 ^ 20 + 32) [7, 0, 0, 0] false)] := by
  decide
/-- HostAndJobQueue (R405): a push with EP is counted; JOBSTAT reads accepted, refused and the last status. -/
theorem witness_jobs :
    (vdAfter (.jobpush 0 5 true) (vdState 0 fun v => { v with jobRefused := 65535 })).jobRefused = 65535 ∧
    hostDeferred (vdState 0 id).sys 0 = false ∧ (vdAfter (.jobpush 0 5 false) (vdState 0 id)).jobPending = 1 ∧
    (after (.jobstatRead 0) (vdState 0 fun v => { v with jobAccepted := 2, jobRefused := 1, jobLast := 10 })).sys.posts =
      [.send (.readCompletion 0 0x10 [2, 0, 0, 0, 1, 0, 10, 0] false)] := by decide
theorem witness_jobs_held :
    let s := vdState 0 id
    let s := { s with sys := { s.sys with sched := [(50, .hostWrite 0 0 [1] false false, { noMsg with aux := 1 }), (60, .jobpush 0 9 false, noMsg)] } }
    hostDeferred s.sys 0 = true ∧ (after (.jobpush 0 5 false) s).sys.sched.length = 3 ∧
    (after (.jobstatRead 0) (vdState 0 fun v => { v with jobPushes := 3, jobPending := 1 })).sys.sched =
      [(41, .jobstatRead 0, { noMsg with aux := 1, gen := 3 })] ∧
    heldBefore { s.sys with msg := { noMsg with aux := 1 } } 0 = false := by decide
/-- A read off the IDE stream of a TDI in RUN (R370); one at an address without a stage-2 leaf, and a write there (R401). -/
theorem witness_host_access :
    let s := vdState 0 fun v => { v with tdi := 2 }
    let t := vdState 0 id
    ((vdAfter (.hostRead 0 64 8 false) s).tdi, (after (.hostRead 0 64 8 false) s).sys.posts) = (3, [.send (.unsupported 0 64)]) ∧
    hostMustWait t.sys 0 = false ∧ xlate2 t 0 64 = none ∧ (after (.hostRead 0 64 8 false) t).sys.posts = [.send (.unsupported 0 64)] ∧
    (vdAfter (.hostWrite 0 65536 [1] false false) t).s2count = 1 ∧ (vdAfter (.hostWrite 0 65536 [1] false false) t).s2gran = 1 := by decide
theorem witness_management_reads :
    (after (.mctpVendorRead 0 0x068) (mgState 0 id)).sys.posts = [.send (.mctp 0 0x068 [32, 0, 0, 0, 0, 0, 0, 0])] ∧
    (after (.spdmRequest 0) (mgState 0 id)).sys.posts.length = 1 := by decide
/-- EventRecords (R379, R403): a ring of 2^7 takes a record; a full one, and one that is off, count it in LOST. -/
theorem witness_events :
    let m := fun (size head : Nat) => (writeEvent (mgState 0 fun m => { m with evsize := size, evhead := head }).sys 40 10 255 5 1 2 3).mgmt
    ((m 7 0).evhead, (m 7 0).evlost, (m 7 128).evhead, (m 7 128).evlost, (m 6 0).evlost, (m 7 0).recent.length) = (1, 0, 128, 1, 1, 1) := by decide

/-! ## Recovery -/

/-- LinksAndRemovals (R381, R382, R384, R385, R389): the spare first, then the port; a stall of at most 32,000 ticks. -/
theorem witness_links :
    (portAt (after (.laneSpare 3 1 40000) (mgState 0 id)).sys 3) =
      { up := false, spare := true, stall := 32040, len := 32000, lost := none } ∧
    (portAt (after (.laneSpare 3 1 100) (after (.laneSpare 3 1 0) (mgState 0 fun m => { m with ready := 1#64 <<< 27 }))).sys 3).stall = 140 ∧
    (mgAfter (.portDown 3 9) (mgState 0 fun m => { m with ready := 1#64 <<< 27 })).ready = 0 ∧
    (portAt (after (.portDown 3 9) (mgState 0 id)).sys 3).lost = some 40 ∧
    (portAt (after (.linkRetrained 3) { after (.portDown 3 9) (mgState 0 id) with gtc := 49 }).sys 3).len = 0 ∧
    (portAt (after (.linkRetrained 3) { after (.portDown 3 9) (mgState 0 id) with gtc := 48 }).sys 3).len = 9 := by decide
theorem witness_removals :
    (mgAfter (.presenceNotice 5) (mgState 0 id)).removed = [(5, 40)] ∧ (mgAfter (.presenceNotice 0) (mgState 0 id)).removed = [] ∧
    (mgAfter (.pathDownExpiry 5) (mgState 1 id)).removed = [(5, 40)] ∧
    (mgAfter (.pathDownExpiry 5) (mgState 1 fun m => { m with ready := 64 })).removed = [] ∧
    ((mgAfter (.hostRemoval 1) (mgState 0 id)).hostGone, (after (.hostLinkRecovery 32000) (mgState 0 id)).sys.sched.length,
      (after (.hostLinkRecovery 32001) (mgState 0 id)).sys.sched.map fun e => (e.1, e.2.1)) = (true, 0, [(32041, .hostRemoval 2)]) ∧
    (vdAfter (.hostRemoval 1) (vdState 0 fun v => { v with tdi := 1 })).tdi = 3 := by decide
/-- ThermalAndPower (R390 to R392, R397). -/
theorem witness_thermal :
    [1519, 1520].map (fun n => (mgAfter (.thermalEmergency 1 n) (mgState 0 id)).emergency) = [false, true] ∧
    [1489, 1488].map (fun n => (mgAfter (.thermalClear 1 n) (mgState 0 fun m => { m with emergency := true })).emergency) = [true, false] ∧
    [1679, 1680].map (fun n => (mgAfter (.thermalCritical 1 n) (mgState 0 id)).power) = [true, false] := by decide
theorem witness_readiness :
    (mgAfter (.functionReady 5) (mgState 0 id)).ready = 32 ∧ (mgAfter (.functionReady 12) (mgState 0 id)).ready = 0 ∧
    (portAt (after (.functionReady 47) (mgState 0 id)).sys 23).up = true ∧ (mgAfter (.functionReady 48) (mgState 0 id)).ready = 0 ∧
    ((mgAfter (.readyLost 5) (mgState 0 fun m => { m with ready := 32 })).ready,
      (vdAfter (.readyLost 5) (mgState 0 fun m => { m with ready := 32 })).st) = (0, .resetting) ∧
    (mgAfter (.readyLost 24) (mgState 0 fun m => { m with ready := 1#64 <<< 24 })).ready = 0 := by decide +kernel
theorem witness_power :
    ((mgAfter .powerOn (mgState 0 fun m => { m with power := false, ready := 3 })).ready, (mgAfter .powerLoss (mgState 0 id)).power,
      (after .powerLoss (mgState 0 id)).sys.vds) = (0, false, []) ∧ (mgAfter .powerOn (mgState 0 fun m => { m with ready := 3 })).ready = 3 ∧
    (after .powerLoss (mgState 0 fun m => { m with power := false })).sys.vds.length = 1 := by decide
/-! ## Further clauses of the statements -/

/-- Landings into a control register, into the scratchpad and of a done row, which only leaves (LandingWrites). -/
def wLands (l : Landing → Landing) : State :=
  withCore wLand fun c => { c with landings := c.landings.map l }
theorem witness_landing_kinds :
    (me (after (.rowLanding 0 1) (wLands fun l => { l with tgt := .csr, reg := 0x009, data := [77] })).sys).csrs.xdue = 77 ∧
    ((after (.rowLanding 0 1) (wLands fun l => { l with tgt := .spad, addr := 0x3FC00100, enable := 1, data := [5] })).myCore.snat 0x100 4) = 5 ∧
    (after (.rowLanding 0 1) (wLands fun l => { l with done := true })).myCore.vec 3 0 = 100 := by decide +kernel
/-- ThermalAndPower (R385, R389, R392): READY bit 7 brings the host back; the loss of bit 6 counts down to the removal of each chip, its return
stops that. -/
theorem witness_ready_paths :
    (mgAfter (.functionReady 7) (mgState 0 fun m => { m with hostGone := true })).hostGone = false ∧
    (let s := mgState 0 id
     let s := { s with sys := { s.sys with sched := [(90, .pathDownExpiry 5, { noMsg with aux := 1 }), (95, .pathDownExpiry 5, noMsg)] } }
     (after (.functionReady 6) s).sys.sched) = [(95, .pathDownExpiry 5, noMsg)] := by decide +kernel
/-- StopAndContinue (R370): CONTINUE of a device whose TDI is in ERROR holds its domains back. -/
theorem witness_continue_error :
    let s := vdState 1 fun v => { v with st := .stopped, stoppedBit := true, busy := true, tdi := 3 }
    let s := { s with sys := setDom s.sys { s.myDom with st := .frozen, stopHold := true } }
    (vdAfter .continueReq s).st = .running ∧ (after .continueReq s).myDom.stopHold = true := by decide
/-- RegisterWrites (R370, R401): a write off the IDE stream of a function whose TDI is in RUN is refused and puts the TDI in ERROR. -/
theorem witness_register_refused :
    let s := vdState 0 fun v => { v with tdi := 2 }
    let s := { s with sys := { s.sys with msg := { noMsg with ide := false } } }
    (vdAfter (.registerWrite 0 0x048 9) s).tdi = 3 ∧ (mgAfter (.registerWrite 0 0x048 9) s).evsize = s.sys.mgmt.evsize ∧
    (after (.registerWrite 0 0x048 9) s).sys.posts = [.send (.unsupported 0 (2 ^ 36 + 0x48))] := by decide
/-- HandlerModeWords (R91, R330): a collwait's fence keeps a handler's operation open while a collective of the core is under way. -/
theorem witness_handler_fence :
    let ok : Landing := { lid := 1, due := 0, urole := 0, useq := 0, tgt := .scalar, reg := 9, row := 0, addr := 0, enable := 1, data := [0], banks := 0
                          ticket := 0, byTick := 0, strm := false, last := true }
    let s := withRole wTrap fun r => { r with hop := some ⟨5, [ok], true⟩ }
    let held := withCore { s with sys := setObj s.sys (anObj (.coll aColl)) } fun c => { c with colls := [⟨(3, 5, 0), Wait.none⟩] }
    ((roleOf (after (.handlerBackendComplete 0 0) held).sys 0 0).hop.map HandlerOp.ready) = some 6 ∧
    (roleOf (after (.handlerBackendComplete 0 0) s).sys 0 0).hop = none ∧
    ((roleOf (after (.handlerBackendComplete 0 0) { held with gtc := 4 }).sys 0 0).hop.map HandlerOp.ready) = some 5 := by decide +kernel
/-- SyncIssue (R300 step 2): a deadline of 0, a reserved bit of w and a party of 64 are OPERAND 17, after the type check 16. -/
theorem witness_sync_operands :
    [(1, 3, 0), (1 + 2 ^ 17, 3, 100), (64, 3, 100), (1, 4, 0)].map (fun p : Nat × Nat × Nat =>
      (opOf (.arrive 8 9 10) { sets (serving (.barrier aBarrier) 1 5 100 0) [(8, p.1), (9, p.2.1), (10, p.2.2)] with gtc := 0 }).map
        fun op => op.check ()) = [some (some (.trap 17 0)), some (some (.trap 17 0)), some (some (.trap 17 0)), some (some (.trap 16 0))] := by decide
/-- The events that a coll, a qproxy and a launch send (R307, R308, R332): home 6 ticks away, Tulle 20. -/
def wSends (b : Body) (w dl : Nat) : State := { sets (serving b 0 0 0 0) [(8, w), (9, 3), (10, dl)] with gtc := 0 }
def sent (i : Instr) (s : State) : Option (Option Stop) × List (Nat × Instr × Nat) :=
  ((opOf i s).map fun op => op.check (), ((opOf i s).map fun op => (op.fire s.sys).sched.map fun e => (e.1, e.2.1, e.2.2.party)).getD [])
theorem witness_sync_sends :
    sent (.coll 8 9 10) (wSends (.coll aColl) (1 + 5 * 2 ^ 32) 100) = (some none, [(6, .homeColl, 1)]) ∧
    sent (.qproxy 8 9 10) (wSends (.queue aQueue) 1 9) = (some none, [(20, .shadowQproxy, 1)]) ∧
    sent (.launch 8 9 10) (wSends (.counter aCounter) 256 64) = (some none, [(20, .homeLaunch, 0)]) := by decide +kernel
/-- CounterEvents (R291, R311, R363): the last completion raises its vector, or holds a masked one pending; tells its parent; ends its launch. -/
def wVector (mask : Bool) (k : Counter) : State :=
  let s := serving (.counter k) 0 0 0 0
  { s with sys := setMsix s.sys ⟨2, 7, 9, mask, false⟩ }
theorem witness_counter_vector :
    (after (.counterCompletion 3 1) (wVector false { aCounter with msix := 2 })).sys.posts = [.send (.msix 0 2 7 9)] ∧
    (msixAt (after (.counterCompletion 3 1) (wVector true { aCounter with msix := 2 })).sys 0 2).pend = true ∧
    (after (.counterCompletion 3 1) (wVector false { aCounter with hasParent := true, parent := 11, ppos := 4 })).sys.sched =
      [(40, .counterCompletion 11 4, noMsg)] := by decide +kernel
theorem witness_counter_ends :
    let s := serving (.counter aCounter) 0 0 0 0
    let s := { s with sys := setDom s.sys { s.myDom with control := false, launch := { s.myDom.launch with counter := 3 } } }
    (after (.counterCompletion 3 1) s).sys.doms.map (fun d => (d.st, d.endStatus, d.f)) = [(.ended, 2, 40)] ∧
    (s.sys.doms.map Domain.id).Nodup := by decide +kernel
/-- ProxyEvents (R307): the home refuses a proxied entry of a full queue, and the shadow notes it; a closing push of an open entry is accepted. -/
theorem witness_proxy_home :
    let from4 := fun (q : Queue) (party gen aux : Nat) =>
      let s := serving (.queue q) party gen 9 aux
      { s with sys := { setShadow s.sys shadow0 with msg := { s.sys.msg with role := 4, ticket := 0 } } }
    (shadowOf (after .homeQpush (from4 { aQueue with cap := 1 } 0 0 0)).sys 0 3).refused = [(0, 1)] ∧
    ((objAfter .homeQpush (from4 aQueue 0 0 0)).map fun o => match o.body with | .queue q => q.slots.length | _ => 9) = some 2 ∧
    (after .homeQpush (from4 aQueue 0 0 0)).sys.answers = [] := by decide +kernel
/-- Locks (R186, R287): the effect waits for a covered transfer that is not visible; the tick at which none is left is the release's. -/
theorem witness_release_effect :
    let s := serving (.lock { freeLock with reltick := 90, covers := [1] }) 0 0 0 0
    let out := { s with sys := { s.sys with xfers := [anXfer] } }
    (after (.lockReleaseEffect 3) out).sys.sched = [(41, .lockReleaseEffect 3, noMsg)] ∧
    (after (.lockReleaseEffect 3) s).sys.sched = [(40, .lockReleaseEffect 3, noMsg)] ∧
    (objAfter (.lockReleaseEffect 3) s).map Obj.body = some (.lock { freeLock with reltick := 40 }) := by decide +kernel
/-- TransferAdmission (R175, R177, R162): xdrain of a channel with an error takes it; a reserved bit is OPERAND; a fence issued while its named
class is out raises the early-wait fault. -/
def wErrors (a : Nat) : State :=
  sets (withCore w0 fun c => { c with chans := c.chans.map fun h => { h with errors := [(5, 3)] } }) [(9, a)]
def checked (i : Instr) (s : State) : Option (Option Stop) := (opOf i s).map fun op => op.check ()
theorem witness_drain :
    ((opOf (.xdrain 8 9 10) (wErrors 0x101)).map fun op => (op.issue ()).1.map fun l => (l.reg, l.data)) = some [(8, [5 + 3 * 2 ^ 16])] ∧
    ((opOf (.xdrain 8 9 10) (wErrors 0x101)).map fun op => [0, 1].map fun c => ((coreOf (op.fire (wErrors 0x101).sys) 0).chanAt c).errors) =
      some [[], [(5, 3)]] ∧
    checked (.xdrain 8 9 10) (wErrors 0x101) = some none ∧ checked (.xdrain 8 9 10) (wErrors 0x200) = some (some (.trap 17 0)) := by decide +kernel
def wFence : State := { wXfer anXfer with gtc := 2 }
theorem witness_fences :
    [Instr.xfence 2 1, .xfence 8 1, .sfence 1].map (fun i => checked i wFence) =
      [some (some (.fault 4)), some none, some (some (.fault 4))] ∧
    ((opOf (.xfence 2 2) wFence).map fun op => (coreOf (op.fire wFence.sys) 0).toXfr.xids) = some [1] := by decide +kernel
/-- Resetting (R399): an FLR of the PF resets every device of the chip and clears the result of the firmware block. -/
theorem witness_flr_pf :
    let s := mgState 0 fun m => { m with fwresult := 7, evlost := 3 }
    ((vdAfter (.flr 0) s).st, (mgAfter (.flr 0) s).fwresult, (mgAfter (.flr 0) s).evlost) = (.resetting, 0, 0) := by decide +kernel
/-- The post of an event record and its vector (EventRecords; R379, R403): the first unread record raises EVVEC, the next does not. -/
theorem witness_event_vector :
    let s := mgState 0 fun m => { m with evsize := 7, evhead := 129, evtail := 129, evvec := 33, evbase := 4096 }
    let s := { s with sys := setMsix s.sys ⟨33, 7, 9, false, false⟩ }
    let one := writeEvent s.sys 40 10 255 5 1 2 3
    let two := writeEvent one 40 10 255 5 1 2 3
    (one.posts, two.posts.length) = ([.write (physKey 0 (2 ^ 50 + 4096 + 32)) 0 0 (2 ^ 50 + 4096 + 32) (eventBytes 40 10 255 5 1 2 3) false true false,
      .send (.msix 0 33 7 9)], 3) := by decide +kernel

/-! ## The whole machine -/

/-- StepKeepsInv: a state of the invariant that steps. -/
theorem witness_inv : Memory.wf w0.mem = true ∧ (stepped w0).gtc = 1 := by decide
/-- EncodingsRoundTrip: a well-formed word at the ends of its fields. -/
theorem witness_round_trip : wf (.vfma 63 0 63) = true ∧ encode (.vfma 63 0 63) ≠ 0 ∧ decodeTableWord 32 (encode (.vfma 63 0 63)) = some (.vfma 63 0 63) ∧
    wf (.sfence 3) = true ∧ encode (.sfence 3) ≠ 0 := by decide

end Sys2Proof.Tests
end

/-! PROOFS. What the steps of the whole machine leave alone: every instruction and event but the tick answers a next state with the
same GTC and memory; a tick stores what was posted; so every step keeps the canonical form of the memory. -/

namespace Sys2Proof.Machine

/-! ## Every instruction and event but the tick works on the machine beside GTC and memory -/

/-- A meaning answers a next state, in every state, and leaves GTC and the memory as they are. -/
def KeepsGtcMem (f : State → Result) : Prop := ∀ s, ∃ y, f s = .next { s with sys := y }

theorem lift_keepsGtcMem (f : State → Sys) : KeepsGtcMem (lift f) := fun s => ⟨f s, rfl⟩

/-- BACKEND_PUSH lifts what the word's encoding, and then its row of the back end's table, choose. -/
theorem execBackendPush_keepsGtcMem (w : Nat) : KeepsGtcMem (execBackendPush w) := by
  unfold execBackendPush
  split
  · exact lift_keepsGtcMem _
  · split
    · exact lift_keepsGtcMem _
    · split <;> exact lift_keepsGtcMem _

/-- KEYLOAD_IMPORT is a request of the device or one of a tenant's session. -/
theorem execKeyloadImport_keepsGtcMem : KeepsGtcMem execKeyloadImport := by
  intro s
  unfold execKeyloadImport
  split
  · exact lift_keepsGtcMem _ s
  · exact lift_keepsGtcMem _ s

/-- Beside the tick each constructor's meaning is lifted from the machine beside GTC and memory; only the two above choose between
several such meanings. -/
theorem exec_keepsGtcMem {i : Instr} (hi : i ≠ .gtcTick) : KeepsGtcMem (exec i) := by
  cases i with
  | gtcTick => exact absurd rfl hi
  | backendPush w => exact execBackendPush_keepsGtcMem w
  | keyloadImport => exact execKeyloadImport_keepsGtcMem
  | _ => exact lift_keepsGtcMem _

/-! ## The tick -/

/-- The machine at the start of a tick: what was posted has left for the memory, messages are out, answers that nothing
awaits are gone, and the sensors are read. -/
def tickOpened (s : State) : Sys :=
  { s.sys with
    posts := [], outbox := s.sys.outbox ++ sentOf s.sys.posts, answers := awaited s.sys
    mgmt := sensorTick (s.gtc + 1) { s.sys.mgmt with evposted := 0 } }

/-- After the links that are down have delayed their traffic. -/
def tickStalled (s : State) : Sys := stallTick s (tickOpened s)

/-- After the running domains have had their underruns. -/
def tickUnderrun (s : State) : Sys := s.sys.doms.foldl (underruns (s.gtc + 1)) (tickStalled s)

/-- After the corrections counted so far have been recorded. -/
def tickRecorded (s : State) : Sys := flushCorrected (tickUnderrun s) (s.gtc + 1)

/-- The state after a tick. -/
def ticked (s : State) : State :=
  { gtc := s.gtc + 1, mem := drainPosts s.mem s.sys.posts
    sys := { tickRecorded s with agenda := [.due false, .cycle, .due true] } }

/-- The stages above are those of GTC_TICK. -/
theorem exec_gtcTick (s : State) : exec .gtcTick s = .next (ticked s) := rfl

/-! ## The canonical form of the memory -/

/-- The canonical form is one of the memory alone. -/
theorem State.Inv.of_mem_eq {s t : State} (hs : s.Inv) (h : t.mem = s.mem) : t.Inv := by
  unfold State.Inv
  rw [h]
  exact hs

theorem exec_keepsInv {i : Instr} {s t : State} (hs : s.Inv) (h : exec i s = .next t) : t.Inv := by
  by_cases hi : i = .gtcTick
  · subst hi
    rw [exec_gtcTick] at h
    cases h
    exact drainPosts_wf s.mem s.sys.posts hs
  · obtain ⟨y, hy⟩ := exec_keepsGtcMem hi s
    rw [hy] at h
    cases h
    exact hs

/-- The state that an act starts from or goes to. -/
def Act.state : Act → State
  | .run _ s => s
  | .go s => s

theorem countScalars_mem (s : State) (core role : Nat) (i : Instr) : (countScalars s core role i).mem = s.mem := by
  unfold countScalars
  split <;> rfl

theorem frontAct_mem (s : State) (core role : Nat) : (frontAct s core role).state.mem = s.mem := by
  unfold frontAct
  dsimp only
  split
  · rfl
  · split
    · rfl
    · split
      · split
        · rfl
        · exact countScalars_mem ..
      · rfl

theorem dueAct_mem (s : State) (late : Bool) : (dueAct s late).state.mem = s.mem := by
  unfold dueAct
  split <;> rfl

/-- Whatever acts next acts on the memory as it stands. -/
theorem nextAct_mem (s : State) : (nextAct s).state.mem = s.mem := by
  unfold nextAct
  split
  · rfl
  · split
    · rfl
    · exact dueAct_mem ..
    · exact frontAct_mem ..
    · rfl
    · dsimp only
      split <;> rfl
    · rfl

/-- A step that answers a next state runs an instruction or event, or goes there at once. -/
theorem step_next {s t : State} (h : step s = .next t) :
    (∃ i r, nextAct s = .run i r ∧ exec i r = .next t) ∨ nextAct s = .go t := by
  unfold step at h
  split at h
  · exact absurd h (by simp)
  · split at h
    · exact .inl ⟨_, _, ‹_›, h⟩
    · cases h
      exact .inr ‹_›

/-! ## The statements of the whole machine -/

/-- Settles O60: but for the tick every meaning is lifted from the machine beside GTC and memory; the tick adds one to GTC. -/
theorem everyInstructionCompletes : Obligations.EveryInstructionCompletes := by
  intro i s
  by_cases hi : i = .gtcTick
  · subst hi
    exact ⟨ticked s, exec_gtcTick s, fun h => absurd rfl h, Nat.le_succ s.gtc⟩
  · obtain ⟨y, hy⟩ := exec_keepsGtcMem hi s
    exact ⟨_, hy, fun _ => ⟨rfl, rfl⟩, le_refl s.gtc⟩

/-- Settles O57: what acts next acts on the memory as it stands, and only the tick changes the memory, by storing posts, each of
which keeps the canonical form. -/
theorem stepKeepsInv : Obligations.StepKeepsInv := by
  intro s t hs h
  have hmem := nextAct_mem s
  obtain ⟨i, r, hact, hexec⟩ | hact := step_next h
  · rw [hact] at hmem
    exact exec_keepsInv (hs.of_mem_eq hmem) hexec
  · rw [hact] at hmem
    exact hs.of_mem_eq hmem

end Sys2Proof.Machine

/-! PROOFS. The tick in its stages (`ticked`): what a link that is down delays (R382 to R384), which roles underrun (R70), and what
the recording of corrections leaves alone. -/

namespace Sys2Proof.Machine

/-! ## What a link that is down delays -/

/-- When the link to a far end is down: the host's while it stalls; another chip's while GTC is out of step, the port is not up, or
one of the two ports of the route stalls. -/
theorem farDown_iff (y : Sys) (g far : Nat) : farDown y g far = true ↔
    if far = hostEnd then g < y.mgmt.hostStall
    else y.mgmt.ready.getLsbD 6 = false ∨ (portAt y (viaPort y far)).up = false ∨
      g < (portAt y (viaPort y far)).stall ∨ g < (portAt y (Config.routePort far % 24)).stall := by
  unfold farDown
  split
  · exact decide_eq_true_iff
  · simp only [linkDown, Bool.or_eq_true, Bool.not_eq_true', decide_eq_true_eq, lt_max_iff]
    tauto

/-- An event that is due in a tick and would cross a link that is down in it. -/
def HeldBack (y : Sys) (g : Nat) (e : Nat × Instr × HomeMsg) : Prop :=
  e.1 ≤ g ∧ ∃ far, eventFar y e.2.1 e.2.2 = some far ∧ farDown y g far = true

theorem delayEvent_of_heldBack {y : Sys} {g : Nat} {e : Nat × Instr × HomeMsg} (h : HeldBack y g e) :
    delayEvent y g e = (g + 1, e.2) := by
  obtain ⟨hdue, far, hfar, hdown⟩ := h
  simp [delayEvent, hdue, hfar, hdown]

theorem delayEvent_of_not_heldBack {y : Sys} {g : Nat} {e : Nat × Instr × HomeMsg} (h : ¬ HeldBack y g e) :
    delayEvent y g e = e := by
  unfold delayEvent
  refine if_neg fun hc => h ?_
  simpa [HeldBack, Option.any_eq_true] using hc

/-- A transfer that has still to cross a link that is shut. -/
def ShutOut (s : State) (x : Xfer) : Prop :=
  x.stage < 3 ∧ x.kind ≠ 5 ∧ ∃ far ∈ xferEnds s x, farShut s (vdKeyOf s.sys x.core) far = true

/-- A transfer is late, given those found late before it: it is shut out itself, its fence waits for one of them, or one of them is
before it in its channel. -/
def isDelayed (s : State) (l : List Nat) (x : Xfer) : Bool :=
  x.stage < 3 && x.kind != 5 && ((xferEnds s x).any (farShut s (vdKeyOf s.sys x.core)) || x.after.xids.any l.contains ||
    s.sys.xfers.any fun t => l.contains t.xid && t.core == x.core && t.chan == x.chan)

/-- The late ones with a transfer added if it is late. -/
def noteDelayed (s : State) (l : List Nat) (x : Xfer) : List Nat := if isDelayed s l x then x.xid :: l else l

theorem delayedXfers_eq (s : State) : delayedXfers s = s.sys.xfers.foldl (noteDelayed s) [] := rfl

theorem subset_noteDelayed (s : State) (l : List Nat) (x : Xfer) : l ⊆ noteDelayed s l x := by
  unfold noteDelayed
  split
  · exact List.subset_cons_self ..
  · exact List.Subset.refl l

theorem mem_noteDelayed {s : State} {x : Xfer} (h : ShutOut s x) (l : List Nat) : x.xid ∈ noteDelayed s l x := by
  obtain ⟨hstage, hkind, far, hfar, hshut⟩ := h
  have : isDelayed s l x = true := by
    have hany : (xferEnds s x).any (farShut s (vdKeyOf s.sys x.core)) = true := List.any_eq_true.2 ⟨far, hfar, hshut⟩
    simp [isDelayed, hstage, hkind, hany]
  simp [noteDelayed, this]

/-- A transfer that is shut out is late: once noted it stays so. -/
theorem mem_delayedXfers {s : State} {x : Xfer} (hx : x ∈ s.sys.xfers) (h : ShutOut s x) : x.xid ∈ delayedXfers s := by
  rw [delayedXfers_eq]
  obtain ⟨before, behind, hsplit⟩ := List.append_of_mem hx
  rw [hsplit, List.foldl_append, List.foldl_cons]
  exact List.foldlRecOn behind _ (motive := (x.xid ∈ ·)) (mem_noteDelayed h _)
    fun l hl z _ => subset_noteDelayed s l z hl

/-- While no transfer is shut out there is none that the others could be behind or wait for. -/
theorem delayedXfers_eq_nil {s : State} (h : ∀ x ∈ s.sys.xfers, ¬ ShutOut s x) : delayedXfers s = [] := by
  rw [delayedXfers_eq]
  refine List.foldlRecOn _ _ (motive := (· = [])) rfl fun l hl x hx => ?_
  subst hl
  refine if_neg fun hd => h x hx ?_
  simpa [isDelayed, ShutOut, and_assoc] using hd

theorem stallTick_of_clear {s : State} (y : Sys) (h : anyStall s.sys (s.gtc + 1) = false) : stallTick s y = y := by
  simp [stallTick, h]

theorem stallTick_of_stall {s : State} (y : Sys) (h : anyStall s.sys (s.gtc + 1) = true) :
    stallTick s y = { y with
      sched := y.sched.map (delayEvent s.sys (s.gtc + 1))
      answers := y.answers.map (delayAnswer s.sys (s.gtc + 1))
      xfers := y.xfers.map fun x => if (delayedXfers { s with gtc := s.gtc + 1 }).contains x.xid then x.later else x
      objs := y.objs.map (delayObj { s with gtc := s.gtc + 1 } (delayedXfers { s with gtc := s.gtc + 1 })) } := by
  simp [stallTick, h]

/-- A stall changes what is scheduled, answers, transfers and objects. -/
theorem stallTick_frame (s : State) (y : Sys) :
    ∃ sc an xs os, stallTick s y = { y with sched := sc, answers := an, xfers := xs, objs := os } := by
  cases h : anyStall s.sys (s.gtc + 1) with
  | false => exact ⟨_, _, _, _, stallTick_of_clear y h⟩
  | true => exact ⟨_, _, _, _, stallTick_of_stall y h⟩

/-! ## Underruns -/

/-- A role outside handler mode that has let its next stamp go by at the start of a domain's cycle (R70). -/
def letsStampBy (g : Nat) (d : Domain) (r : RoleSt) : Bool := r.armed && !r.handler && decide (r.ns ≤ (d.ttc g : Int) + 1)

/-- The underrun of a role: TRAPPC is its last back-end word. -/
def underrunCause (r : RoleSt) : Cause := domainCause 1 r.pWord 255

/-- A place at which a tick looks for an underrun: a domain, one of its cores and one of the core's roles. -/
abbrev Watch := Domain × Nat × Nat

/-- The underrun at one place, if there is one. -/
def underrunAt (g : Nat) (y : Sys) (t : Watch) : Sys :=
  if letsStampBy g t.1 (roleOf y t.2.1 t.2.2) then takeCause y g t.2.1 t.2.2 (underrunCause (roleOf y t.2.1 t.2.2)) else y

/-- The places of a domain that runs, in the order in which a tick comes to them. -/
def watches (d : Domain) : List Watch :=
  if d.st = .run then d.cores.flatMap fun c => (List.range 3).map fun q => (d, c, q) else []

theorem mem_watches {d e : Domain} {c q : Nat} : (e, c, q) ∈ watches d ↔ e = d ∧ d.st = .run ∧ c ∈ d.cores ∧ q < 3 := by
  unfold watches
  split
  · simp; tauto
  · simp_all

theorem underruns_eq_foldl (g : Nat) (y : Sys) (d : Domain) : underruns g y d = (watches d).foldl (underrunAt g) y := by
  unfold underruns watches
  by_cases h : d.st = .run
  · simp only [h, bne_self_eq_false, Bool.false_eq_true, if_false, if_true, List.foldl_flatMap, List.foldl_map]
    rfl
  · simp [h]

/-- All underruns of a tick are those of one list of places. -/
theorem foldl_underruns_eq (g : Nat) (ds : List Domain) (y : Sys) :
    ds.foldl (underruns g) y = (ds.flatMap watches).foldl (underrunAt g) y := by
  rw [List.foldl_flatMap]
  congr 1
  funext y d
  exact underruns_eq_foldl g y d

/-- An underrun changes cores and domains. -/
theorem underrunAt_frame (g : Nat) (y : Sys) (t : Watch) : ∃ cs ds, underrunAt g y t = { y with cores := cs, doms := ds } := by
  unfold underrunAt
  split <;> exact ⟨_, _, rfl⟩

theorem foldl_underrunAt_frame (g : Nat) (l : List Watch) (y : Sys) :
    ∃ cs ds, l.foldl (underrunAt g) y = { y with cores := cs, doms := ds } := by
  refine List.foldlRecOn l _ (motive := fun z : Sys => ∃ cs ds, z = { y with cores := cs, doms := ds })
    ⟨y.cores, y.doms, rfl⟩ fun z hz t _ => ?_
  obtain ⟨cs, ds, rfl⟩ := hz
  exact underrunAt_frame g _ t

/-- A place without an underrun at a role leaves the role alone: it is another role's, or the role's stamp has not gone by. -/
theorem roleOf_underrunAt_of_not {g : Nat} {y : Sys} {t : Watch} {c q : Nat} (ht : t.2.2 < 3) (hq : q < 3)
    (h : t.2 = (c, q) → letsStampBy g t.1 (roleOf y c q) = false) : roleOf (underrunAt g y t) c q = roleOf y c q := by
  obtain ⟨d, core, role⟩ := t
  unfold underrunAt
  split
  next hlate =>
    refine takeCause_other _ _ _ _ _ _ _ ht hq ?_
    by_contra hsame
    obtain ⟨rfl, rfl⟩ : c = core ∧ q = role := by simpa using hsame
    exact absurd hlate (by simp [h rfl])
  next => rfl

/-- The role at a place with an underrun takes it. -/
theorem roleOf_underrunAt_of_late {g : Nat} {y : Sys} {d : Domain} {c q : Nat} (hq : q < 3)
    (h : letsStampBy g d (roleOf y c q) = true) :
    roleOf (underrunAt g y (d, c, q)) c q = (roleOf y c q).enter g (underrunCause (roleOf y c q)) := by
  unfold underrunAt
  rw [if_pos h]
  exact takeCause_role _ _ _ _ _ hq

/-- A role whose stamp no domain finds gone by keeps its state. -/
theorem roleOf_foldl_underrunAt_of_not {g : Nat} {l : List Watch} {y : Sys} {c q : Nat} (hl : ∀ t ∈ l, t.2.2 < 3) (hq : q < 3)
    (h : ∀ t ∈ l, t.2 = (c, q) → letsStampBy g t.1 (roleOf y c q) = false) :
    roleOf (l.foldl (underrunAt g) y) c q = roleOf y c q := by
  refine List.foldlRecOn l _ (motive := fun z => roleOf z c q = roleOf y c q) rfl fun z hz t ht => ?_
  rw [← hz] at h ⊢
  exact roleOf_underrunAt_of_not (hl t ht) hq (h t ht)

/-- A role that enters handler mode lets no further stamp by. -/
theorem letsStampBy_enter (g : Nat) (d : Domain) {r : RoleSt} (k : Cause) (h : r.aside = none) :
    letsStampBy g d (r.enter g k) = false := by
  simp [letsStampBy, RoleSt.enter, h]

/-- A role whose stamp some domain finds gone by takes its underrun once. -/
theorem roleOf_foldl_underrunAt_of_late {g : Nat} {l : List Watch} {y : Sys} {d : Domain} {c q : Nat} (hl : ∀ t ∈ l, t.2.2 < 3)
    (hq : q < 3) (hmem : (d, c, q) ∈ l) (hlate : letsStampBy g d (roleOf y c q) = true) (ha : (roleOf y c q).aside = none) :
    roleOf (l.foldl (underrunAt g) y) c q = (roleOf y c q).enter g (underrunCause (roleOf y c q)) := by
  induction l generalizing y with
  | nil => exact absurd hmem List.not_mem_nil
  | cons t l ih =>
    have hl' : ∀ t ∈ l, t.2.2 < 3 := fun u hu => hl u (List.mem_cons_of_mem t hu)
    rw [List.foldl_cons]
    by_cases hnow : t.2 = (c, q) ∧ letsStampBy g t.1 (roleOf y c q) = true
    · obtain ⟨e, rest⟩ := t
      obtain ⟨rfl, he⟩ := hnow
      have henter := roleOf_underrunAt_of_late hq he
      rw [roleOf_foldl_underrunAt_of_not hl' hq, henter]
      intro u _ _
      rw [henter]
      exact letsStampBy_enter g u.1 _ ha
    · have hkeep : roleOf (underrunAt g y t) c q = roleOf y c q :=
        roleOf_underrunAt_of_not (hl t List.mem_cons_self) hq fun ht => by simpa [ht] using hnow
      have hmem' : (d, c, q) ∈ l := (List.mem_cons.1 hmem).resolve_left fun e => hnow ⟨by rw [← e], by rw [← e]; exact hlate⟩
      rw [ih hl' hmem' (by rwa [hkeep]) (by rwa [hkeep]), hkeep]

theorem trapelem_underrunCause (r : RoleSt) : (underrunCause r).trapelem = BitVec.ofNat 64 (0xFF * 65536 + 1) := rfl

/-- What a role that takes an underrun outside handler mode becomes (R127, R128). -/
theorem enter_underrunCause {r : RoleSt} (g : Nat) (h : r.aside = none) :
    (r.enter g (underrunCause r)).handler = true ∧ (r.enter g (underrunCause r)).trapcause = 4 ∧
    (r.enter g (underrunCause r)).trapelem = BitVec.ofNat 64 (0xFF * 65536 + 1) ∧
    (r.enter g (underrunCause r)).trappc = r.pWord := by
  rw [← trapelem_underrunCause r]
  unfold RoleSt.enter
  rw [h]
  exact ⟨rfl, rfl, rfl, rfl⟩

/-! ## The recording of corrections -/

/-- A machine after event records were written, corrections recorded and vectors raised: cores, virtual devices and traffic are as
before, and so are the sensors. -/
def Recorded (y z : Sys) : Prop :=
  ∃ m p c, z = { y with mgmt := m, posts := p, corrected := c } ∧ m.sensed = y.mgmt.sensed

theorem Recorded.refl (y : Sys) : Recorded y y := ⟨_, _, _, rfl, rfl⟩

theorem Recorded.trans {x y z : Sys} (h : Recorded x y) (h' : Recorded y z) : Recorded x z := by
  obtain ⟨m, p, c, rfl, hm⟩ := h
  obtain ⟨m', p', c', rfl, hm'⟩ := h'
  exact ⟨m', p', c', rfl, hm'.trans hm⟩

theorem Recorded.raiseMsix {y z : Sys} (h : Recorded y z) (fn vec : Nat) : Recorded y (raiseMsix z fn vec) := by
  obtain ⟨v, l, hv⟩ := raiseMsix_frame z fn vec
  rw [hv]
  exact h.trans ⟨_, _, z.corrected, rfl, rfl⟩

theorem writeEvent_recorded (y : Sys) (g cls vd source detail addr value : Nat) :
    Recorded y (writeEvent y g cls vd source detail addr value) := by
  unfold writeEvent
  dsimp only
  split
  · split
    · apply Recorded.raiseMsix
      exact ⟨_, _, y.corrected, rfl, rfl⟩
    · exact ⟨_, _, y.corrected, rfl, rfl⟩
  · exact ⟨_, y.posts, y.corrected, rfl, rfl⟩

theorem flushCorrected_recorded (y : Sys) (g : Nat) : Recorded y (flushCorrected y g) := by
  unfold flushCorrected
  refine List.foldlRecOn _ _ (motive := Recorded y) (Recorded.refl y) fun z hz c _ => ?_
  split
  · exact hz
  · exact (hz.trans (writeEvent_recorded z ..)).trans ⟨_, _, _, rfl, rfl⟩

/-- Nothing is recorded while nothing is counted. -/
theorem flushCorrected_of_none {y : Sys} (g : Nat) (h : ∀ c ∈ y.corrected, c.count = 0) : flushCorrected y g = y := by
  unfold flushCorrected
  refine List.foldlRecOn _ _ (motive := (· = y)) rfl fun z hz c hc => ?_
  rw [hz]
  simp [h c hc]

end Sys2Proof.Machine

/-! PROOFS. What a tick has done to each part of the machine, and the statement about it. -/

namespace Sys2Proof.Machine

/-! ## The stages of a tick, part by part -/

theorem tickStalled_frame (s : State) :
    ∃ sc an xs os, tickStalled s = { tickOpened s with sched := sc, answers := an, xfers := xs, objs := os } :=
  stallTick_frame s (tickOpened s)

theorem tickUnderrun_eq (s : State) :
    tickUnderrun s = (s.sys.doms.flatMap watches).foldl (underrunAt (s.gtc + 1)) (tickStalled s) :=
  foldl_underruns_eq ..

theorem tickUnderrun_frame (s : State) : ∃ cs ds, tickUnderrun s = { tickStalled s with cores := cs, doms := ds } := by
  rw [tickUnderrun_eq]
  exact foldl_underrunAt_frame ..

theorem tickRecorded_recorded (s : State) : Recorded (tickUnderrun s) (tickRecorded s) := flushCorrected_recorded ..

/-- After the links' delays a tick changes cores and domains, the management block, posts and the counts of corrections. -/
theorem tickRecorded_frame (s : State) : ∃ cs ds m p c,
    tickRecorded s = { tickStalled s with cores := cs, doms := ds, mgmt := m, posts := p, corrected := c } ∧ m.sensed = true := by
  obtain ⟨m, p, c, hrec, hm⟩ := tickRecorded_recorded s
  obtain ⟨cs, ds, hund⟩ := tickUnderrun_frame s
  obtain ⟨sc, an, xs, os, hst⟩ := tickStalled_frame s
  exact ⟨cs, ds, m, p, c, by rw [hrec, hund], by rw [hm, hund, hst]; rfl⟩

theorem tickRecorded_sched (s : State) : (tickRecorded s).sched = (tickStalled s).sched := by
  obtain ⟨_, _, _, _, _, h, _⟩ := tickRecorded_frame s
  rw [h]

theorem tickRecorded_xfers (s : State) : (tickRecorded s).xfers = (tickStalled s).xfers := by
  obtain ⟨_, _, _, _, _, h, _⟩ := tickRecorded_frame s
  rw [h]

theorem tickRecorded_objs (s : State) : (tickRecorded s).objs = (tickStalled s).objs := by
  obtain ⟨_, _, _, _, _, h, _⟩ := tickRecorded_frame s
  rw [h]

theorem tickRecorded_outbox (s : State) : (tickRecorded s).outbox = s.sys.outbox ++ sentOf s.sys.posts := by
  obtain ⟨_, _, _, _, _, h, _⟩ := tickRecorded_frame s
  obtain ⟨_, _, _, _, hst⟩ := tickStalled_frame s
  rw [h, hst]
  rfl

theorem tickRecorded_vds (s : State) : (tickRecorded s).vds = s.sys.vds := by
  obtain ⟨_, _, _, _, _, h, _⟩ := tickRecorded_frame s
  obtain ⟨_, _, _, _, hst⟩ := tickStalled_frame s
  rw [h, hst]
  rfl

theorem tickRecorded_sensed (s : State) : (tickRecorded s).mgmt.sensed = true := by
  obtain ⟨_, _, _, _, _, h, hm⟩ := tickRecorded_frame s
  rw [h]
  exact hm

/-- A tick posts records of counted corrections alone. -/
theorem tickRecorded_posts {s : State} (h : ∀ c ∈ s.sys.corrected, c.count = 0) : (tickRecorded s).posts = [] := by
  obtain ⟨cs, ds, hund⟩ := tickUnderrun_frame s
  obtain ⟨_, _, _, _, hst⟩ := tickStalled_frame s
  have hcount : (tickUnderrun s).corrected = s.sys.corrected := by rw [hund, hst]; rfl
  have hflush : tickRecorded s = tickUnderrun s := flushCorrected_of_none _ (by rwa [hcount])
  rw [hflush, hund, hst]
  rfl

/-- While no link is down a tick delays nothing. -/
theorem tickStalled_of_clear {s : State} (h : anyStall s.sys (s.gtc + 1) = false) : tickStalled s = tickOpened s :=
  stallTick_of_clear _ h

theorem tickStalled_sched {s : State} (h : anyStall s.sys (s.gtc + 1) = true) :
    (tickStalled s).sched = s.sys.sched.map (delayEvent s.sys (s.gtc + 1)) := by
  rw [tickStalled, stallTick_of_stall _ h]
  rfl

theorem tickStalled_xfers {s : State} (h : anyStall s.sys (s.gtc + 1) = true) :
    (tickStalled s).xfers = s.sys.xfers.map fun x =>
      if (delayedXfers { s with gtc := s.gtc + 1 }).contains x.xid then x.later else x := by
  rw [tickStalled, stallTick_of_stall _ h]
  rfl

/-! ## Roles in a tick -/

/-- A role of a core underruns in the domain d at the coming tick. -/
def UnderrunsIn (s : State) (d : Domain) (c q : Nat) : Prop :=
  d.st = .run ∧ c ∈ d.cores ∧ q < 3 ∧ (roleOf s.sys c q).armed = true ∧ (roleOf s.sys c q).handler = false ∧
    (roleOf s.sys c q).ns ≤ (d.ttc (s.gtc + 1) : Int) + 1

/-- It does so where a tick looks for it. -/
theorem underrunsIn_iff {s : State} {d : Domain} {c q : Nat} :
    UnderrunsIn s d c q ↔ (d, c, q) ∈ watches d ∧ letsStampBy (s.gtc + 1) d (roleOf s.sys c q) = true := by
  simp [UnderrunsIn, mem_watches, letsStampBy, and_assoc]

theorem roleOf_tickStalled (s : State) (c q : Nat) : roleOf (tickStalled s) c q = roleOf s.sys c q := by
  obtain ⟨_, _, _, _, hst⟩ := tickStalled_frame s
  rw [hst]
  rfl

theorem roleOf_tickRecorded (s : State) (c q : Nat) : roleOf (tickRecorded s) c q = roleOf (tickUnderrun s) c q := by
  obtain ⟨_, _, _, h, _⟩ := tickRecorded_recorded s
  rw [h]
  rfl

theorem role_lt_of_mem_watches {ds : List Domain} {t : Watch} (ht : t ∈ ds.flatMap watches) : t.2.2 < 3 := by
  obtain ⟨d, _, hd⟩ := List.mem_flatMap.1 ht
  obtain ⟨_, _, _, hq⟩ := mem_watches.1 hd
  exact hq

theorem roleOf_tickRecorded_of_underruns {s : State} {d : Domain} {c q : Nat} (hd : d ∈ s.sys.doms) (h : UnderrunsIn s d c q)
    (ha : (roleOf s.sys c q).aside = none) :
    roleOf (tickRecorded s) c q = (roleOf s.sys c q).enter (s.gtc + 1) (underrunCause (roleOf s.sys c q)) := by
  obtain ⟨hwatch, hlate⟩ := underrunsIn_iff.1 h
  obtain ⟨_, _, hq, _⟩ := h
  rw [roleOf_tickRecorded, tickUnderrun_eq, ← roleOf_tickStalled s c q]
  rw [← roleOf_tickStalled s c q] at hlate ha
  exact roleOf_foldl_underrunAt_of_late (fun t ht => role_lt_of_mem_watches ht) hq (List.mem_flatMap.2 ⟨d, hd, hwatch⟩) hlate ha

theorem roleOf_tickRecorded_of_not {s : State} {c q : Nat} (hq : q < 3) (h : ∀ d ∈ s.sys.doms, ¬ UnderrunsIn s d c q) :
    roleOf (tickRecorded s) c q = roleOf s.sys c q := by
  rw [roleOf_tickRecorded, tickUnderrun_eq, ← roleOf_tickStalled s c q]
  refine roleOf_foldl_underrunAt_of_not (fun t ht => role_lt_of_mem_watches ht) hq fun t ht hplace => ?_
  obtain ⟨d, hd, hwatch⟩ := List.mem_flatMap.1 ht
  obtain ⟨e, _⟩ := t
  obtain rfl : _ = (c, q) := hplace
  obtain ⟨rfl, _⟩ := mem_watches.1 hwatch
  rw [roleOf_tickStalled, ← Bool.not_eq_true]
  exact fun hlate => h e hd (underrunsIn_iff.2 ⟨hwatch, hlate⟩)

/-! ## Traffic in a tick in which some link is down -/

theorem mem_tickStalled_sched {s : State} (h : anyStall s.sys (s.gtc + 1) = true) {e : Nat × Instr × HomeMsg}
    (he : e ∈ s.sys.sched) : (HeldBack s.sys (s.gtc + 1) e → (s.gtc + 1 + 1, e.2) ∈ (tickStalled s).sched) ∧
      (¬ HeldBack s.sys (s.gtc + 1) e → e ∈ (tickStalled s).sched) := by
  rw [tickStalled_sched h]
  exact ⟨fun hheld => delayEvent_of_heldBack hheld ▸ List.mem_map_of_mem he,
    fun hfree => List.mem_map.2 ⟨e, he, delayEvent_of_not_heldBack hfree⟩⟩

theorem mem_tickStalled_xfers {s : State} (h : anyStall s.sys (s.gtc + 1) = true) {x : Xfer} (hx : x ∈ s.sys.xfers)
    (hshut : ShutOut { s with gtc := s.gtc + 1 } x) : x.later ∈ (tickStalled s).xfers := by
  rw [tickStalled_xfers h]
  refine List.mem_map.2 ⟨x, hx, if_pos ?_⟩
  simpa using mem_delayedXfers (s := { s with gtc := s.gtc + 1 }) hx hshut

theorem tickStalled_xfers_of_none {s : State} (h : anyStall s.sys (s.gtc + 1) = true)
    (hnone : ∀ x ∈ s.sys.xfers, ¬ ShutOut { s with gtc := s.gtc + 1 } x) : (tickStalled s).xfers = s.sys.xfers := by
  rw [tickStalled_xfers h, delayedXfers_eq_nil hnone]
  simp

/-! ## The statement about the tick -/

/-- Settles O41: the stages of the tick one after another, each with what it leaves alone. -/
theorem clockTick : Obligations.ClockTick := by
  intro s g now shut held late
  have hheld : ∀ e, held e ↔ HeldBack s.sys g e := fun e => by simp only [held, HeldBack, farDown_iff]
  refine ⟨ticked s, exec_gtcTick s, rfl, rfl, tickRecorded_outbox s, rfl, tickRecorded_posts, tickRecorded_vds s,
    tickRecorded_sensed s, fun hclear => ?_, fun hstall => ⟨fun e he => ?_, ?_, fun x hx hshut => ?_, fun hnone => ?_⟩,
    fun d hd c q hlate ha => ?_, fun c q hq hnone => ?_⟩
  · have hopen := tickStalled_of_clear hclear
    exact ⟨by rw [ticked, tickRecorded_sched, hopen]; rfl, by rw [ticked, tickRecorded_objs, hopen]; rfl,
      by rw [ticked, tickRecorded_xfers, hopen]; rfl⟩
  · rw [hheld, ticked, tickRecorded_sched]
    exact mem_tickStalled_sched hstall he
  · rw [ticked, tickRecorded_sched, tickStalled_sched hstall, List.length_map]
  · rw [ticked, tickRecorded_xfers]
    exact mem_tickStalled_xfers hstall hx hshut
  · rw [ticked, tickRecorded_xfers]
    exact tickStalled_xfers_of_none hstall hnone
  · have hrole : roleOf (ticked s).sys c q = _ := roleOf_tickRecorded_of_underruns hd hlate ha
    rw [hrole]
    exact enter_underrunCause (s.gtc + 1) ha
  · exact roleOf_tickRecorded_of_not hq hnone

end Sys2Proof.Machine

/-! PROOFS. A back-end word at its push point (R13, R41, R61, R66, R67): the checks in their order, and the push. -/

namespace Sys2Proof.Machine

/-! ## A back-end word is pushed or executed by its row of the table -/

theorem exec_of_backOf {i : Instr} {b : Back} (h : backOf i = some b) (s : State) : exec i s = back b i s := by
  cases i with
  | _ => cases h <;> rfl

theorem exec_backendPush_of_backOf {w : Nat} {i : Instr} {b : Back} (hw : decodeNat w = .ok i) (h : backOf i = some b) (s : State) :
    exec (.backendPush w) s = back b i s := by
  show execBackendPush w s = _
  simp only [execBackendPush, hw, h]

theorem back_of_not_handler {b : Back} {i : Instr} {s : State} (h : (me s.sys).handler = false) :
    back b i s = .next { s with sys := pushWord b i s } := by
  simp [back, h]

/-! ## The checks of the push point -/

section
variable {b : Back} {i : Instr} {s : State} {k : Cause}

/-- What the word names under the role's group mode. -/
def namesNow (b : Back) (s : State) : Names := b.names (me s.sys).mode.ety

/-- The word waits for VL or for a scalar source (R12, R122). -/
def awaitsSources (b : Back) (s : State) : Prop :=
  s.sys.waitsCsr 0x000 = true ∨ ∃ a ∈ (namesNow b s).sregs, s.sys.waits a = true

theorem not_awaitsSources (hvl : s.sys.waitsCsr 0x000 = false) (hs : s.readable (namesNow b s).sregs) : ¬ awaitsSources b s := by
  rintro (h | ⟨a, ha, h⟩)
  · simp [hvl] at h
  · simp [hs a ha] at h

/-- The checks before the wait for sources are passed: an entry is free, and the word's encoding and registers are allowed. -/
def passesFirst (b : Back) (s : State) : Prop :=
  (me s.sys).queue.length < 64 ∧ pushCause s.myCore s.sys.curRole (me s.sys) (namesNow b s) = none

theorem pushWord_of_full (h : 64 ≤ (me s.sys).queue.length) : pushWord b i s = s.sys := if_pos h

theorem pushWord_of_pushCause (hq : (me s.sys).queue.length < 64)
    (h : pushCause s.myCore s.sys.curRole (me s.sys) (namesNow b s) = some k) : pushWord b i s = (s.raises k).sys := by
  unfold State.myCore namesNow at h
  simp only [pushWord, if_neg (Nat.not_le.2 hq), h]
  rfl

theorem pushWord_of_awaitsSources (hp : passesFirst b s) (h : awaitsSources b s) : pushWord b i s = s.sys := by
  obtain ⟨hq, hc⟩ := hp
  unfold State.myCore namesNow at hc
  have hw : (s.sys.waitsCsr 0x000 || (namesNow b s).sregs.any s.sys.waits) = true := by
    simpa [awaitsSources] using h
  unfold namesNow at hw
  simp only [pushWord, if_neg (Nat.not_le.2 hq), hc, if_pos hw]

/-- With its sources there, what is left of the push point is the handle check, the late-push check and the push. -/
theorem pushWord_of_sources (hp : passesFirst b s) (h : ¬ awaitsSources b s) :
    pushWord b i s =
      match handleCause s.sys s.sys.curCore (me s.sys) (namesNow b s) with
      | some k => (s.raises k).sys
      | none =>
        if (me s.sys).ns < (s.ttc : Int) + 2 then (s.raises (domainCause 2 (me s.sys).pc 255)).sys
        else setMe s.sys ((me s.sys).push ((me s.sys).entry i (namesNow b s).sregs)) := by
  obtain ⟨hq, hc⟩ := hp
  unfold State.myCore namesNow at hc
  have hw : ¬ (s.sys.waitsCsr 0x000 || (namesNow b s).sregs.any s.sys.waits) = true := by
    simpa [awaitsSources] using h
  unfold namesNow at hw
  simp only [pushWord, if_neg (Nat.not_le.2 hq), hc, if_neg hw]
  rfl

theorem pushWord_of_handleCause (hp : passesFirst b s) (hs : ¬ awaitsSources b s)
    (h : handleCause s.sys s.sys.curCore (me s.sys) (namesNow b s) = some k) : pushWord b i s = (s.raises k).sys := by
  rw [pushWord_of_sources hp hs, h]

theorem pushWord_of_late (hp : passesFirst b s) (hs : ¬ awaitsSources b s)
    (h : handleCause s.sys s.sys.curCore (me s.sys) (namesNow b s) = none) (hlate : (me s.sys).ns < (s.ttc : Int) + 2) :
    pushWord b i s = (s.raises (domainCause 2 (me s.sys).pc 255)).sys := by
  rw [pushWord_of_sources hp hs, h]
  exact if_pos hlate

theorem pushWord_of_inTime (hp : passesFirst b s) (hs : ¬ awaitsSources b s)
    (h : handleCause s.sys s.sys.curCore (me s.sys) (namesNow b s) = none) (hns : (s.ttc : Int) + 2 ≤ (me s.sys).ns) :
    pushWord b i s = setMe s.sys ((me s.sys).push ((me s.sys).entry i (namesNow b s).sregs)) := by
  rw [pushWord_of_sources hp hs, h]
  exact if_neg (Int.not_lt.2 hns)

end

theorem pushCause_of_reason {c : Core} {role k : Nat} {r : RoleSt} {n : Names} (h : n.reason c.det = some k) :
    pushCause c role r n = some (frontCause 1 k r.pc) := by
  simp only [pushCause, h]
  rfl

theorem pushCause_of_notOwned {c : Core} {role v : Nat} {r : RoleSt} {n : Names} (h : n.reason c.det = none)
    (hv : n.notOwned c.partN role = some v) : pushCause c role r n = some (frontCause 2 v r.pc) := by
  simp only [pushCause, h, hv]
  rfl

theorem handleCause_of_bad {y : Sys} {core h : Nat} {r : RoleSt} {n : Names} (hn : n.handle = some h)
    (hbad : handleForm (chipOf core) (r.s h).toNat = false ∨ allocated y (vdKeyOf y core) (r.s h).toNat = false) :
    handleCause y core r n = some (frontCause 3 0 r.pc) := by
  simp only [handleCause, hn]
  exact if_neg (by simpa using fun hf => hbad.resolve_left (by simp [hf]))

/-! ## The statements of the push point -/

/-- Settles O15: the checks of `pushWord` one after another. -/
theorem pushPoint : Obligations.PushPoint := by
  intro s i b hb hh r n
  have hexec : ∀ {y}, pushWord b i s = y → exec i s = .next { s with sys := y } := fun hy => by
    rw [exec_of_backOf hb, back_of_not_handler hh, hy]
  refine ⟨fun hq => hexec (pushWord_of_full hq), fun hq => ⟨fun k hk => hexec (pushWord_of_pushCause hq (pushCause_of_reason hk)),
    fun v hk hv => hexec (pushWord_of_pushCause hq (pushCause_of_notOwned hk hv)), fun hc => ?_⟩⟩
  have hp : passesFirst b s := ⟨hq, hc⟩
  refine ⟨fun hw => hexec (pushWord_of_awaitsSources hp hw), fun hvl hs => ?_⟩
  have hs := not_awaitsSources hvl hs
  exact ⟨fun h hn hbad => hexec (pushWord_of_handleCause hp hs (handleCause_of_bad hn hbad)),
    fun hn hlate => hexec (pushWord_of_late hp hs hn hlate)⟩

/-- Settles O14: a word that passes every check is pushed as `RoleSt.entry`; its stamp is no negative number, being later than
TTC. -/
theorem backEndPush : Obligations.BackEndPush := by
  intro s i b hb hh r n hq hc hvl hs hn hns
  have hpush : back b i s = .next (s.withMe (r.push (r.entry i n.sregs))) := by
    rw [back_of_not_handler hh, pushWord_of_inTime ⟨hq, hc⟩ (not_awaitsSources hvl hs) hn hns]
    rfl
  have hstamp : (r.ns.toNat : Int) = r.ns := Int.toNat_of_nonneg (by omega)
  exact ⟨r.entry i n.sregs, (exec_of_backOf hb s).trans hpush, fun w hw => (exec_backendPush_of_backOf hw hb s).trans hpush,
    rfl, rfl, hstamp, rfl, rfl, rfl, rfl, fun hx => if_pos hx, rfl, rfl⟩

end Sys2Proof.Machine

/-! PROOFS. A step that gives a role its turn (R11, R33, R57, R119). -/

namespace Sys2Proof.Machine

/-! ## The act of a turn -/

/-- What an act comes to. -/
def Act.done : Act → Result
  | .run i t => exec i t
  | .go t => .next t

/-- The act of a role whose word is w: its instruction, the storage error of a source (R378), or the illegal encoding (R57). -/
def wordAct (t : State) (core role : Nat) (w : Word) : Act :=
  match decodeNat w.toNat with
  | .ok i =>
    match struckSource t.sys core role i with
    | some n => .go { t with sys := frontStorage t core role n }
    | none => .run i (countScalars t core role i)
  | .error _ => .run (if isFrontOp w.toNat then .decodeIllegalEncoding w.toNat else .backendPush w.toNat) t

section
variable {t : State} {core role : Nat} {w : Word}

theorem wordAct_of_decoded {i : Instr} (hw : decodeNat w.toNat = .ok i) (h : struckSource t.sys core role i = none) :
    wordAct t core role w = .run i (countScalars t core role i) := by
  simp only [wordAct, hw, h]

theorem wordAct_of_struck {i : Instr} {n : Nat} (hw : decodeNat w.toNat = .ok i) (h : struckSource t.sys core role i = some n) :
    wordAct t core role w = .go { t with sys := frontStorage t core role n } := by
  simp only [wordAct, hw, h]

theorem wordAct_of_illegal {k : Nat} (hw : decodeNat w.toNat = .error k) :
    wordAct t core role w = .run (if isFrontOp w.toNat then .decodeIllegalEncoding w.toNat else .backendPush w.toNat) t := by
  simp only [wordAct, hw]

end

/-! ## A step that gives a role its turn -/

/-- The state in which a role has its turn, with the rest of the agenda behind it. -/
def State.turn (s : State) (core role : Nat) (rest : List Turn) : State :=
  { s with sys := { s.sys with agenda := rest, curCore := core, curRole := role } }

/-- A module with something on its agenda does not stop (R390). -/
theorem powerless_of_agenda {s : State} {t : Turn} {rest : List Turn} (h : s.sys.agenda = t :: rest) : powerless s = false := by
  simp [powerless, h]

section
variable {s : State} {core role : Nat} {rest : List Turn} (h : s.sys.agenda = .front core role :: rest)
  (hm : mayExecute (s.turn core role rest) core role = true)
include h

theorem step_of_front : step s = (frontAct { s with sys := { s.sys with agenda := rest } } core role).done := by
  unfold step
  rw [powerless_of_agenda h, if_neg Bool.false_ne_true]
  simp only [nextAct, h]
  cases frontAct { s with sys := { s.sys with agenda := rest } } core role <;> rfl

include hm

theorem step_of_noWord (hx : fetchWord (roleOf s.sys core role) = none) :
    step s = .next ((s.turn core role rest).raises (frontCause 8 0 (roleOf s.sys core role).pc)) := by
  change fetchWord (roleOf (s.turn core role rest).sys core role) = none at hx
  unfold State.turn at hm hx
  rw [step_of_front h]
  simp only [frontAct, hm, hx]
  rfl

theorem step_of_word {x : Word} (hx : fetchWord (roleOf s.sys core role) = some x) :
    step s = (wordAct (s.turn core role rest) core role (chosenWord (s.turn core role rest) core role x)).done := by
  change fetchWord (roleOf (s.turn core role rest).sys core role) = some x at hx
  unfold State.turn at hm hx
  rw [step_of_front h]
  simp only [frontAct, hm, hx]
  rfl

end

/-- The executed word is the loaded one or the one that memory holds (R109). -/
theorem chosenWord_cases (s : State) (core role : Nat) (x : Word) :
    chosenWord s core role x = x ∨ memoryWord s core role = some (chosenWord s core role x) := by
  unfold chosenWord
  split
  · split
    · exact .inr ‹_›
    · exact .inl rfl
  · exact .inl rfl

/-- Where no single-bit error has struck a core, nothing is counted (R378). -/
theorem countScalars_of_clean {s : State} {core role : Nat} {i : Instr} (h : (coreOf s.sys core).soft = []) :
    countScalars s core role i = s := if_pos h

/-- Settles O12: the turn's act, by what the word decodes to. -/
theorem stepRunsDecoded : Obligations.StepRunsDecoded := by
  intro s core role rest h t r hm
  refine ⟨fun x hx => ?_, step_of_noWord h hm⟩
  intro w
  have hstep : step s = (wordAct t core role w).done := step_of_word h hm hx
  refine ⟨chosenWord_cases t core role x, fun i hw hs => ⟨?_, countScalars_of_clean⟩, fun i n hw hs => ?_, fun k hw => ?_⟩
  · rw [hstep, wordAct_of_decoded hw hs, Act.done]
  · rw [hstep, wordAct_of_struck hw hs, Act.done]
  · rw [hstep, wordAct_of_illegal hw, Act.done]

end Sys2Proof.Machine

/-! PROOFS. Which vector registers a role may name (R16, R17). -/

namespace Sys2Proof.Machine

/-! ## Inside and outside the ring -/

theorem isRing_iff {part v : Nat} : isRing part v = true ↔ rbase part ≤ v ∧ v < nv part := by simp [isRing]

theorem isRing_of_below {part v : Nat} (h : v < rbase part) : isRing part v = false := by
  simp [isRing, Nat.not_le.2 h]

theorem isRing_of_past {part v : Nat} (h : nv part ≤ v) : isRing part v = false := by
  simp [isRing, Nat.not_lt.2 h]

theorem rbase_le_nv {part : Nat} (h : partOk part = true) : rbase part ≤ nv part := by
  simp only [partOk, Bool.and_eq_true, decide_eq_true_eq] at h
  exact h.1.1.1.1.1.1.2

/-- Outside the ring a role may name exactly its own registers, as source and as destination. -/
theorem mayName_of_below {part role v : Nat} (hp : partOk part = true) (hv : v < rbase part) :
    (mayRead part role v = true ↔ role = ownerOf part v) ∧ (mayWrite part role v = true ↔ role = ownerOf part v) := by
  have hnv : v < nv part := hv.trans_le (rbase_le_nv hp)
  rw [eq_comm (b := ownerOf part v)]
  simp [mayRead, mayWrite, isRing_of_below hv, hnv]

theorem ownerOf_of_below {part v : Nat} (hp : partOk part = true) (hv : v < rbase part) :
    ownerOf part v = if v < cbase part then 0 else if v < sbase part then 1 else 2 := by
  simp only [ownerOf, if_neg (Nat.not_le.2 (hv.trans_le (rbase_le_nv hp))), if_pos hv]

theorem mayName_of_past {part role v : Nat} (hv : nv part ≤ v) : mayRead part role v = false ∧ mayWrite part role v = false := by
  simp [mayRead, mayWrite, isRing_of_past hv, Nat.not_lt.2 hv]

/-- In the ring the code of a register names its writer and its reader. -/
theorem mayName_of_ring {part role v : Nat} (hv : isRing part v = true) :
    (mayWrite part role v = true ↔ role = ringWriter (rdir part v)) ∧
      (mayRead part role v = true ↔ role = ringReader (rdir part v)) := by
  rw [eq_comm (b := ringWriter _), eq_comm (b := ringReader _)]
  simp [mayRead, mayWrite, hv]

/-- The eight codes with their writers and readers (R16); writer 3 is the transfer unit. -/
theorem ringCodes : ∀ p ∈ [(0, 0, 1), (1, 0, 2), (2, 1, 0), (3, 1, 2), (4, 2, 0), (5, 2, 1), (6, 3, 1), (7, 3, 0)],
    ringWriter p.1 = p.2.1 ∧ ringReader p.1 = p.2.2 := by decide

/-! ## The check of a word's registers -/

theorem onePlace_iff {part r : Nat} : onePlace part r = true ↔
    ((rbase part ≤ r ∧ r < nv part) ↔ (rbase part ≤ r + 1 ∧ r + 1 < nv part)) ∧
      (rbase part ≤ r ∧ r < nv part → rdir part r = rdir part (r + 1)) := by
  rw [← isRing_iff, ← isRing_iff]
  cases h : isRing part r <;> simp [onePlace, h]

theorem notOwned_eq_none_iff {n : Names} {part role : Nat} : n.notOwned part role = none ↔
    (∀ p ∈ n.regs, if p.2 then mayWrite part role p.1 = true else mayRead part role p.1 = true) ∧
      (∀ r ∈ n.pairs, onePlace part r = true) ∧ ∀ t ∈ n.tiles, t < nacc part := by
  have hregs : (∀ p ∈ n.regs, if p.2 then mayWrite part role p.1 = true else mayRead part role p.1 = true) ↔
      n.regs.find? (fun p => !p.2 && !mayRead part role p.1) = none ∧
        n.regs.find? (fun p => p.2 && !mayWrite part role p.1) = none := by
    simp only [List.find?_eq_none, ← forall₂_and]
    refine forall₂_congr fun p _ => ?_
    cases p.2 <;> simp
  have hpairs : (∀ r ∈ n.pairs, onePlace part r = true) ↔ n.pairs.find? (fun r => !onePlace part r) = none := by simp
  have htiles : (∀ t ∈ n.tiles, t < nacc part) ↔ n.tiles.find? (fun t => decide (nacc part ≤ t)) = none := by simp
  rw [hregs, hpairs, htiles]
  unfold Names.notOwned
  cases n.regs.find? (fun p => !p.2 && !mayRead part role p.1) with
  | some p => simp
  | none =>
    cases n.regs.find? (fun p => p.2 && !mayWrite part role p.1) with
    | some p => simp
    | none =>
      cases n.pairs.find? (fun r => !onePlace part r) with
      | some r => simp
      | none => simp only [Option.map_eq_none_iff, true_and]

/-- Settles O16: outside the ring a register has one owner, in it the code's writer and reader; and the check of a word finds
nothing exactly if each of its four searches does. -/
theorem registerOwnership : Obligations.RegisterOwnership := by
  intro part role v hp _
  refine ⟨mayName_of_past, fun hv => ?_, fun hlo hhi p hmem hcode => ?_, fun n => ?_, ?_⟩
  · rw [← ownerOf_of_below hp hv]
    exact mayName_of_below hp hv
  · obtain ⟨hw, hr⟩ := ringCodes p hmem
    rw [← hw, ← hr, ← hcode]
    exact mayName_of_ring (isRing_iff.2 ⟨hlo, hhi⟩)
  · simp only [notOwned_eq_none_iff, onePlace_iff]
  · intro d a b i hi t ht
    simp only [List.mem_cons, List.not_mem_nil, or_false] at hi ht
    obtain rfl | rfl | rfl := hi <;> obtain rfl | rfl := ht <;> exact ⟨_, rfl, rfl, rfl⟩

end Sys2Proof.Machine

/-! PROOFS. What the storage operations of a landing do (R18, R24, R151, R153): containers, mask bits, and the bytes, flags and
marks of the scratchpad. -/

namespace Sys2Proof.Machine

/-! ## Containers -/

theorem length_toBytes (n x : Nat) : (toBytes n x).length = n := by
  induction n generalizing x with
  | zero => rfl
  | succ n ih => simp [toBytes, ih]

theorem getElem?_toBytes {n i : Nat} (x : Nat) (h : i < n) : (toBytes n x)[i]? = some (BitVec.ofNat 8 (x / 256 ^ i)) := by
  induction n generalizing x i with
  | zero => exact absurd h (Nat.not_lt_zero i)
  | succ n ih =>
    cases i with
    | zero => simp [toBytes]
    | succ i => simp [toBytes, ih (x / 256) (Nat.lt_of_succ_lt_succ h), Nat.div_div_eq_div_mul, Nat.pow_succ, Nat.mul_comm]

/-- Byte n of a row of containers. -/
def rowByte (data : List Nat) (n : Nat) : Byte := BitVec.ofNat 8 ((data[n / 4]?).getD 0 / 256 ^ (n % 4))

/-- The first n containers of a row, those that are enabled, written at an address. -/
def putFirst (m : Mem) (a enable : Nat) (data : List Nat) (n : Nat) : Mem :=
  (List.range n).foldl (fun m l => if enable.testBit l then Mem.writes m (a + 4 * l) (toBytes 4 ((data[l]?).getD 0)) else m) m

theorem putContainers_eq (m : Mem) (a enable : Nat) (data : List Nat) : putContainers m a enable data = putFirst m a enable data 64 := rfl

theorem read_writeContainer (m : Mem) (a l : Nat) (data : List Nat) (x : Nat) :
    Mem.read (Mem.writes m (a + 4 * l) (toBytes 4 ((data[l]?).getD 0))) x =
      if a ≤ x ∧ (x - a) / 4 = l then rowByte data (x - a) else Mem.read m x := by
  rw [Mem.read_writes, length_toBytes]
  by_cases h : a + 4 * l ≤ x ∧ x < a + 4 * l + 4
  · have hl : (x - a) / 4 = l := by omega
    have hx : x - (a + 4 * l) = (x - a) % 4 := by omega
    rw [if_pos h, if_pos ⟨by omega, hl⟩, hx, getElem?_toBytes _ (Nat.mod_lt _ (by decide)), rowByte, hl]
    rfl
  · rw [if_neg h, if_neg (by omega)]

theorem read_putFirst (m : Mem) (a enable : Nat) (data : List Nat) (n x : Nat) :
    Mem.read (putFirst m a enable data n) x =
      if a ≤ x ∧ x < a + 4 * n ∧ enable.testBit ((x - a) / 4) then rowByte data (x - a) else Mem.read m x := by
  induction n with
  | zero => rw [if_neg (by omega)]; rfl
  | succ n ih =>
    rw [putFirst, List.range_succ, List.foldl_append, ← putFirst]
    simp only [List.foldl_cons, List.foldl_nil]
    by_cases hin : a ≤ x ∧ (x - a) / 4 = n
    · obtain ⟨hax, hn⟩ := hin
      have hlt : x < a + 4 * (n + 1) := by omega
      cases he : enable.testBit n with
      | true => rw [if_pos rfl, read_writeContainer, if_pos ⟨hax, hn⟩, if_pos ⟨hax, hlt, by rw [hn, he]⟩]
      | false =>
        rw [if_neg Bool.false_ne_true, ih, if_neg (by omega), if_neg (by rw [hn, he]; simp)]
    · have hlt : (a ≤ x ∧ x < a + 4 * (n + 1)) ↔ (a ≤ x ∧ x < a + 4 * n) := by omega
      simp only [← and_assoc, hlt] at ih ⊢
      rw [← ih]
      split
      · rw [read_writeContainer, if_neg hin]
      · rfl

theorem read_putContainers (m : Mem) (a enable : Nat) (data : List Nat) (x : Nat) :
    Mem.read (putContainers m a enable data) x =
      if a ≤ x ∧ x < a + 256 ∧ enable.testBit ((x - a) / 4) then rowByte data (x - a) else Mem.read m x := by
  rw [putContainers_eq, read_putFirst]

/-! ## Mask bits (R18) -/

/-- One bit of a mask register set to a value. -/
def putBit (m : BitVec 512) (i : Nat) (b : Bool) : BitVec 512 := if b then m ||| (1#512 <<< i) else m &&& ~~~(1#512 <<< i)

theorem getLsbD_putBit (m : BitVec 512) {i j : Nat} (b : Bool) (hj : j < 512) :
    (putBit m i b).getLsbD j = if j = i then b else m.getLsbD j := by
  have hbit : (1#512 <<< i).getLsbD j = decide (j = i) := by
    rw [BitVec.getLsbD_shiftLeft, BitVec.getLsbD_one, Bool.eq_iff_iff]
    simp only [Bool.and_eq_true, decide_eq_true_eq, Bool.not_eq_true', decide_eq_false_iff_not]
    omega
  cases b with
  | true =>
    rw [putBit, if_pos rfl, BitVec.getLsbD_or, hbit]
    by_cases h : j = i <;> simp [h]
  | false =>
    rw [putBit, if_neg Bool.false_ne_true, BitVec.getLsbD_and, BitVec.getLsbD_not, hbit]
    by_cases h : j = i <;> simp [h, hj]

/-- The first n bits of a row of mask bits, those that are enabled, put at bit i. -/
def putBits (old : BitVec 512) (i n enable bits : Nat) : BitVec 512 :=
  (List.range n).foldl (fun m l => if enable.testBit l then putBit m (i + l) (bits.testBit l) else m) old

theorem putMaskRow_eq (old : BitVec 512) (lanes row enable bits : Nat) :
    putMaskRow old lanes row enable bits = putBits old (row * lanes) lanes enable bits := rfl

theorem getLsbD_putBits (old : BitVec 512) (i n enable bits : Nat) {j : Nat} (hj : j < 512) :
    (putBits old i n enable bits).getLsbD j =
      if i ≤ j ∧ j < i + n ∧ enable.testBit (j - i) then bits.testBit (j - i) else old.getLsbD j := by
  induction n with
  | zero => rw [if_neg (by omega)]; rfl
  | succ n ih =>
    rw [putBits, List.range_succ, List.foldl_append, ← putBits]
    simp only [List.foldl_cons, List.foldl_nil]
    by_cases hin : j = i + n
    · subst hin
      have hn : i + n - i = n := by omega
      cases he : enable.testBit n with
      | true => rw [if_pos rfl, getLsbD_putBit _ _ hj, if_pos rfl, hn, if_pos ⟨by omega, by omega, he⟩]
      | false => rw [if_neg Bool.false_ne_true, ih, if_neg (by omega), hn, if_neg (by simp [he])]
    · have hlt : (i ≤ j ∧ j < i + (n + 1)) ↔ (i ≤ j ∧ j < i + n) := by omega
      simp only [← and_assoc, hlt] at ih ⊢
      rw [← ih]
      split
      · rw [getLsbD_putBit _ _ hj, if_neg hin]
      · rfl

/-! ## Bytes, flags and marks of the scratchpad (R151, R153) -/

/-- Bytes stored one after another in a scratchpad. -/
def Core.stores (c : Core) (ws : List (Nat × Byte)) : Core := ws.foldl (fun c w => c.sput w.1 [w.2]) c

/-- The words of some bytes flagged 1. -/
def Core.flags (c : Core) (ws : List (Nat × Byte)) : Core := ws.foldl (fun c w => c.setFlag (w.1 / 4) 0) c

/-- Every granule that some bytes cover whole, among those whose first byte is listed, unmarked. -/
def Core.unmarks (c : Core) (all ws : List (Nat × Byte)) : Core :=
  ws.foldl (fun c w => if (List.range 64).all fun i => all.any fun v => v.1 == w.1 + i then c.setPoison (w.1 / 64) false else c) c

theorem backWrite_eq (c : Core) (ws : List (Nat × Byte)) :
    c.backWrite ws = ((c.stores ws).flags ws).unmarks ws (ws.filter fun w => w.1 % 64 == 0) := rfl

theorem stores_frame (c : Core) (ws : List (Nat × Byte)) : ∃ p, c.stores ws = { c with pool := p } := by
  induction ws generalizing c with
  | nil => exact ⟨_, rfl⟩
  | cons w ws ih => exact ih (c.sput w.1 [w.2])

theorem flags_frame (c : Core) (ws : List (Nat × Byte)) : ∃ f, c.flags ws = { c with flags0 := f } := by
  induction ws generalizing c with
  | nil => exact ⟨_, rfl⟩
  | cons w ws ih => exact ih (c.setFlag (w.1 / 4) 0)

theorem unmarks_frame (c : Core) (all ws : List (Nat × Byte)) : ∃ q b, c.unmarks all ws = { c with poison := q, bad := b } := by
  induction ws generalizing c with
  | nil => exact ⟨_, _, rfl⟩
  | cons w ws ih =>
    rw [Core.unmarks, List.foldl_cons, ← Core.unmarks]
    split
    · exact ih (c.setPoison (w.1 / 64) false)
    · exact ih c

/-- A core that differs at most in what a back-end write reaches. -/
def Core.Stored (c k : Core) : Prop := ∃ p f q b, k = { c with pool := p, flags0 := f, poison := q, bad := b }

theorem Core.Stored.refl (c : Core) : c.Stored c := ⟨_, _, _, _, rfl⟩

theorem backWrite_stored (c : Core) (ws : List (Nat × Byte)) : c.Stored (c.backWrite ws) := by
  obtain ⟨p, hp⟩ := stores_frame c ws
  obtain ⟨f, hf⟩ := flags_frame (c.stores ws) ws
  obtain ⟨q, b, hq⟩ := unmarks_frame ((c.stores ws).flags ws) ws (ws.filter fun w => w.1 % 64 == 0)
  exact ⟨p, f, q, b, by rw [backWrite_eq, hq, hf, hp]⟩

theorem sbyte_sput_one (c : Core) (o : Nat) (b : Byte) (a : Nat) : (c.sput o [b]).sbyte a = if a = o then b else c.sbyte a := by
  show Mem.read (Mem.write c.pool (spadBase c.partN + o) b) (spadBase c.partN + a) = _
  rw [Mem.read_write]
  exact if_congr (by omega) rfl rfl

/-- A byte that some writes store holds their value, if they agree on it; every other byte stays. -/
theorem sbyte_stores {ws : List (Nat × Byte)} {a : Nat} {b : Byte} (c : Core) (h : ∀ w ∈ ws, w.1 = a → w.2 = b) :
    (c.stores ws).sbyte a = if ∃ w ∈ ws, w.1 = a then b else c.sbyte a := by
  induction ws generalizing c with
  | nil => simp [Core.stores]
  | cons w ws ih =>
    rw [List.forall_mem_cons] at h
    rw [Core.stores, List.foldl_cons, ← Core.stores, ih _ h.2, sbyte_sput_one]
    by_cases hw : w.1 = a
    · simp [hw, h.1 hw]
    · simp [hw, Ne.symm hw]

theorem flagCause_setFlag_zero (c : Core) (w v : Nat) : (c.setFlag w 0).flagCause v = if v = w then 0 else c.flagCause v := by
  show (((c.flags0.filter fun p => p.1 != w).find? fun p => p.1 == v).map Prod.snd).getD 0 = _
  rw [List.find?_filter]
  by_cases h : v = w
  · rw [if_pos h, List.find?_eq_none.2 fun p _ => by simp [h]]
    rfl
  · have hsame : (fun p : Nat × Nat => decide ((p.1 != w) = true ∧ (p.1 == v) = true)) = fun p => p.1 == v := by
      funext p
      rw [Bool.eq_iff_iff]
      simp only [bne_iff_ne, beq_iff_eq, decide_eq_true_eq]
      omega
    rw [if_neg h, hsame]
    rfl

theorem flagCause_flags (c : Core) (ws : List (Nat × Byte)) (v : Nat) :
    (c.flags ws).flagCause v = if ∃ w ∈ ws, w.1 / 4 = v then 0 else c.flagCause v := by
  induction ws generalizing c with
  | nil => simp [Core.flags]
  | cons w ws ih =>
    rw [Core.flags, List.foldl_cons, ← Core.flags, ih, flagCause_setFlag_zero]
    simp only [List.mem_cons, exists_eq_or_imp]
    by_cases hw : w.1 / 4 = v
    · simp only [hw, true_or, if_true, ite_self]
    · simp only [hw, Ne.symm hw, false_or, if_false]

/-- Some bytes hold every byte of the granule that starts at one of them. -/
def coversFrom (all : List (Nat × Byte)) (a : Nat) : Prop := ∀ i < 64, ∃ v ∈ all, v.1 = a + i

theorem mem_poison_unmarks (c : Core) (all ws : List (Nat × Byte)) (g : Nat) :
    g ∈ (c.unmarks all ws).poison ↔ g ∈ c.poison ∧ ∀ w ∈ ws, coversFrom all w.1 → w.1 / 64 ≠ g := by
  induction ws generalizing c with
  | nil => simp [Core.unmarks]
  | cons w ws ih =>
    have hcov : ((List.range 64).all fun i => all.any fun v => v.1 == w.1 + i) = true ↔ coversFrom all w.1 := by
      simp [coversFrom]
    rw [Core.unmarks, List.foldl_cons, ← Core.unmarks, ih, List.forall_mem_cons]
    by_cases h : coversFrom all w.1
    · rw [if_pos (hcov.2 h)]
      simp [Core.setPoison, h, and_assoc, ne_comm (b := g)]
    · rw [if_neg (mt hcov.1 h)]
      simp [h]

/-- The granules that stay marked are those that the bytes do not hold whole. -/
theorem mem_poison_backWrite (c : Core) (ws : List (Nat × Byte)) (g : Nat) :
    g ∈ (c.backWrite ws).poison ↔ g ∈ c.poison ∧ ¬ coversFrom ws (64 * g) := by
  obtain ⟨p, hp⟩ := stores_frame c ws
  obtain ⟨f, hf⟩ := flags_frame (c.stores ws) ws
  have hpoison : ((c.stores ws).flags ws).poison = c.poison := by rw [hf, hp]
  rw [backWrite_eq, mem_poison_unmarks, hpoison]
  refine and_congr_right fun _ => ⟨fun h hcov => ?_, fun h w hw hcov hg => ?_⟩
  · obtain ⟨v, hv, hva⟩ := hcov 0 (by decide)
    have hva : v.1 = 64 * g := hva
    exact h v (by simp [hv, hva]) (hva ▸ hcov) (by omega)
  · have hw : w.1 % 64 = 0 := by simpa using (List.mem_filter.1 hw).2
    have : w.1 = 64 * g := by omega
    exact h (this ▸ hcov)

theorem sbyte_backWrite {ws : List (Nat × Byte)} {a : Nat} {b : Byte} (c : Core) (h : ∀ w ∈ ws, w.1 = a → w.2 = b) :
    (c.backWrite ws).sbyte a = if ∃ w ∈ ws, w.1 = a then b else c.sbyte a := by
  obtain ⟨f, hf⟩ := flags_frame (c.stores ws) ws
  obtain ⟨q, d, hq⟩ := unmarks_frame ((c.stores ws).flags ws) ws (ws.filter fun w => w.1 % 64 == 0)
  rw [← sbyte_stores c h, backWrite_eq, hq, hf]
  rfl

theorem flagCause_backWrite (c : Core) (ws : List (Nat × Byte)) (v : Nat) :
    (c.backWrite ws).flagCause v = if ∃ w ∈ ws, w.1 / 4 = v then 0 else c.flagCause v := by
  obtain ⟨p, hp⟩ := stores_frame c ws
  obtain ⟨q, d, hq⟩ := unmarks_frame ((c.stores ws).flags ws) ws (ws.filter fun w => w.1 % 64 == 0)
  have hflags : ((c.stores ws).flags ws).flagCause v = if ∃ w ∈ ws, w.1 / 4 = v then 0 else c.flagCause v := by
    rw [flagCause_flags, hp]
    rfl
  rw [← hflags, backWrite_eq, hq]
  rfl

end Sys2Proof.Machine

/-! PROOFS. What the retirement of entries leaves alone of the cores (R14, R71), and the event of a landing up to its making (R24). -/

namespace Sys2Proof.Machine

/-! ## Retirement -/

/-- Numbers from 2 on name role S. -/
theorem Core.role_min (c : Core) (q : Nat) : c.role q = c.role (min q 2) := by
  obtain rfl | rfl | h : q = 0 ∨ q = 1 ∨ 2 ≤ q := by omega
  · rfl
  · rfl
  · rw [Nat.min_eq_right h]
    simp only [Core.role, if_neg (show q ≠ 0 by omega), if_neg (show q ≠ 1 by omega)]
    rfl

theorem Core.role_setRole (c : Core) {r : Nat} (q : Nat) (v : RoleSt) (hr : r < 3) :
    (c.setRole r v).role q = if min q 2 = r then v else c.role q := by
  rw [Core.role_min, Core.role_min c q]
  split
  case isTrue h => rw [h, Core.role_setRole_same _ _ _ hr]
  case isFalse h => rw [Core.role_setRole_other _ _ _ _ hr (by omega) h]

/-- A role that keeps its scalar and control registers. -/
def RoleSt.SameRegs (r v : RoleSt) : Prop := v.s = r.s ∧ v.csrs = r.csrs

/-- A core in which roles have changed at most beside their scalar and control registers, and nothing else has. -/
def Core.Requeued (c k : Core) : Prop := ∃ rs, k = { c with roles := rs } ∧ ∀ q, (c.role q).SameRegs (k.role q)

theorem Core.Requeued.refl (c : Core) : c.Requeued c := ⟨_, rfl, fun _ => ⟨rfl, rfl⟩⟩

theorem Core.Requeued.trans {c k x : Core} (h : c.Requeued k) (h' : k.Requeued x) : c.Requeued x := by
  obtain ⟨rs, hk, hr⟩ := h
  obtain ⟨ts, hx, ht⟩ := h'
  refine ⟨ts, by rw [hx, hk], fun q => ?_⟩
  obtain ⟨hs, hc⟩ := hr q
  obtain ⟨hs', hc'⟩ := ht q
  exact ⟨hs'.trans hs, hc'.trans hc⟩

/-- What is read of a core beside its roles is read of a requeued one. -/
theorem Core.Requeued.read {α : Type} {c k : Core} (h : c.Requeued k) (f : Core → α)
    (hf : ∀ rs, f { c with roles := rs } = f c := by intro _; rfl) : f k = f c := by
  obtain ⟨rs, rfl, _⟩ := h
  exact hf rs

theorem Core.Requeued.s_role {c k : Core} (h : c.Requeued k) (q : Nat) : (k.role q).s = (c.role q).s := by
  obtain ⟨_, _, hregs⟩ := h
  exact (hregs q).1

theorem Core.Requeued.csrs_role {c k : Core} (h : c.Requeued k) (q : Nat) : (k.role q).csrs = (c.role q).csrs := by
  obtain ⟨_, _, hregs⟩ := h
  exact (hregs q).2

theorem Core.Requeued.setRole {c : Core} {r : Nat} {v : RoleSt} (hr : r < 3) (h : (c.role r).SameRegs v) : c.Requeued (c.setRole r v) := by
  refine ⟨_, rfl, fun q => ?_⟩
  rw [Core.role_setRole c q v hr]
  split
  case isTrue hq =>
    rw [Core.role_min c q, hq]
    exact h
  case isFalse => exact ⟨rfl, rfl⟩

/-- A machine of whose cores one is requeued, and the others stay. -/
def RequeuedAt (core : Nat) (y z : Sys) : Prop :=
  (∀ x, x ≠ core → coreOf z x = coreOf y x) ∧ (coreOf y core).Requeued (coreOf z core)

theorem RequeuedAt.refl (core : Nat) (y : Sys) : RequeuedAt core y y := ⟨fun _ _ => rfl, .refl _⟩

theorem RequeuedAt.trans {core : Nat} {x y z : Sys} (h : RequeuedAt core x y) (h' : RequeuedAt core y z) : RequeuedAt core x z :=
  ⟨fun c hc => (h'.1 c hc).trans (h.1 c hc), h.2.trans h'.2⟩

theorem RequeuedAt.of_cores {core : Nat} {y z : Sys} (h : z.cores = y.cores) : RequeuedAt core y z := by
  have hcore : ∀ x, coreOf z x = coreOf y x := fun x => by rw [coreOf, coreOf, h]
  exact ⟨fun x _ => hcore x, hcore core ▸ .refl _⟩

theorem RequeuedAt.core {core : Nat} {y z : Sys} (h : RequeuedAt core y z) (x : Nat) : (coreOf y x).Requeued (coreOf z x) := by
  by_cases hx : x = core
  · exact hx ▸ h.2
  · exact h.1 x hx ▸ .refl _

theorem RequeuedAt.setRole {y : Sys} {core r : Nat} {v : RoleSt} (hr : r < 3) (h : (roleOf y core r).SameRegs v) :
    RequeuedAt core y (setRole y core r v) := by
  refine ⟨fun x hx => by rw [coreOf_setRole, if_neg hx], ?_⟩
  rw [coreOf_setRole, if_pos rfl]
  exact .setRole hr h

theorem countHalt_requeuedAt (y : Sys) (g core : Nat) {role : Nat} (hr : role < 3) : RequeuedAt core y (countHalt y g core role) := by
  have hcounted : RequeuedAt core y (setRole y core role { roleOf y core role with counted := true }) := .setRole hr ⟨rfl, rfl⟩
  unfold countHalt
  dsimp only
  split
  · split
    · split
      · exact hcounted.trans (.of_cores rfl)
      · exact hcounted
    · exact hcounted.trans (.of_cores rfl)
  · exact .refl _ _

theorem retire_requeuedAt (tab : Instr → Option Back) (s : State) (y : Sys) (core : Nat) {role : Nat} (hr : role < 3) :
    RequeuedAt core y (retire tab s y core role) := by
  let q := (roleOf y core role).queue.dropWhile (retired tab { s with sys := y } core role)
  have hqueue : RequeuedAt core y (setRole y core role { roleOf y core role with queue := q }) := .setRole hr ⟨rfl, rfl⟩
  exact hqueue.trans (countHalt_requeuedAt _ _ _ hr)

/-- The entries of every role retire. -/
theorem retireAll_requeuedAt (tab : Instr → Option Back) (s : State) (y : Sys) (core : Nat) :
    RequeuedAt core y ((List.range 3).foldl (fun y r => retire tab { s with sys := y } y core r) y) :=
  List.foldlRecOn (motive := RequeuedAt core y) _ _ (.refl core y) fun z hz _ hr =>
    hz.trans (retire_requeuedAt tab _ z core (List.mem_range.1 hr))

/-! ## The event of a landing -/

/-- The machine from whose landings in flight on a core one has been taken out. -/
def Sys.withoutLanding (y : Sys) (core lid : Nat) : Sys :=
  setCore y { coreOf y core with landings := (y.landingsOf core).filter fun x => x.lid != lid }

/-- In a cycle that was checked and met no fault nothing is checked again. -/
theorem guarded_of_clearCycle {tab : Instr → Option Back} {s : State} {core : Nat} (h : s.clearCycle core) : guarded tab s core = s := by
  obtain ⟨d, hd, _, hc⟩ := h
  simp [guarded, guardCycle, hd, hc]

theorem domOfCore_run_of_clearCycle {s : State} {core : Nat} (h : s.clearCycle core) : (domOfCore s.sys core).st = .run := by
  obtain ⟨d, hd, hrun, _⟩ := h
  simpa [domOfCore, hd] using hrun

/-- A landing made, unless a freeze has already made it (log entry 91). -/
def landed (y : Sys) (core : Nat) (l : Landing) : Sys := if l.done then y else makeLanding y core l

section
variable {tab : Instr → Option Back} {s : State} {core lid : Nat} {l : Landing} (hs : s.clearCycle core)
  (hl : (s.sys.landingsOf core).find? (fun x => x.lid == lid) = some l) (hdue : l.due ≤ (domOfCore s.sys core).ttc s.gtc)
include hs hl hdue

theorem landOne_of_due : landOne tab s core lid =
    let z := landed (s.sys.withoutLanding core lid) core l
    if l.useq = 2 ^ 64 then (List.range 3).foldl (fun y r => retire tab { s with sys := y } y core r) z
    else retire tab s z core l.urole := by
  have hrun := domOfCore_run_of_clearCycle hs
  have hgo : ((domOfCore s.sys core).st != .run || decide ((domOfCore s.sys core).ttc s.gtc < l.due)) = false := by
    simp [hrun, hdue]
  unfold Sys.landingsOf at hl
  simp only [landOne, guarded_of_clearCycle hs, hl, hgo, Bool.false_eq_true, if_false]
  rfl

/-- A landing that is due is taken out of those in flight and made; what else the event does is to retire entries. -/
theorem landOne_requeuedAt (hr : l.urole < 3) :
    RequeuedAt core (landed (s.sys.withoutLanding core lid) core l) (landOne tab s core lid) := by
  rw [landOne_of_due hs hl hdue]
  dsimp only
  split
  · exact retireAll_requeuedAt ..
  · exact retire_requeuedAt _ _ _ _ hr

end

end Sys2Proof.Machine

/-! PROOFS. The places that a landing through a write stream stores to, its bytes there, and the stream that moves on (R155, R167). -/

namespace Sys2Proof.Machine

/-! ## Places, with a landing taken out of those in flight -/

theorem coreOf_withoutLanding (y : Sys) (core lid x : Nat) : coreOf (y.withoutLanding core lid) x =
    if x = core then { coreOf y core with landings := (y.landingsOf core).filter fun x => x.lid != lid } else coreOf y x := by
  simp [Sys.withoutLanding, coreOf_setCore]

/-- What is read of a core beside its landings in flight stays. -/
theorem withoutLanding_read {α : Type} (f : Core → α) (y : Sys) (core lid x : Nat)
    (hf : ∀ (c : Core) ls, f { c with landings := ls } = f c := by intro _ _; rfl) :
    f (coreOf (y.withoutLanding core lid) x) = f (coreOf y x) := by
  rw [coreOf_withoutLanding]
  split
  case isTrue h => rw [hf, h]
  case isFalse => rfl

theorem spTarget_withoutLanding (y : Sys) (core lid c a : Nat) : spTarget (y.withoutLanding core lid) c a = spTarget y c a := by
  have hdom : domOfCore (y.withoutLanding core lid) c = domOfCore y c := by
    rw [domOfCore, withoutLanding_read Core.dom]
    rfl
  simp only [spTarget, hdom, withoutLanding_read Core.grp, withoutLanding_read Core.vdid]

theorem elemAddr_withoutLanding (y : Sys) (core lid c b : Nat) (d : Int) :
    elemAddr (y.withoutLanding core lid) c b d = elemAddr y c b d := by
  have h : spAddr (y.withoutLanding core lid) c = spAddr y c := by
    funext a
    simp only [spAddr, spTarget_withoutLanding, withoutLanding_read Core.partN]
  unfold elemAddr
  rw [h]

/-! ## The elements of a stream's chunk -/

/-- The core that an address names lies in its bits from 22 on (R27). -/
theorem spTarget_add (y : Sys) (core f : Nat) {n : Nat} (h : n < 4194304) :
    spTarget y core (f * 4194304 + n) = spTarget y core (f * 4194304) := by
  have hdiv : (f * 4194304 + n) / 2 ^ 22 = f * 4194304 / 2 ^ 22 := by omega
  have hhi : field (f * 4194304 + n) 63 30 = field (f * 4194304) 63 30 := by
    simp only [field, show (30 : Nat) = 22 + 8 from rfl, Nat.pow_add 2 22 8, ← Nat.div_div_eq_div_mul, hdiv]
  have hlo : field (f * 4194304 + n) 29 22 = field (f * 4194304) 29 22 := by simp only [field, hdiv]
  simp only [spTarget, hhi, hlo]

theorem field_offset (f : Nat) {n : Nat} (h : n < 4194304) : field (f * 4194304 + n) 21 0 = n := by
  simp only [field]
  omega

theorem spAddr_eq_some {y : Sys} {core a x o : Nat} (h : spAddr y core a = some (x, o)) :
    spTarget y core a = some x ∧ o = field a 21 0 := by
  unfold spAddr at h
  split at h
  case h_1 => exact absurd h (by simp)
  case h_2 t ht =>
    split at h
    · simp only [Option.some.injEq, Prod.mk.injEq] at h
      exact ⟨h.1 ▸ ht, h.2.symm⟩
    · exact absurd h (by simp)

/-- A displacement moves an address within the scratchpad of one core (R155). -/
theorem elemAddr_eq_some {y : Sys} {core b x o : Nat} {d : Int} (h : elemAddr y core b d = some (x, o)) :
    spTarget y core (field b 29 22 * 4194304) = some x ∧ (o : Int) = (field b 21 0 : Int) + d := by
  unfold elemAddr at h
  split at h
  case isTrue => exact absurd h (by simp)
  case isFalse =>
    dsimp only at h
    split at h
    case isTrue => exact absurd h (by simp)
    case isFalse hoff =>
      simp only [Bool.or_eq_true, decide_eq_true_eq, not_or] at hoff
      obtain ⟨hx, ho⟩ := spAddr_eq_some h
      rw [spTarget_add y core _ (by omega)] at hx
      rw [field_offset _ (by omega)] at ho
      exact ⟨hx, by omega⟩

/-- Where a landing through a stream stores its working lane w. -/
def streamPlace (y : Sys) (core : Nat) (st : Stream) (l : Landing) (w : Nat) : Option (Nat × Nat) :=
  elemAddr y core st.base (l.disp + 4 * ((l.row * (coreOf y core).lanes + w : Nat) : Int))

/-- The working lanes of a row whose containers a landing enables. -/
def laneOn (c : Core) (l : Landing) (w : Nat) : Prop := w < c.lanes ∧ l.enable.testBit (c.phys w) = true

/-- The bytes that a landing stores through a stream, each with its core and offset. -/
def streamBytes (y : Sys) (core : Nat) (st : Stream) (l : Landing) : List (Nat × Nat × Byte) :=
  let c := coreOf y core
  ((List.range c.lanes).filter fun w => l.enable.testBit (c.phys w)).flatMap fun w =>
    match streamPlace y core st l w with
    | some (t, o) => (List.range 4).map fun b => (t, o + b, BitVec.ofNat 8 ((l.data[c.phys w]?).getD 0 / 256 ^ b))
    | none => []

theorem mem_streamBytes {y : Sys} {core : Nat} {st : Stream} {l : Landing} {x a : Nat} {v : Byte} :
    (x, a, v) ∈ streamBytes y core st l ↔ ∃ w o, laneOn (coreOf y core) l w ∧ streamPlace y core st l w = some (x, o) ∧
      ∃ b < 4, a = o + b ∧ v = BitVec.ofNat 8 ((l.data[(coreOf y core).phys w]?).getD 0 / 256 ^ b) := by
  simp only [streamBytes, List.mem_flatMap, List.mem_filter, List.mem_range, laneOn]
  constructor
  · rintro ⟨w, hw, hmem⟩
    split at hmem
    case h_1 t o hplace =>
      simp only [List.mem_map, List.mem_range, Prod.mk.injEq] at hmem
      obtain ⟨b, hb, rfl, rfl, rfl⟩ := hmem
      exact ⟨w, o, hw, hplace, b, hb, rfl, rfl⟩
    case h_2 => exact absurd hmem List.not_mem_nil
  · rintro ⟨w, o, hw, hplace, b, hb, rfl, rfl⟩
    refine ⟨w, hw, ?_⟩
    rw [hplace]
    exact List.mem_map.2 ⟨b, List.mem_range.2 hb, rfl⟩

/-- All of them lie in one core, and no two of them at one offset differ. -/
theorem streamBytes_agree {y : Sys} {core : Nat} {st : Stream} {l : Landing} {x a x' a' : Nat} {v v' : Byte}
    (h : (x, a, v) ∈ streamBytes y core st l) (h' : (x', a', v') ∈ streamBytes y core st l) : x' = x ∧ (a' = a → v' = v) := by
  obtain ⟨w, o, _, hplace, b, hb, ha, hv⟩ := mem_streamBytes.1 h
  obtain ⟨w', o', _, hplace', b', hb', ha', hv'⟩ := mem_streamBytes.1 h'
  obtain ⟨hx, ho⟩ := elemAddr_eq_some hplace
  obtain ⟨hx', ho'⟩ := elemAddr_eq_some hplace'
  refine ⟨Option.some.inj (hx'.symm.trans hx), fun he => ?_⟩
  obtain ⟨rfl, rfl⟩ : w' = w ∧ b' = b := by omega
  rw [hv, hv']

/-- Bytes of one core stored there. -/
def storeBytes (y : Sys) (bs : List (Nat × Nat × Byte)) : Sys :=
  match bs with
  | [] => y
  | (t, _, _) :: _ => setCore y ((coreOf y t).backWrite (bs.map fun x => (x.2.1, x.2.2)))

theorem backWrite_id (c : Core) (ws : List (Nat × Byte)) : (c.backWrite ws).id = c.id := by
  obtain ⟨_, _, _, _, h⟩ := backWrite_stored c ws
  rw [h]

theorem coreOf_storeBytes_cons (y : Sys) (p : Nat × Nat × Byte) (bs : List (Nat × Nat × Byte)) (x : Nat) :
    coreOf (storeBytes y (p :: bs)) x =
      if x = p.1 then (coreOf y p.1).backWrite ((p :: bs).map fun q => (q.2.1, q.2.2)) else coreOf y x := by
  rw [storeBytes, coreOf_setCore, backWrite_id, coreOf_id]

theorem storeBytes_stored (y : Sys) (bs : List (Nat × Nat × Byte)) (x : Nat) : (coreOf y x).Stored (coreOf (storeBytes y bs) x) := by
  cases bs with
  | nil => exact .refl _
  | cons p bs =>
    rw [coreOf_storeBytes_cons]
    split
    case isTrue h => exact h ▸ backWrite_stored ..
    case isFalse => exact .refl _

/-- A byte that some bytes of one core store holds their value, if they agree on it; every other byte stays. -/
theorem sbyte_storeBytes {bs : List (Nat × Nat × Byte)} {x a : Nat} {v : Byte} (y : Sys)
    (hone : ∀ p ∈ bs, ∀ p' ∈ bs, p'.1 = p.1) (hv : ∀ p ∈ bs, p.1 = x → p.2.1 = a → p.2.2 = v) :
    (coreOf (storeBytes y bs) x).sbyte a = if ∃ p ∈ bs, p.1 = x ∧ p.2.1 = a then v else (coreOf y x).sbyte a := by
  cases bs with
  | nil => simp [storeBytes]
  | cons p bs =>
    have hcore : ∀ q ∈ p :: bs, q.1 = p.1 := hone p List.mem_cons_self
    rw [coreOf_storeBytes_cons]
    by_cases hx : x = p.1
    · subst hx
      rw [if_pos rfl, sbyte_backWrite (b := v)]
      · refine if_congr ?_ rfl rfl
        simp only [List.mem_map, exists_exists_and_eq_and]
        exact exists_congr fun q => and_congr_right fun hq => by simp [hcore q hq]
      · intro w hw hwa
        obtain ⟨q, hq, rfl⟩ := List.mem_map.1 hw
        exact hv q hq (hcore q hq) hwa
    · rw [if_neg hx, if_neg]
      rintro ⟨q, hq, hqx, _⟩
      exact hx (hqx ▸ hcore q hq)

/-! ## A stream that moves on (R167) -/

theorem Stream.advance_cur {st : Stream} {a b q x y z : Nat} (hcur : st.cur = [a, b, q]) (hcount : st.count = [x, y, z]) :
    st.advance.cur = if a + 1 < x then [a + 1, b, q] else if b + 1 < y then [0, b + 1, q] else if q + 1 < z then [0, 0, q + 1]
      else [0, 0, 0] := by
  simp only [Stream.advance, hcur, hcount]
  split_ifs <;> rfl

theorem Stream.advance_eq {st : Stream} {a b q x y z : Nat} (hcur : st.cur = [a, b, q]) (hcount : st.count = [x, y, z]) :
    st.advance = { st with
      cur := if a + 1 < x then [a + 1, b, q] else if b + 1 < y then [0, b + 1, q] else if q + 1 < z then [0, 0, q + 1] else [0, 0, 0]
      ended := st.ended || decide (x ≤ a + 1 ∧ y ≤ b + 1 ∧ z ≤ q + 1) } := by
  simp only [Stream.advance, hcur, hcount]
  split_ifs with ha hb hq
  · simp [Nat.not_le.2 ha]
  · simp [Nat.not_le.2 hb]
  · simp [Nat.not_le.2 hq]
  · simp [Nat.le_of_not_lt ha, Nat.le_of_not_lt hb, Nat.le_of_not_lt hq]

theorem Stream.advance_wraps {st : Stream} {a b q x y z : Nat} (hcur : st.cur = [a, b, q]) (hcount : st.count = [x, y, z]) :
    (st.advance.cur == [0, 0, 0]) = decide (x ≤ a + 1 ∧ y ≤ b + 1 ∧ z ≤ q + 1) := by
  rw [Stream.advance_cur hcur hcount, Bool.eq_iff_iff, beq_iff_eq, decide_eq_true_eq]
  split_ifs with ha hb hq
  · simp [ha]
  · simp [hb]
  · simp [hq]
  · simp; omega

theorem Core.advance_of_streamAt {c : Core} {sid : Nat} {st : Stream} (h : c.streamAt sid = some st) :
    c.advance sid = { c with
      streams := c.streams.map fun r => if r.sid == sid then st.advance else r
      streamend := if st.advance.cur == [0, 0, 0] then c.streamend ||| (1#64 <<< st.reg) else c.streamend } := by
  simp only [Core.advance, h]

end Sys2Proof.Machine

/-! PROOFS. The landings of each target, made (R16, R19, R24, R123, R151, R153, R167). -/

namespace Sys2Proof.Machine

/-! ## Control registers -/

/-- The control registers of a role in which a landing has been made (R122). -/
def Csrs.land (q : Csrs) (csr val : Nat) : Csrs :=
  { q with
    vl := if csr = 0x000 then val else q.vl, strip := if csr = 0x005 then d64 val else q.strip
    flagcause := if csr = 0x007 then d64 val else q.flagcause, wgen := if csr = 0x008 then d64 val else q.wgen
    xdue := if csr = 0x009 then d64 val else q.xdue }

/-- A core in whose own control registers a landing has been made (R75, R174). -/
def Core.landCsr (c : Core) (csr val : Nat) : Core :=
  { c with
    tsm := if csr = 0x047 then d64 val else c.tsm, tsn := if csr = 0x048 then d64 val else c.tsn
    tsk := if csr = 0x049 then d64 val else c.tsk
    ringExp := if 0x1000 ≤ csr then c.ringExp.setIfInBounds (csr - 0x1000) (BitVec.ofNat 16 val) else c.ringExp }

theorem Core.setRole_self (c : Core) {r : Nat} (hr : r < 3) : c.setRole r (c.role r) = c := by
  have hroles : c.roles.setIfInBounds r (c.role r) = c.roles := by
    ext1 i hi
    rw [Vector.getElem_setIfInBounds]
    split
    case isTrue h =>
      subst h
      obtain rfl | rfl | rfl : r = 0 ∨ r = 1 ∨ r = 2 := by omega
      all_goals rfl
    case isFalse => rfl
  rw [Core.setRole, hroles]

theorem Csrs.land_of_other (q : Csrs) {csr : Nat} (val : Nat) (h : csr ∉ [0x000, 0x005, 0x007, 0x008, 0x009]) : q.land csr val = q := by
  simp only [List.mem_cons, List.not_mem_nil, or_false, not_or] at h
  obtain ⟨h0, h5, h7, h8, h9⟩ := h
  simp only [Csrs.land, if_neg h0, if_neg h5, if_neg h7, if_neg h8, if_neg h9]

theorem putCsr_eq (c : Core) {role : Nat} (csr val : Nat) (hr : role < 3) : putCsr c role csr val =
    (c.landCsr csr val).setRole role { c.role role with csrs := (c.role role).csrs.land csr val } := by
  by_cases hrole : csr ∈ [0x000, 0x005, 0x007, 0x008, 0x009]
  · simp only [List.mem_cons, List.not_mem_nil, or_false] at hrole
    obtain rfl | rfl | rfl | rfl | rfl := hrole <;> rfl
  · rw [Csrs.land_of_other _ _ hrole]
    have hself : (c.landCsr csr val).setRole role (c.role role) = c.landCsr csr val := (c.landCsr csr val).setRole_self hr
    refine Eq.trans ?_ hself.symm
    simp only [List.mem_cons, List.not_mem_nil, or_false, not_or] at hrole
    obtain ⟨h0, h5, h7, h8, h9⟩ := hrole
    unfold putCsr
    dsimp only
    rw [if_neg h0, if_neg h5, if_neg h7, if_neg h8, if_neg h9]
    by_cases hm : csr = 0x047
    · subst hm; rfl
    by_cases hn : csr = 0x048
    · subst hn; rfl
    by_cases hk : csr = 0x049
    · subst hk; rfl
    simp only [Core.landCsr, if_neg hm, if_neg hn, if_neg hk]
    split <;> rfl

/-! ## In the core that the landing is of -/

/-- A core in which a row of a vector register has landed. -/
def Core.landRow (c : Core) (l : Landing) : Core :=
  { c with
    pool := putContainers c.pool (2048 * l.reg + 256 * l.row) l.enable l.data
    dirty := c.dirty ||| (1#64 <<< l.reg)
    ringTags := if l.last && isRing c.partN l.reg then
      c.ringTags.setIfInBounds (l.reg - rbase c.partN) (((c.ringTags[l.reg - rbase c.partN]?).getD 0) + 1) else c.ringTags }

/-- A core in which a landing of its own, neither in a scratchpad nor through a stream, has been made with a value. -/
def Core.land (c : Core) (l : Landing) (v : Nat) : Core :=
  match l.tgt with
  | .vec => c.landRow l
  | .mask =>
    if l.reg = 0 then c
    else { c with masks := c.masks.setIfInBounds l.reg (putMaskRow ((c.masks[l.reg]?).getD 0) c.lanes l.row l.enable v) }
  | .scalar => c.setRole l.urole ((c.role l.urole).setS l.reg (d64 v))
  | .tile => { c with
      pool := putContainers c.pool (tileBase c.partN l.reg + 256 * l.row) l.enable l.data
      dirtya := c.dirtya ||| (1#64 <<< l.reg) }
  | .csr => (c.landCsr l.reg v).setRole l.urole { c.role l.urole with csrs := (c.role l.urole).csrs.land l.reg v }
  | .slot => { c with omem := putContainers c.omem (32768 * l.reg + 256 * l.row) l.enable l.data }
  | .spad => c

theorem Core.land_id (c : Core) (l : Landing) (v : Nat) : (c.land l v).id = c.id := by
  unfold Core.land
  split
  case h_2 => split <;> rfl
  all_goals rfl

theorem landVec_of_register {y : Sys} {core : Nat} {l : Landing} (hs : l.strm = false) :
    landVec y core l = setCore y ((coreOf y core).landRow l) := by
  let c := coreOf y core
  have hpush : ∀ (b : Bool) (ts : Vector (BitVec 16) 8),
      (if b then { c with
          pool := putContainers c.pool (2048 * l.reg + 256 * l.row) l.enable l.data, dirty := c.dirty ||| (1#64 <<< l.reg), ringTags := ts }
        else { c with pool := putContainers c.pool (2048 * l.reg + 256 * l.row) l.enable l.data, dirty := c.dirty ||| (1#64 <<< l.reg) }) =
      { c with
        pool := putContainers c.pool (2048 * l.reg + 256 * l.row) l.enable l.data, dirty := c.dirty ||| (1#64 <<< l.reg)
        ringTags := if b then ts else c.ringTags } := fun b ts => by cases b <;> rfl
  unfold landVec
  rw [hs]
  exact congrArg (setCore y) (hpush (l.last && isRing c.partN l.reg) _)

theorem coreOf_makeLanding_own {y : Sys} {core : Nat} {l : Landing} (hs : l.tgt = .vec → l.strm = false) (ht : l.tgt ≠ .spad) (hr : l.urole < 3)
    (x : Nat) : coreOf (makeLanding y core l) x = if x = core then (coreOf y core).land l (landValue y l) else coreOf y x := by
  have hput : coreOf (setCore y ((coreOf y core).land l (landValue y l))) x =
      if x = core then (coreOf y core).land l (landValue y l) else coreOf y x := by
    rw [coreOf_setCore, Core.land_id, coreOf_id]
  rw [← hput]
  unfold makeLanding Core.land
  cases h : l.tgt with
  | spad => exact absurd h ht
  | vec => exact congrArg (coreOf · x) (landVec_of_register (hs h))
  | csr => exact congrArg (fun c => coreOf (setCore y c) x) (putCsr_eq _ _ _ hr)
  | mask =>
    dsimp only
    split
    · rw [coreOf_setCore, coreOf_id]
      split
      case isTrue hx => rw [hx]
      case isFalse => rfl
    · rfl
  | _ => rfl

theorem ringTag_landRow (c : Core) (l : Landing) {v : Nat} (hv : isRing c.partN v = true) (h8 : v - rbase c.partN < 8) :
    (c.landRow l).ringTag v = if v = l.reg ∧ l.last = true then (c.ringTag v + 1) % 65536 else c.ringTag v := by
  show (((c.landRow l).ringTags[v - rbase c.partN]?).getD 0).toNat = _
  have hbase := (isRing_iff.1 hv).1
  cases hlast : l.last with
  | false => simp [Core.landRow, hlast, Core.ringTag]
  | true =>
    by_cases hring : isRing c.partN l.reg = true
    · have hreg := (isRing_iff.1 hring).1
      by_cases he : v = l.reg
      · subst he
        simp [Core.landRow, hlast, hring, Core.ringTag, h8, BitVec.toNat_add]
      · have hne : l.reg - rbase c.partN ≠ v - rbase c.partN := by omega
        simp [Core.landRow, hlast, hring, Core.ringTag, he, Vector.getElem?_setIfInBounds_ne, hne]
    · have he : v ≠ l.reg := fun h => hring (h ▸ hv)
      simp [Core.landRow, hring, Core.ringTag, he]

theorem mbit_land {c : Core} {l : Landing} (v : Nat) (ht : l.tgt = .mask) (hreg : l.reg < 16) {m i : Nat} (hi : i < 512) (hm : m < 16) :
    (c.land l v).mbit m i =
      if m = l.reg ∧ m ≠ 0 ∧ l.row * c.lanes ≤ i ∧ i < l.row * c.lanes + c.lanes ∧ l.enable.testBit (i - l.row * c.lanes) then
        v.testBit (i - l.row * c.lanes)
      else c.mbit m i := by
  by_cases hm0 : m = 0
  · simp [Core.mbit, hm0]
  · by_cases he : m = l.reg
    · subst he
      simp [Core.land, ht, Core.mbit, hm0, hreg, putMaskRow_eq, getLsbD_putBits _ _ _ _ _ hi]
    · by_cases hreg0 : l.reg = 0 <;> simp [Core.land, ht, Core.mbit, hm0, he, Ne.symm he, hreg0, Vector.getElem?_setIfInBounds_ne]

theorem land_of_vec {c : Core} {l : Landing} (v : Nat) (ht : l.tgt = .vec) : c.land l v = c.landRow l := by rw [Core.land, ht]

theorem pool_land_of_tile {c : Core} {l : Landing} (v : Nat) (ht : l.tgt = .tile) :
    (c.land l v).pool = putContainers c.pool (tileBase c.partN l.reg + 256 * l.row) l.enable l.data ∧
      (c.land l v).dirtya = c.dirtya ||| (1#64 <<< l.reg) := by
  rw [Core.land, ht]
  exact ⟨rfl, rfl⟩

theorem omem_land_of_slot {c : Core} {l : Landing} (v : Nat) (ht : l.tgt = .slot) :
    (c.land l v).omem = putContainers c.omem (32768 * l.reg + 256 * l.row) l.enable l.data ∧ (c.land l v).pool = c.pool := by
  rw [Core.land, ht]
  exact ⟨rfl, rfl⟩

theorem s_role_land_of_scalar {c : Core} {l : Landing} (v n : Nat) (ht : l.tgt = .scalar) (hr : l.urole < 3) (hreg : l.reg < 32) :
    ((c.land l v).role l.urole).s n = if n = l.reg ∧ n ≠ 0 then d64 v else (c.role l.urole).s n := by
  rw [Core.land, ht]
  dsimp only
  rw [Core.role_setRole_same _ _ _ hr, RoleSt.s_setS _ _ _ _ hreg]
  by_cases hn : n = 0
  · simp [hn]
  · simp [hn]

theorem land_of_csr {c : Core} {l : Landing} (v : Nat) (ht : l.tgt = .csr) : c.land l v =
    (c.landCsr l.reg v).setRole l.urole { c.role l.urole with csrs := (c.role l.urole).csrs.land l.reg v } := by rw [Core.land, ht]

theorem csrs_role_land_of_csr {c : Core} {l : Landing} (v : Nat) (ht : l.tgt = .csr) (hr : l.urole < 3) :
    ((c.land l v).role l.urole).csrs = (c.role l.urole).csrs.land l.reg v := by
  rw [land_of_csr v ht, Core.role_setRole_same _ _ _ hr]

theorem landings_land (c : Core) (l : Landing) (v : Nat) : (c.land l v).landings = c.landings := by
  unfold Core.land
  split
  case h_2 => split <;> rfl
  all_goals rfl

theorem s_role_land (c : Core) {l : Landing} (v q : Nat) (ht : l.tgt ≠ .scalar) (hr : l.urole < 3) :
    ((c.land l v).role q).s = (c.role q).s := by
  unfold Core.land
  split
  case h_2 => split <;> rfl
  case h_3 h => exact absurd h ht
  case h_5 =>
    rw [Core.role_setRole _ _ _ hr]
    split
    case isTrue hq =>
      rw [Core.role_min c q, hq]
      rfl
    case isFalse => rfl
  all_goals rfl

/-! ## In a scratchpad (R151, R153) -/

/-- The bytes of a landing in a scratchpad, by offset. -/
def spadWrites (l : Landing) : List (Nat × Byte) := (spadBytes l).map fun p => (field l.addr 21 0 + p.1, p.2)

/-- A byte that a landing in a scratchpad stores. -/
abbrev spadOn (l : Landing) (a : Nat) : Prop :=
  field l.addr 21 0 ≤ a ∧ a < field l.addr 21 0 + 256 ∧ l.enable.testBit (a - field l.addr 21 0) = true

theorem mem_spadWrites {l : Landing} {a : Nat} {v : Byte} :
    (a, v) ∈ spadWrites l ↔ spadOn l a ∧ v = rowByte l.data (a - field l.addr 21 0) := by
  simp only [spadWrites, spadBytes, List.mem_map, List.mem_filterMap, List.mem_range, Prod.mk.injEq]
  constructor
  · rintro ⟨p, ⟨b, hb, hp⟩, rfl, rfl⟩
    split at hp
    case isTrue hon =>
      obtain rfl := Option.some.inj hp
      rw [spadOn, Nat.add_sub_cancel_left]
      exact ⟨⟨Nat.le_add_right _ _, Nat.add_lt_add_left hb _, hon⟩, rfl⟩
    case isFalse => exact absurd hp (by simp)
  · rintro ⟨⟨hlo, hhi, hon⟩, rfl⟩
    exact ⟨_, ⟨a - field l.addr 21 0, by omega, if_pos hon⟩, by dsimp only; omega, rfl⟩

theorem exists_mem_spadWrites {l : Landing} {p : Nat → Prop} : (∃ w ∈ spadWrites l, p w.1) ↔ ∃ a, spadOn l a ∧ p a :=
  ⟨fun ⟨_, hw, hp⟩ => ⟨_, (mem_spadWrites.1 hw).1, hp⟩, fun ⟨_, ha, hp⟩ => ⟨_, mem_spadWrites.2 ⟨ha, rfl⟩, hp⟩⟩

theorem coreOf_makeLanding_spad {y : Sys} {core x : Nat} {l : Landing} (ht : l.tgt = .spad) (hx : spTarget y core l.addr = some x) (z : Nat) :
    coreOf (makeLanding y core l) z = if z = x then (coreOf y x).backWrite (spadWrites l) else coreOf y z := by
  have h : makeLanding y core l = setCore y ((coreOf y x).backWrite (spadWrites l)) := by
    unfold makeLanding
    rw [ht]
    dsimp only
    rw [hx]
    rfl
  rw [h, coreOf_setCore, backWrite_id, coreOf_id]

theorem makeLanding_of_noTarget {y : Sys} {core : Nat} {l : Landing} (ht : l.tgt = .spad) (hx : spTarget y core l.addr = none) :
    makeLanding y core l = y := by
  unfold makeLanding
  rw [ht]
  dsimp only
  rw [hx]

/-! ## Through a write stream (R167) -/

theorem makeLanding_of_stream {y : Sys} {core : Nat} {l : Landing} {st : Stream} (ht : l.tgt = .vec) (hs : l.strm = true)
    (hst : (coreOf y core).streamAt l.addr = some st) :
    makeLanding y core l =
      let z := storeBytes y (streamBytes y core st l)
      if l.last then setCore z ((coreOf z core).advance l.addr) else z := by
  unfold makeLanding landVec
  rw [ht, hs]
  dsimp only
  rw [if_pos rfl, hst]
  rfl

theorem makeLanding_of_noStream {y : Sys} {core : Nat} {l : Landing} (ht : l.tgt = .vec) (hs : l.strm = true)
    (hst : (coreOf y core).streamAt l.addr = none) : makeLanding y core l = y := by
  unfold makeLanding landVec
  rw [ht, hs]
  dsimp only
  rw [if_pos rfl, hst]

end Sys2Proof.Machine

/-! PROOFS. The event of a landing as a whole: what it writes, and what it leaves alone. -/

namespace Sys2Proof.Machine

/-! ## What every landing leaves alone -/

theorem advance_frame (c : Core) (sid : Nat) : ∃ ss e, c.advance sid = { c with streams := ss, streamend := e } := by
  unfold Core.advance
  split
  · exact ⟨_, _, rfl⟩
  · exact ⟨_, _, rfl⟩

/-- A landing in a scratchpad or through a stream changes neither the landings in flight nor the roles of its core. -/
theorem makeLanding_keeps_of_not_own {y : Sys} {core : Nat} {l : Landing} (h : l.tgt = .spad ∨ l.tgt = .vec ∧ l.strm = true) :
    (coreOf (makeLanding y core l) core).landings = (coreOf y core).landings ∧
      (coreOf (makeLanding y core l) core).roles = (coreOf y core).roles := by
  obtain ht | ⟨ht, hs⟩ := h
  · cases hx : spTarget y core l.addr with
    | none => rw [makeLanding_of_noTarget ht hx]; exact ⟨rfl, rfl⟩
    | some x =>
      rw [coreOf_makeLanding_spad ht hx]
      split
      case isTrue h =>
        obtain ⟨_, _, _, _, hk⟩ := backWrite_stored (coreOf y x) (spadWrites l)
        rw [hk, h]
        exact ⟨rfl, rfl⟩
      case isFalse => exact ⟨rfl, rfl⟩
  · cases hst : (coreOf y core).streamAt l.addr with
    | none => rw [makeLanding_of_noStream ht hs hst]; exact ⟨rfl, rfl⟩
    | some st =>
      obtain ⟨_, _, _, _, hk⟩ := storeBytes_stored y (streamBytes y core st l) core
      obtain ⟨_, _, ha⟩ := advance_frame (coreOf (storeBytes y (streamBytes y core st l)) core) l.addr
      rw [makeLanding_of_stream ht hs hst]
      dsimp only
      split
      · rw [coreOf_setCore, ha, if_pos (by simp), hk]
        exact ⟨rfl, rfl⟩
      · rw [hk]
        exact ⟨rfl, rfl⟩

theorem own_or_not (l : Landing) : ((l.tgt = .vec → l.strm = false) ∧ l.tgt ≠ .spad) ∨ l.tgt = .spad ∨ l.tgt = .vec ∧ l.strm = true := by
  cases l.strm <;> cases l.tgt <;> simp

theorem landings_makeLanding {y : Sys} {core : Nat} {l : Landing} (hr : l.urole < 3) :
    (coreOf (makeLanding y core l) core).landings = (coreOf y core).landings := by
  obtain ⟨hs, ht⟩ | h := own_or_not l
  · rw [coreOf_makeLanding_own hs ht hr, if_pos rfl, landings_land]
  · exact (makeLanding_keeps_of_not_own h).1

theorem s_role_makeLanding {y : Sys} {core : Nat} {l : Landing} (hr : l.urole < 3) (hsc : l.tgt ≠ .scalar) (q : Nat) :
    ((coreOf (makeLanding y core l) core).role q).s = ((coreOf y core).role q).s := by
  obtain ⟨hs, ht⟩ | h := own_or_not l
  · rw [coreOf_makeLanding_own hs ht hr, if_pos rfl, s_role_land _ _ _ hsc hr]
  · simp only [Core.role, (makeLanding_keeps_of_not_own h).2]

/-! ## The event -/

/-- A core from whose landings in flight one has been taken out. -/
def Core.withoutLanding (c : Core) (lid : Nat) : Core := { c with landings := c.landings.filter fun x => x.lid != lid }

theorem streamBytes_withoutLanding (y : Sys) (core lid : Nat) (st : Stream) (l : Landing) :
    streamBytes (y.withoutLanding core lid) core st l = streamBytes y core st l := by
  have hplace : streamPlace (y.withoutLanding core lid) core st l = streamPlace y core st l := by
    funext w
    rw [streamPlace, elemAddr_withoutLanding, withoutLanding_read Core.lanes]
    rfl
  simp only [streamBytes, hplace, withoutLanding_read Core.lanes, withoutLanding_read Core.phys]

theorem coreOf_withoutLanding_same (y : Sys) (core lid : Nat) :
    coreOf (y.withoutLanding core lid) core = (coreOf y core).withoutLanding lid := by
  rw [coreOf_withoutLanding, if_pos rfl]
  rfl

section
variable {s : State} {core lid : Nat} {l : Landing} (hs : s.clearCycle core) (hr : l.urole < 3)
  (hl : (s.sys.landingsOf core).find? (fun x => x.lid == lid) = some l) (hdue : l.due ≤ (domOfCore s.sys core).ttc s.gtc)
include hs hr hl hdue

theorem landings_landOne : (coreOf (landOne backOf s core lid) core).landings =
    (coreOf s.sys core).landings.filter fun x => x.lid != lid := by
  have h := (landOne_requeuedAt (tab := backOf) hs hl hdue hr).2.read Core.landings
  have hland : (coreOf (landed (s.sys.withoutLanding core lid) core l) core).landings =
      (coreOf (s.sys.withoutLanding core lid) core).landings := by
    unfold landed
    split
    · rfl
    · exact landings_makeLanding hr
  rw [h, hland, coreOf_withoutLanding_same]
  rfl

theorem landOne_of_done (hdone : l.done = true) :
    ((coreOf s.sys core).withoutLanding lid).Requeued (coreOf (landOne backOf s core lid) core) := by
  have h := (landOne_requeuedAt (tab := backOf) hs hl hdue hr).2
  rwa [landed, if_pos hdone, coreOf_withoutLanding_same] at h

variable (hdone : l.done = false)
include hdone

/-- A landing that is still to be made is made. -/
theorem landOne_makes :
    RequeuedAt core (makeLanding (s.sys.withoutLanding core lid) core l) (landOne backOf s core lid) := by
  have h := landOne_requeuedAt (tab := backOf) hs hl hdue hr
  rwa [landed, hdone, if_neg Bool.false_ne_true] at h

/-- A landing of a core's own leaves the core as `Core.land` says. -/
theorem landOne_own (hv : l.tgt = .vec → l.strm = false) (ht : l.tgt ≠ .spad) :
    (((coreOf s.sys core).withoutLanding lid).land l (landValue s.sys l)).Requeued (coreOf (landOne backOf s core lid) core) := by
  have h := (landOne_makes hs hr hl hdue hdone).2
  rw [coreOf_makeLanding_own hv ht hr, if_pos rfl, coreOf_withoutLanding_same] at h
  exact h

theorem landOne_other (hv : l.strm = false) (ht : l.tgt ≠ .spad) {x : Nat} (hx : x ≠ core) :
    coreOf (landOne backOf s core lid) x = coreOf s.sys x := by
  rw [(landOne_makes hs hr hl hdue hdone).1 x hx, coreOf_makeLanding_own (fun _ => hv) ht hr, if_neg hx, coreOf_withoutLanding,
    if_neg hx]

theorem s_role_landOne (hsc : l.tgt ≠ .scalar) (q : Nat) :
    ((coreOf (landOne backOf s core lid) core).role q).s = ((coreOf s.sys core).role q).s := by
  obtain ⟨rs, _, hregs⟩ := (landOne_makes hs hr hl hdue hdone).2
  rw [(hregs q).1, s_role_makeLanding hr hsc, coreOf_withoutLanding_same]
  rfl

/-- A landing in a scratchpad stores its bytes there. -/
theorem landOne_spad (ht : l.tgt = .spad) {x : Nat} (hx : spTarget s.sys core l.addr = some x) :
    ((coreOf (s.sys.withoutLanding core lid) x).backWrite (spadWrites l)).Requeued (coreOf (landOne backOf s core lid) x) := by
  have h := (landOne_makes hs hr hl hdue hdone).core x
  rwa [coreOf_makeLanding_spad ht ((spTarget_withoutLanding ..).trans hx), if_pos rfl] at h

/-- A landing through a stream stores its bytes in the scratchpads, and the stream moves on with the last row. -/
theorem landOne_stream (ht : l.tgt = .vec) (hv : l.strm = true) {st : Stream} (hst : (coreOf s.sys core).streamAt l.addr = some st) :
    let z := storeBytes (s.sys.withoutLanding core lid) (streamBytes s.sys core st l)
    RequeuedAt core (if l.last then setCore z ((coreOf z core).advance l.addr) else z) (landOne backOf s core lid) := by
  have h := landOne_makes hs hr hl hdue hdone
  rwa [makeLanding_of_stream ht hv (st := st) (by rw [coreOf_withoutLanding_same]; exact hst), streamBytes_withoutLanding] at h

end

/-! ## What is read after it -/

section
variable {s : State} {core lid : Nat} {l : Landing} (hs : s.clearCycle core) (hr : l.urole < 3)
  (hl : (s.sys.landingsOf core).find? (fun x => x.lid == lid) = some l) (hdue : l.due ≤ (domOfCore s.sys core).ttc s.gtc)
  (hdone : l.done = false)
include hs hr hl hdue hdone

section spad
variable (ht : l.tgt = .spad) {x : Nat} (hx : spTarget s.sys core l.addr = some x)
include ht hx

theorem sbyte_landOne_spad (a : Nat) : (coreOf (landOne backOf s core lid) x).sbyte a =
    if spadOn l a then rowByte l.data (a - field l.addr 21 0) else (coreOf s.sys x).sbyte a := by
  rw [(landOne_spad hs hr hl hdue hdone ht hx).read (·.sbyte a), sbyte_backWrite _ fun w hw h => h ▸ (mem_spadWrites.1 hw).2,
    withoutLanding_read (·.sbyte a)]
  refine if_congr ?_ rfl rfl
  rw [exists_mem_spadWrites (p := (· = a))]
  simp

/-- The word of a stored byte is flagged 1 (log entry 55); the flag of every other word stays. -/
theorem flagCause_landOne_spad (w : Nat) :
    ((∃ b < 4, spadOn l (4 * w + b)) → (coreOf (landOne backOf s core lid) x).flagCause w = 0) ∧
      ((∀ b < 4, ¬ spadOn l (4 * w + b)) → (coreOf (landOne backOf s core lid) x).flagCause w = (coreOf s.sys x).flagCause w) := by
  rw [(landOne_spad hs hr hl hdue hdone ht hx).read (·.flagCause w), flagCause_backWrite, withoutLanding_read (·.flagCause w)]
  constructor
  · rintro ⟨b, hb, hon⟩
    exact if_pos ⟨_, mem_spadWrites.2 ⟨hon, rfl⟩, by dsimp only; omega⟩
  · rintro hoff
    refine if_neg ?_
    rintro ⟨⟨a, v⟩, hmem, rfl⟩
    exact hoff (a % 4) (Nat.mod_lt _ (by decide)) (by rw [Nat.div_add_mod]; exact (mem_spadWrites.1 hmem).1)

theorem mem_poison_landOne_spad (g : Nat) : g ∈ (coreOf (landOne backOf s core lid) x).poison ↔
    g ∈ (coreOf s.sys x).poison ∧ ¬ ∀ i < 64, spadOn l (64 * g + i) := by
  rw [(landOne_spad hs hr hl hdue hdone ht hx).read Core.poison, mem_poison_backWrite, withoutLanding_read Core.poison]
  refine and_congr_right fun _ => not_congr (forall₂_congr fun i _ => ?_)
  rw [exists_mem_spadWrites (p := (· = 64 * g + i))]
  simp

theorem tags_landOne_spad : (coreOf (landOne backOf s core lid) x).tags = (coreOf s.sys x).tags := by
  obtain ⟨_, _, _, _, hk⟩ := backWrite_stored (coreOf (s.sys.withoutLanding core lid) x) (spadWrites l)
  rw [(landOne_spad hs hr hl hdue hdone ht hx).read Core.tags, hk]
  exact withoutLanding_read Core.tags ..

end spad

section stream
variable (ht : l.tgt = .vec) (hv : l.strm = true) {st : Stream} (hst : (coreOf s.sys core).streamAt l.addr = some st)
include ht hv hst

/-- What is read of a core beside its streams is that of the core with the bytes stored. -/
theorem landOne_stream_read {α : Type} (f : Core → α) (x : Nat) (hf : ∀ c rs, f { c with roles := rs } = f c := by intro _ _; rfl)
    (hf' : ∀ c ss e, f { c with streams := ss, streamend := e } = f c := by intro _ _ _; rfl) :
    f (coreOf (landOne backOf s core lid) x) =
      f (coreOf (storeBytes (s.sys.withoutLanding core lid) (streamBytes s.sys core st l)) x) := by
  rw [((landOne_stream hs hr hl hdue hdone ht hv hst).core x).read f (hf _)]
  split
  · obtain ⟨ss, e, ha⟩ := advance_frame (coreOf (storeBytes (s.sys.withoutLanding core lid) (streamBytes s.sys core st l)) core) l.addr
    rw [coreOf_setCore, ha]
    split
    case isTrue hx => rw [hf', hx, coreOf_id]
    case isFalse => rfl
  · rfl

theorem sbyte_landOne_stream {x a : Nat} {v : Byte} (hval : ∀ w, (x, a, w) ∈ streamBytes s.sys core st l → w = v) :
    (coreOf (landOne backOf s core lid) x).sbyte a =
      if ∃ p ∈ streamBytes s.sys core st l, p.1 = x ∧ p.2.1 = a then v else (coreOf s.sys x).sbyte a := by
  rw [landOne_stream_read hs hr hl hdue hdone ht hv hst (·.sbyte a) x, sbyte_storeBytes (v := v),
    withoutLanding_read (·.sbyte a)]
  · exact fun _ hp _ hp' => (streamBytes_agree hp hp').1
  · rintro ⟨_, _, w⟩ hp rfl rfl
    exact hval w hp

/-- The bytes of a container that a landing enables stand at its element's address. -/
theorem sbyte_landOne_stream_on {w x o b : Nat} (hw : laneOn (coreOf s.sys core) l w) (hplace : streamPlace s.sys core st l w = some (x, o))
    (hb : b < 4) : (coreOf (landOne backOf s core lid) x).sbyte (o + b) =
      BitVec.ofNat 8 ((l.data[(coreOf s.sys core).phys w]?).getD 0 / 256 ^ b) := by
  have hmem := mem_streamBytes.2 ⟨w, o, hw, hplace, b, hb, rfl, rfl⟩
  rw [sbyte_landOne_stream hs hr hl hdue hdone ht hv hst fun _ h => (streamBytes_agree hmem h).2 rfl, if_pos ⟨_, hmem, rfl, rfl⟩]

theorem sbyte_landOne_stream_off {x a : Nat}
    (h : ∀ w o, laneOn (coreOf s.sys core) l w → streamPlace s.sys core st l w = some (x, o) → a < o ∨ o + 4 ≤ a) :
    (coreOf (landOne backOf s core lid) x).sbyte a = (coreOf s.sys x).sbyte a := by
  have hout : ∀ v, (x, a, v) ∉ streamBytes s.sys core st l := fun v hmem => by
    obtain ⟨w, o, hw, hplace, b, hb, ha, _⟩ := mem_streamBytes.1 hmem
    have := h w o hw hplace
    omega
  rw [sbyte_landOne_stream hs hr hl hdue hdone ht hv hst (v := 0) fun v hmem => absurd hmem (hout v), if_neg]
  rintro ⟨⟨_, _, v⟩, hmem, rfl, rfl⟩
  exact hout v hmem

theorem dirty_landOne_stream : (coreOf (landOne backOf s core lid) core).dirty = (coreOf s.sys core).dirty := by
  obtain ⟨_, _, _, _, hk⟩ := storeBytes_stored (s.sys.withoutLanding core lid) (streamBytes s.sys core st l) core
  rw [landOne_stream_read hs hr hl hdue hdone ht hv hst Core.dirty core, hk]
  exact withoutLanding_read Core.dirty ..

theorem streams_landOne_stream_of_not_last (hlast : l.last = false) :
    (coreOf (landOne backOf s core lid) core).streams = (coreOf s.sys core).streams ∧
      (coreOf (landOne backOf s core lid) core).streamend = (coreOf s.sys core).streamend := by
  have h := (landOne_stream hs hr hl hdue hdone ht hv hst).2
  obtain ⟨_, _, _, _, hk⟩ := storeBytes_stored (s.sys.withoutLanding core lid) (streamBytes s.sys core st l) core
  rw [hlast, if_neg Bool.false_ne_true, hk] at h
  exact ⟨(h.read Core.streams).trans (withoutLanding_read Core.streams ..),
    (h.read Core.streamend).trans (withoutLanding_read Core.streamend ..)⟩

/-- With the last row the cursor moves on; where it wraps, STREAMEND takes the register's bit. -/
theorem streams_landOne_stream_of_last (hlast : l.last = true) {a b q x y z : Nat} (hcur : st.cur = [a, b, q])
    (hcount : st.count = [x, y, z]) :
    (coreOf (landOne backOf s core lid) core).streams = (coreOf s.sys core).streams.map (fun r => if r.sid = l.addr then { st with
        cur := if a + 1 < x then [a + 1, b, q] else if b + 1 < y then [0, b + 1, q] else if q + 1 < z then [0, 0, q + 1] else [0, 0, 0]
        ended := st.ended || decide (x ≤ a + 1 ∧ y ≤ b + 1 ∧ z ≤ q + 1) } else r) ∧
      (coreOf (landOne backOf s core lid) core).streamend = if x ≤ a + 1 ∧ y ≤ b + 1 ∧ z ≤ q + 1 then
        (coreOf s.sys core).streamend ||| (1#64 <<< st.reg) else (coreOf s.sys core).streamend := by
  have h := (landOne_stream hs hr hl hdue hdone ht hv hst).2
  obtain ⟨_, _, _, _, hk⟩ := storeBytes_stored (s.sys.withoutLanding core lid) (streamBytes s.sys core st l) core
  rw [coreOf_withoutLanding_same] at hk
  have hst' : (coreOf (storeBytes (s.sys.withoutLanding core lid) (streamBytes s.sys core st l)) core).streamAt l.addr = some st := by
    rw [hk]
    exact hst
  rw [hlast, if_pos rfl, coreOf_setCore, Core.advance_of_streamAt hst', if_pos (by simp), hk, Stream.advance_wraps hcur hcount,
    Stream.advance_eq hcur hcount] at h
  exact ⟨(h.read Core.streams).trans (List.map_congr_left fun r _ => if_congr beq_iff_eq rfl rfl),
    (h.read Core.streamend).trans (if_congr decide_eq_true_iff rfl rfl)⟩

end stream

end

/-! ## The statement about landings -/

/-- Settles O20: target by target, what `Core.land`, the scratchpad's write or the stream's stores do, under the requeueing of the
core that the retirement of entries leaves behind. -/
theorem landingWrites : Obligations.LandingWrites := by
  intro s core lid l hs hr hl hdue c word
  refine ⟨{ s with sys := landOne backOf s core lid }, rfl, rfl, rfl, ?_⟩
  intro k byte row
  refine ⟨landings_landOne hs hr hl hdue, fun hdone => ?_, fun hdone => ?_⟩
  · obtain ⟨rs, hk, hregs⟩ := landOne_of_done hs hr hl hdue hdone
    have hk : k = { c.withoutLanding lid with roles := rs } := hk
    exact ⟨by rw [hk]; rfl, fun q n => congrFun (hregs q).1 n⟩
  have hown := landOne_own hs hr hl hdue hdone
  have hword : landValue s.sys l = word := rfl
  rw [hword] at hown
  refine ⟨?vec, ?tile, ?slot, ?mask, ?scalar, ?csr, ?spad, ?stream, ?keepsScalars, ?keepsOthers⟩
  case vec =>
    intro ht hv
    have h := hown (fun _ => hv) (by simp [ht])
    rw [land_of_vec word ht] at h
    refine ⟨fun a => ?_, h.read Core.dirty, fun v hring h8 => (h.read (·.ringTag v)).trans (ringTag_landRow _ l hring h8)⟩
    rw [show k.pool = _ from h.read Core.pool]
    exact read_putContainers ..
  case tile =>
    intro ht
    have h := hown (by simp [ht]) (by simp [ht])
    obtain ⟨hpool, hdirtya⟩ := pool_land_of_tile (c := c.withoutLanding lid) word ht
    refine ⟨fun a => ?_, (h.read Core.dirtya).trans hdirtya⟩
    rw [show k.pool = _ from (h.read Core.pool).trans hpool]
    exact read_putContainers ..
  case slot =>
    intro ht
    have h := hown (by simp [ht]) (by simp [ht])
    obtain ⟨homem, hpool⟩ := omem_land_of_slot (c := c.withoutLanding lid) word ht
    refine ⟨fun a => ?_, (h.read Core.pool).trans hpool⟩
    rw [show k.omem = _ from (h.read Core.omem).trans homem]
    exact read_putContainers ..
  case mask =>
    intro ht hreg _ m i hi hm
    exact ((hown (by simp [ht]) (by simp [ht])).read (·.mbit m i)).trans (mbit_land word ht hreg hi hm)
  case scalar =>
    intro ht hreg n
    exact (congrFun ((hown (by simp [ht]) (by simp [ht])).s_role _) n).trans (s_role_land_of_scalar word n ht hr hreg)
  case csr =>
    intro ht r q
    have h := hown (by simp [ht]) (by simp [ht])
    have hr : r = q.land l.reg word := (h.csrs_role _).trans (csrs_role_land_of_csr word ht hr)
    rw [land_of_csr word ht] at h
    refine ⟨by rw [hr]; rfl, ?_⟩
    rw [hr]
    simp only [List.forall_mem_cons]
    exact ⟨rfl, rfl, rfl, rfl, h.read Core.tsm, h.read Core.tsn, h.read Core.tsk, fun _ h => absurd h List.not_mem_nil⟩
  case spad =>
    intro ht x hx old new o on
    refine ⟨fun a => ?_, flagCause_landOne_spad hs hr hl hdue hdone ht hx, mem_poison_landOne_spad hs hr hl hdue hdone ht hx,
      tags_landOne_spad hs hr hl hdue hdone ht hx⟩
    have hbyte := sbyte_landOne_spad hs hr hl hdue hdone ht hx a
    exact ⟨fun hon => hbyte.trans (if_pos hon), fun hoff => hbyte.trans (if_neg hoff)⟩
  case stream =>
    intro st ht hv hst place on
    refine ⟨fun w x o hon b hb => ?_, fun x a hoff => ?_, dirty_landOne_stream hs hr hl hdue hdone ht hv hst,
      streams_landOne_stream_of_not_last hs hr hl hdue hdone ht hv hst, fun a b q x y z hlast hcur hcount => ?_⟩
    · obtain ⟨hw, hen, hplace⟩ := hon
      exact sbyte_landOne_stream_on hs hr hl hdue hdone ht hv hst ⟨hw, hen⟩ hplace hb
    · exact sbyte_landOne_stream_off hs hr hl hdue hdone ht hv hst fun w o hw hplace => hoff w o ⟨hw.1, hw.2, hplace⟩
    · exact streams_landOne_stream_of_last hs hr hl hdue hdone ht hv hst hlast hcur hcount
  case keepsScalars =>
    intro ht q n
    have hsc : l.tgt ≠ .scalar := fun h => by simp [h] at ht
    exact congrFun (s_role_landOne hs hr hl hdue hdone hsc q) n
  case keepsOthers => exact fun hv ht x hx => landOne_other hs hr hl hdue hdone hv ht hx

end Sys2Proof.Machine

/-! PROOFS. What the launch unit's posts and its ends of launches leave alone: the cores, the domains and the FIFOs (R310, R311). -/

namespace Sys2Proof.Machine

/-- A machine whose cores, domains and launch units' FIFOs are as before. -/
def SameRun (y z : Sys) : Prop := z.cores = y.cores ∧ z.doms = y.doms ∧ ∀ k, (vdOf z k).fifo = (vdOf y k).fifo

theorem SameRun.refl (y : Sys) : SameRun y y := ⟨rfl, rfl, fun _ => rfl⟩

theorem SameRun.trans {x y z : Sys} (h : SameRun x y) (h' : SameRun y z) : SameRun x z := by
  obtain ⟨hc, hd, hf⟩ := h
  obtain ⟨hc', hd', hf'⟩ := h'
  exact ⟨hc'.trans hc, hd'.trans hd, fun k => (hf' k).trans (hf k)⟩

theorem SameRun.of_vds {y z : Sys} (hc : z.cores = y.cores) (hd : z.doms = y.doms) (hv : z.vds = y.vds) : SameRun y z :=
  ⟨hc, hd, fun k => by rw [vdOf, vdOf, hv]⟩

/-- A fold of steps that each keep the run keeps it. -/
theorem SameRun.foldl {α : Type} {f : Sys → α → Sys} (hf : ∀ y a, SameRun y (f y a)) (y : Sys) (l : List α) : SameRun y (l.foldl f y) :=
  List.foldlRecOn (motive := SameRun y) l f (.refl y) fun z hz a _ => hz.trans (hf z a)

theorem coreOf_of_sameRun {y z : Sys} (h : SameRun y z) (c : Nat) : coreOf z c = coreOf y c := by rw [coreOf, coreOf, h.1]

theorem domAt_of_sameRun {y z : Sys} (h : SameRun y z) (d : Nat) : domAt z d = domAt y d := by rw [domAt, domAt, h.2.1]

/-! ## Posts -/

theorem noteTables_sameRun (s : State) (y : Sys) (vk va n : Nat) : SameRun y (noteTables s y vk va n) :=
  .foldl (fun z e => by
    obtain ⟨_, _, _, h, _⟩ := writeEvent_recorded z s.gtc e.cls (vk % 32) e.source e.detail e.addr e.value
    exact .of_vds (by rw [writeLineEvent, h]) (by rw [writeLineEvent, h]) (by rw [writeLineEvent, h])) _ _

theorem noteWinUnit_sameRun (s : State) (y : Sys) (vk : Nat) (core : Option Nat) (issue slot key : Nat) (data : List Byte) (unit : Nat) :
    SameRun y (noteWinUnit s y vk core issue slot key data unit) := .of_vds rfl rfl rfl

theorem noteWindow_sameRun (s : State) (y : Sys) (vk : Nat) (core : Option Nat) (issue : Nat) (ps : List Post) :
    SameRun y (noteWindow s y vk core issue ps) :=
  .foldl (fun z p => by
    split
    · split
      · exact .foldl (fun x _ => noteWinUnit_sameRun s x ..) _ _
      · exact .refl z
    · exact .refl z) _ _

theorem noteCached_sameRun (y : Sys) (c : Cached) : SameRun y (noteCached y c) := by
  unfold noteCached
  split
  · exact .refl y
  · exact .of_vds rfl rfl rfl

theorem noteStage2_sameRun (s : State) (y : Sys) (vk ia : Nat) : SameRun y (noteStage2 s y vk ia) := by
  unfold noteStage2
  split
  · exact noteCached_sameRun ..
  · exact .refl y

theorem noteXlat_sameRun (s : State) (y : Sys) (vk va n : Nat) : SameRun y (noteXlat s y vk va n) :=
  .foldl (fun z i => by
    dsimp only
    generalize (if i = 0 then va else (va / 65536 + i) * 65536) = a
    split
    · exact .refl z
    · split
      · exact .refl z
      · have hwalk := SameRun.foldl (fun x t => noteStage2_sameRun s x vk t) z
        exact ((hwalk _).trans (noteCached_sameRun ..)).trans (noteStage2_sameRun ..)) _ _

/-- A device of another dirty-page record has the FIFO it had. -/
theorem setVd_sameRun {y : Sys} {v : Vdev} (h : v.fifo = (vdOf y v.key).fifo) : SameRun y (setVd y v) := by
  refine ⟨rfl, rfl, fun k => ?_⟩
  rw [vdOf_setVd]
  split
  case isTrue hk => rw [hk, h]
  case isFalse => rfl

theorem noteDirty_sameRun (y : Sys) (gs : List (Nat × Nat)) : SameRun y (noteDirty y gs) :=
  .foldl (fun z g => by
    dsimp only
    split
    · exact .refl z
    · split <;> exact setVd_sameRun (by simp)) _ _

theorem postVa_sameRun (s : State) (y : Sys) (vk va : Nat) (data : List Byte) : SameRun y (postVa s y vk va data) := by
  let posts := (writeVa s vk va (data.map fun b => ⟨b, false, 0⟩)).1
  have hnotes := ((noteTables_sameRun s y vk va data.length).trans (noteWindow_sameRun s _ vk none s.gtc posts)).trans
    (noteXlat_sameRun s _ vk va data.length)
  exact (hnotes.trans (.of_vds rfl rfl rfl)).trans (noteDirty_sameRun _ _)

/-! ## The end of a launch -/

theorem cancelCounter_sameRun (y : Sys) (g h : Nat) : SameRun y (cancelCounter y g h) := by
  unfold cancelCounter
  split
  · split
    · split
      · exact .of_vds rfl rfl rfl
      · exact .refl y
    · exact .refl y
  · exact .refl y

theorem abandonLaunch_sameRun (y : Sys) (g vk seq : Nat) : SameRun y (abandonLaunch y g vk seq) := by
  have hmark : SameRun y (markProxied y (launchRef vk seq)) := .of_vds rfl rfl rfl
  refine hmark.trans (.foldl (fun z o => ?_) _ _)
  split
  · exact .of_vds rfl rfl rfl
  · exact .refl z

theorem launchEnd_sameRun (s : State) (y : Sys) (vk : Nat) (l : Launch) (status reason : Nat) :
    SameRun y (launchEnd s y vk l status reason) := by
  have hstatus : SameRun y (writeStatus s y vk l.desc status reason) := (postVa_sameRun ..).trans (postVa_sameRun ..)
  unfold launchEnd
  dsimp only
  split
  · exact hstatus
  · exact (hstatus.trans (cancelCounter_sameRun ..)).trans (abandonLaunch_sameRun ..)

theorem wakeLaunchUnit_sameRun (y : Sys) (g vk : Nat) : SameRun y (wakeLaunchUnit y g vk) := .of_vds rfl rfl rfl

/-- A refused launch leaves the FIFO; cores and domains stay. -/
theorem refuseHead_frame (s : State) (y : Sys) (vk : Nat) (l : Launch) (reason : Nat) :
    (refuseHead s y vk l reason).cores = y.cores ∧ (refuseHead s y vk l reason).doms = y.doms ∧
      (vdOf (refuseHead s y vk l reason) vk).fifo = (vdOf y vk).fifo.drop 1 := by
  let z := setVd y { vdOf y vk with fifo := (vdOf y vk).fifo.drop 1 }
  have hend : SameRun z (launchEnd s z vk l statusRefused reason) := launchEnd_sameRun ..
  have hall : SameRun z (refuseHead s y vk l reason) := by
    unfold refuseHead
    dsimp only
    split
    · exact hend
    · exact hend.trans (wakeLaunchUnit_sameRun ..)
  obtain ⟨hc, hd, hf⟩ := hall
  exact ⟨hc, hd, (hf vk).trans (by simp [z, vdOf_setVd])⟩

end Sys2Proof.Machine

/-! PROOFS. The state of R31: what a launch makes of its roles, its cores and its domain (R65, R97, R123). -/

namespace Sys2Proof.Machine

/-! ## A role at TTC 0 -/

theorem setS_frame (r : RoleSt) (n : Nat) (v : Dword) : ∃ t, r.setS n v = { r with sregs := t } := by
  unfold RoleSt.setS
  split
  · exact ⟨_, rfl⟩
  · exact ⟨_, rfl⟩

/-- Beside its scalar registers a started role is cleared, with its TEXT section and its entry point. -/
theorem launchRole_frame (w : LoadedRole) (args k n chip : Nat) : ∃ t, launchRole w args k n chip = { RoleSt.cleared with
    text := w.text, textBase := d64 w.base, pc := d64 w.pc, halted := false, counted := false, sregs := t } := by
  let r : RoleSt := { RoleSt.cleared with text := w.text, textBase := d64 w.base, pc := d64 w.pc, halted := false, counted := false }
  obtain ⟨t1, h1⟩ := setS_frame r 1 (d64 args)
  obtain ⟨t2, h2⟩ := setS_frame (r.setS 1 (d64 args)) 2 (d64 k)
  obtain ⟨t3, h3⟩ := setS_frame ((r.setS 1 (d64 args)).setS 2 (d64 k)) 3 (d64 n)
  obtain ⟨t4, h4⟩ := setS_frame (((r.setS 1 (d64 args)).setS 2 (d64 k)).setS 3 (d64 n)) 4 (d64 chip)
  exact ⟨t4, by rw [show launchRole w args k n chip = _ from h4, h3, h2, h1]⟩

/-- What R31 says of a role beside its scalar and control registers. -/
theorem launchRole_fields (w : LoadedRole) (args k n chip : Nat) :
    let r := launchRole w args k n chip
    (r.text, r.textBase, r.pc) = (w.text, d64 w.base, d64 w.pc) ∧
      (r.p, r.d, r.queue, r.nextSeq, r.armed, r.halted, r.handler) = (-1, 0, [], 0, false, false, false) ∧
      (r.aside, r.hop, r.sacc) = (none, none, none) ∧ r.mode = { guard := 0, gpol := false, ety := .b32, rm := .rne } := by
  obtain ⟨t, h⟩ := launchRole_frame w args k n chip
  rw [h]
  exact ⟨rfl, rfl, rfl, rfl⟩

theorem s_cleared (r : RoleSt) (h : r.sregs = Vector.replicate 32 0) (n : Nat) : r.s n = 0 := by
  by_cases hn : n < 32 <;> simp [RoleSt.s, h, hn]

/-- s1 to s4 hold the arguments, the domain index, the number of cores and the chip; the others are zero (R31). -/
theorem s_launchRole (w : LoadedRole) (args k n chip m : Nat) : (launchRole w args k n chip).s m =
    if m = 0 then 0 else if m = 4 then d64 chip else if m = 3 then d64 n else if m = 2 then d64 k else if m = 1 then d64 args else 0 := by
  unfold launchRole
  dsimp only
  by_cases hm : m = 0
  · simp [hm]
  · rw [RoleSt.s_setS _ _ _ _ (by decide), RoleSt.s_setS _ _ _ _ (by decide), RoleSt.s_setS _ _ _ _ (by decide),
      RoleSt.s_setS _ _ _ _ (by decide), s_cleared _ rfl]
    simp only [if_neg hm]

/-! ## A core at TTC 0 -/

theorem Core.role_eq_getElem (c : Core) {q : Nat} (hq : q < 3) : c.role q = c.roles[q] := by
  obtain rfl | rfl | rfl : q = 0 ∨ q = 1 ∨ q = 2 := by omega
  all_goals rfl

section
variable {y : Sys} {vk : Nat} {l : Launch} {dom k n core : Nat}

/-- A core is started from its own lanes and errors and from its device alone. -/
theorem launchCore_congr {z : Sys} (hc : coreOf z core = coreOf y core) (hv : vdOf z vk = vdOf y vk) :
    launchCore z vk l dom k n core = launchCore y vk l dom k n core := by
  simp only [launchCore, hc, hv]

theorem launchCore_id : (launchCore y vk l dom k n core).id = core := rfl

theorem mbit_launchCore (m i : Nat) : (launchCore y vk l dom k n core).mbit m i = decide (m = 0) := by
  have hmasks : (launchCore y vk l dom k n core).masks = Vector.replicate 16 0 := rfl
  by_cases hm : m = 0
  · simp [Core.mbit, hm]
  · by_cases h : m < 16 <;> simp [Core.mbit, hm, hmasks, h]

theorem ringTag_launchCore (v : Nat) :
    (launchCore y vk l dom k n core).ringTag v = 0 ∧ (launchCore y vk l dom k n core).ringExpected v = 0 := by
  have htags : (launchCore y vk l dom k n core).ringTags = Vector.replicate 8 0 := rfl
  have hexp : (launchCore y vk l dom k n core).ringExp = Vector.replicate 8 0 := rfl
  rw [Core.ringTag, Core.ringExpected, htags, hexp]
  by_cases h : v - rbase (launchCore y vk l dom k n core).partN < 8 <;> simp [h]

theorem det_launchCore : (launchCore y vk l dom k n core).cfg.getLsbD 0 = l.det := by
  have hcfg : ∀ c : Dword, ((c &&& ~~~1#64) ||| d64 (b01 l.det)).getLsbD 0 = l.det := fun c => by
    cases l.det <;> simp [b01, d64]
  exact hcfg _

variable {ld : LoadedCore} (hld : l.loaded[k]? = some ld)
include hld

theorem pool_launchCore : (launchCore y vk l dom k n core).pool = ld.pool := by
  simp only [launchCore, hld]
  rfl

theorem role_launchCore {q : Nat} (hq : q < 3) {w : LoadedRole} (hw : ld.roles[q]? = some w) :
    (launchCore y vk l dom k n core).role q = launchRole w l.args k n (vk / 32) := by
  rw [Core.role_eq_getElem _ hq]
  simp only [launchCore, Vector.getElem_ofFn, hld, Option.getD_some, hw]

end

end Sys2Proof.Machine

/-! PROOFS. The start of a launch (R31, R65, R85, R310, R408): its domain and its cores, and what refuses it. -/

namespace Sys2Proof.Machine

/-! ## The cores of a domain that starts -/

/-- Cores that start one after another, each with its domain index. -/
def startCores (y : Sys) (vk : Nat) (l : Launch) (id n : Nat) (ps : List (Nat × Nat)) : Sys :=
  ps.foldl (fun y p => setCore y (launchCore y vk l id p.1 n p.2)) y

section
variable {vk : Nat} {l : Launch} {id n : Nat}

theorem startCores_frame (y : Sys) (ps : List (Nat × Nat)) : ∃ cs, startCores y vk l id n ps = { y with cores := cs } :=
  List.foldlRecOn (motive := fun z => ∃ cs, z = { y with cores := cs }) ps _ ⟨_, rfl⟩ fun _ h _ _ => by
    obtain ⟨_, rfl⟩ := h
    exact ⟨_, rfl⟩

theorem coreOf_startCores_of_not_mem {ps : List (Nat × Nat)} {c : Nat} (y : Sys) (h : c ∉ ps.map Prod.snd) :
    coreOf (startCores y vk l id n ps) c = coreOf y c := by
  induction ps generalizing y with
  | nil => rfl
  | cons p ps ih =>
    simp only [List.map_cons, List.mem_cons, not_or] at h
    rw [startCores, List.foldl_cons, ← startCores, ih _ h.2, coreOf_setCore, launchCore_id, if_neg h.1]

theorem coreOf_startCores_of_mem {ps : List (Nat × Nat)} {k c : Nat} (y : Sys) (hps : (ps.map Prod.snd).Nodup) (h : (k, c) ∈ ps) :
    coreOf (startCores y vk l id n ps) c = launchCore y vk l id k n c := by
  induction ps generalizing y with
  | nil => exact absurd h List.not_mem_nil
  | cons p ps ih =>
    rw [List.map_cons, List.nodup_cons] at hps
    rw [startCores, List.foldl_cons, ← startCores]
    obtain rfl | h := List.mem_cons.1 h
    · rw [coreOf_startCores_of_not_mem _ hps.1, coreOf_setCore, launchCore_id, if_pos rfl]
    · have hc : c ≠ p.2 := fun hc => hps.1 (hc ▸ List.mem_map.2 ⟨_, h, rfl⟩)
      rw [ih _ hps.2 h, launchCore_congr (y := y)]
      · rw [coreOf_setCore, launchCore_id, if_neg hc]
      · rfl

end

/-! ## The domain -/

/-- The domain of a launch at its start. -/
def launchDomain (g : Nat) (y : Sys) (vk : Nat) (l : Launch) (cores : List Nat) (figure : Nat) : Domain :=
  { Domain.none with id := y.nextDom, vd := vk, cores := cores, st := .run, ttbase := g, launch := l, figure := figure }

section
variable {g : Nat} {y : Sys} {vk : Nat} {l : Launch} {cores : List Nat} {figure : Nat}

theorem startDomain_frame : ∃ cs, startDomain g y vk l cores figure =
    { y with cores := cs, nextDom := y.nextDom + 1, doms := putBy Domain.id (launchDomain g y vk l cores figure) y.doms } := by
  obtain ⟨cs, h⟩ := startCores_frame (vk := vk) (l := l) (id := y.nextDom) (n := cores.length)
    { y with nextDom := y.nextDom + 1, doms := putBy Domain.id (launchDomain g y vk l cores figure) y.doms }
    ((List.range cores.length).zip cores)
  exact ⟨cs, h⟩

theorem domAt_startDomain : domAt (startDomain g y vk l cores figure) y.nextDom = some (launchDomain g y vk l cores figure) := by
  obtain ⟨cs, h⟩ := startDomain_frame (g := g) (y := y) (vk := vk) (l := l) (cores := cores) (figure := figure)
  rw [h]
  exact getBy_putBy_same Domain.id (launchDomain g y vk l cores figure) y.doms

theorem vdOf_startDomain (v : Nat) : vdOf (startDomain g y vk l cores figure) v = vdOf y v := by
  obtain ⟨cs, h⟩ := startDomain_frame (g := g) (y := y) (vk := vk) (l := l) (cores := cores) (figure := figure)
  rw [h]
  rfl

theorem coreOf_startDomain (hcores : cores.Nodup) {k c : Nat} (h : cores[k]? = some c) :
    coreOf (startDomain g y vk l cores figure) c = launchCore y vk l y.nextDom k cores.length c := by
  have hsnd : ((List.range cores.length).zip cores).map Prod.snd = cores := List.map_snd_zip (by simp)
  have hmem : (k, c) ∈ (List.range cores.length).zip cores := by
    have hk : k < cores.length := (List.getElem?_eq_some_iff.1 h).1
    exact List.mem_of_getElem? (i := k) (List.getElem?_zip_eq_some.2 ⟨by simp [hk], h⟩)
  have hcore := coreOf_startCores_of_mem (vk := vk) (l := l) (id := y.nextDom) (n := cores.length)
    { y with nextDom := y.nextDom + 1, doms := putBy Domain.id (launchDomain g y vk l cores figure) y.doms }
    (hsnd.symm ▸ hcores) hmem
  exact hcore.trans (launchCore_congr rfl rfl)

end

/-! ## Control registers at the start (R123) -/

section
variable {t : State} {y : Sys} {vk : Nat} {l : Launch} {dom k n core q : Nat} {w : LoadedRole} {args i m chip : Nat}
  (hc : coreOf t.sys core = launchCore y vk l dom k n core) (hq : (launchCore y vk l dom k n core).role q = launchRole w args i m chip)
include hc hq

theorem readCsr_started_zero (hd : (domOfCore t.sys core).ttc t.gtc = 0) :
    ∀ a ∈ [0x000, 0x001, 0x002, 0x004, 0x005, 0x006, 0x007, 0x008, 0x009, 0x010, 0x011, 0x012, 0x013, 0x014, 0x015, 0x016,
      0x017, 0x020, 0x021, 0x022, 0x042, 0x043, 0x046, 0x047, 0x048, 0x049, 0x060], readCsr t core q a = 0 := by
  obtain ⟨sr, hr⟩ := launchRole_frame w args i m chip
  rw [hr] at hq
  have hv : readVstart (launchCore y vk l dom k n core) q = 0 := by
    simp [readVstart, oldestPartial, hq, RoleSt.cleared]
  simp only [List.forall_mem_cons, readCsr, hc, hq, hv, hd, List.not_mem_nil, false_implies, implies_true, and_true]
  and_intros
  all_goals rfl

/-- VTYPE, PART, VDID, LEASE and TTBASE. -/
theorem readCsr_started : readCsr t core q 0x003 = 5 ∧ readCsr t core q 0x040 = l.part ∧ readCsr t core q 0x044 = d64 (vk % 32) ∧
    readCsr t core q 0x045 = d64 (vdOf y vk).lease ∧ readCsr t core q 0x061 = d64 (domOfCore t.sys core).ttbase := by
  obtain ⟨sr, hr⟩ := launchRole_frame w args i m chip
  rw [hr] at hq
  simp only [readCsr, hc, hq]
  exact ⟨rfl, rfl, rfl, rfl, rfl⟩

end

/-! ## The start tick -/

/-- A core of a launch still runs (R310). -/
def coresBusy (y : Sys) (cores : List Nat) : Bool := cores.any fun c => y.doms.any fun d => d.st != .ended && d.cores.contains c

theorem coresBusy_eq_false_iff {y : Sys} {cores : List Nat} :
    coresBusy y cores = false ↔ ∀ c ∈ cores, ∀ d ∈ y.doms, d.st = .ended ∨ c ∉ d.cores := by
  simp only [coresBusy, List.any_eq_false, List.any_eq_true, not_exists, not_and, Bool.and_eq_true, bne_iff_ne,
    List.contains_iff_mem, or_iff_not_imp_left]

theorem mayStart_eq_false_iff {v : Vdev} : mayStart v = false ↔ v.st ≠ .running ∨ v.tdi = 3 := by
  simp [mayStart, or_iff_not_imp_left]

/-- What begins where nothing refuses a launch. -/
def launchBegun (s : State) (vk : Nat) (l : Launch) (rest : List Launch) : Sys :=
  let v := vdOf s.sys vk
  let y := setVd s.sys { v with fifo := rest, imageChain := sha384 (v.imageChain ++ l.digest) }
  let y := startDomain s.gtc y vk l (launchCores v l) (frameFigure l.count l.epf)
  let y := postVa s y vk (l.desc + 0x30) (toBytes 4 1)
  if rest = [] then y else wakeLaunchUnit y s.gtc vk

/-- What becomes of a launch whose start tick has come: it waits, is refused, or begins. -/
def launchDue (s : State) (vk : Nat) (l : Launch) (rest : List Launch) : Sys :=
  let v := vdOf s.sys vk
  if !mayStart v then
    if l.asap then schedule s.sys (s.gtc + 1) (.launchStart vk) noMsg else refuseHead s s.sys vk l 6
  else if coresBusy s.sys (launchCores v l) then refuseHead s s.sys vk l 7
  else if powerOf s.sys vk < frameFigure l.count l.epf + runningFigures s.sys vk then refuseHead s s.sys vk l 8
  else launchBegun s vk l rest

theorem exec_launchStart_of_due {s : State} {vk : Nat} {l : Launch} {rest : List Launch} (hfifo : (vdOf s.sys vk).fifo = l :: rest)
    (hserved : l.served = true) (hstart : l.start ≤ s.gtc) :
    exec (.launchStart vk) s = .next { s with sys := launchDue s vk l rest } := by
  have hdue : (!l.served || decide (s.gtc < l.start)) = false := by simp [hserved, hstart]
  show execLaunchStart vk s = _
  unfold execLaunchStart lift
  dsimp only
  rw [hfifo]
  dsimp only
  rw [hdue, if_neg Bool.false_ne_true]
  unfold launchDue launchBegun coresBusy
  with_reducible rfl

theorem launchDue_of_wait {s : State} {vk : Nat} {l : Launch} {rest : List Launch} (hv : mayStart (vdOf s.sys vk) = false) :
    launchDue s vk l rest = if l.asap then schedule s.sys (s.gtc + 1) (.launchStart vk) noMsg else refuseHead s s.sys vk l 6 := by
  unfold launchDue
  dsimp only
  rw [hv]
  exact if_pos rfl

/-- A core that runs, or a figure that passes the allocation, refuses a launch. -/
theorem launchDue_of_refused {s : State} {vk : Nat} {l : Launch} {rest : List Launch} (hv : mayStart (vdOf s.sys vk) = true)
    (h : coresBusy s.sys (launchCores (vdOf s.sys vk) l) = true ∨
      powerOf s.sys vk < frameFigure l.count l.epf + runningFigures s.sys vk) :
    ∃ reason, launchDue s vk l rest = refuseHead s s.sys vk l reason := by
  simp only [launchDue, hv, Bool.not_true, Bool.false_eq_true, if_false]
  split
  case isTrue => exact ⟨7, rfl⟩
  case isFalse hbusy => exact ⟨8, if_pos (h.resolve_left hbusy)⟩

theorem launchDue_of_begun {s : State} {vk : Nat} {l : Launch} {rest : List Launch} (hv : mayStart (vdOf s.sys vk) = true)
    (hcores : coresBusy s.sys (launchCores (vdOf s.sys vk) l) = false)
    (hpower : frameFigure l.count l.epf + runningFigures s.sys vk ≤ powerOf s.sys vk) :
    launchDue s vk l rest = launchBegun s vk l rest := by
  simp only [launchDue, hv, hcores, Bool.not_true, Bool.false_eq_true, if_false]
  exact if_neg (Nat.not_lt.2 hpower)

/-- Beside what a post and the unit's next work change, the state at the start is that of `startDomain`. -/
theorem launchBegun_sameRun (s : State) (vk : Nat) (l : Launch) (rest : List Launch) :
    let v := vdOf s.sys vk
    let y := setVd s.sys { v with fifo := rest, imageChain := sha384 (v.imageChain ++ l.digest) }
    SameRun (startDomain s.gtc y vk l (launchCores v l) (frameFigure l.count l.epf)) (launchBegun s vk l rest) := by
  unfold launchBegun
  dsimp only
  split
  · exact postVa_sameRun ..
  · exact (postVa_sameRun ..).trans (wakeLaunchUnit_sameRun ..)

/-! ## What refuses a launch, and what begins -/

theorem frameFigure_eq (n epf : Nat) : frameFigure n epf = n * (epf + 1064960) := rfl

section
variable {s : State} {vk : Nat} {l : Launch} {rest : List Launch}

/-- The event of the start tick takes the launch out of the FIFO, and no core or domain is touched. -/
def LaunchRefused (s : State) (vk : Nat) (rest : List Launch) : Prop :=
  ∃ t, exec (.launchStart vk) s = .next t ∧ (vdOf t.sys vk).fifo = rest ∧ t.sys.cores = s.sys.cores ∧ t.sys.doms = s.sys.doms

theorem launchRefused_of_refuseHead (hexec : exec (.launchStart vk) s = .next { s with sys := launchDue s vk l rest })
    (hfifo : (vdOf s.sys vk).fifo = l :: rest) {reason : Nat} (h : launchDue s vk l rest = refuseHead s s.sys vk l reason) :
    LaunchRefused s vk rest := by
  obtain ⟨hc, hd, hf⟩ := refuseHead_frame s s.sys vk l reason
  rw [h] at hexec
  exact ⟨_, hexec, by rw [hf, hfifo]; rfl, hc, hd⟩

theorem fifo_launchBegun : (vdOf (launchBegun s vk l rest) vk).fifo = rest := by
  obtain ⟨_, _, hf⟩ := launchBegun_sameRun s vk l rest
  rw [hf, vdOf_startDomain, vdOf_setVd, if_pos (vdOf_key ..).symm]

theorem domAt_launchBegun : domAt (launchBegun s vk l rest) s.sys.nextDom =
    some (launchDomain s.gtc s.sys vk l (launchCores (vdOf s.sys vk) l) (frameFigure l.count l.epf)) := by
  rw [domAt_of_sameRun (launchBegun_sameRun s vk l rest)]
  exact domAt_startDomain

/-- A core of the launch is started, from a machine in which its device has the lease it had. -/
theorem coreOf_launchBegun (hcores : (launchCores (vdOf s.sys vk) l).Nodup) {k c : Nat}
    (h : (launchCores (vdOf s.sys vk) l)[k]? = some c) : ∃ y : Sys, (vdOf y vk).lease = (vdOf s.sys vk).lease ∧
      coreOf (launchBegun s vk l rest) c =
        launchCore y vk l s.sys.nextDom k (launchCores (vdOf s.sys vk) l).length c := by
  refine ⟨setVd s.sys { vdOf s.sys vk with fifo := rest, imageChain := sha384 ((vdOf s.sys vk).imageChain ++ l.digest) }, ?_, ?_⟩
  · rw [vdOf_setVd, if_pos (vdOf_key ..).symm]
  · rw [coreOf_of_sameRun (launchBegun_sameRun s vk l rest)]
    exact coreOf_startDomain hcores h

theorem domOfCore_launchBegun {y : Sys} {k n c : Nat}
    (h : coreOf (launchBegun s vk l rest) c = launchCore y vk l s.sys.nextDom k n c) : domOfCore (launchBegun s vk l rest) c =
      launchDomain s.gtc s.sys vk l (launchCores (vdOf s.sys vk) l) (frameFigure l.count l.epf) := by
  have hdom : (coreOf (launchBegun s vk l rest) c).dom = s.sys.nextDom := by rw [h]; rfl
  rw [domOfCore, hdom, domAt_launchBegun]
  rfl

theorem ttc_launchDomain (g : Nat) (y : Sys) (vk : Nat) (l : Launch) (cores : List Nat) (figure : Nat) :
    (launchDomain g y vk l cores figure).ttc g = 0 := by
  simp [launchDomain, Domain.ttc]

end

end Sys2Proof.Machine

/-! PROOFS. What the launch unit loads (R97, R109, R310): of a launch that it serves, PART, the TEXT sections of each role and the
scratchpad of each core. -/

namespace Sys2Proof.Machine

/-! ## A launch that is served -/

theorem length_of_loadVa {s : State} {vk va n : Nat} {b : List Byte} (h : loadVa s vk va n = some b) : b.length = n := by
  unfold loadVa at h
  dsimp only at h
  split at h
  · rw [← Option.some.inj h, List.length_map, readVa, List.length_map, List.length_range]
  · exact absurd h (by simp)

theorem sectionsOk_of_imageCode {s : State} {vk n w : Nat} {i : Image} (h : imageCode s vk n w i = 0) : i.sectionsOk s vk = true := by
  by_contra hno
  unfold imageCode at h
  split at h
  · exact absurd h (by decide)
  · rw [if_pos (by simpa using hno)] at h
    exact absurd h (by decide)

/-- Every section of an image that passes the checks can be read. -/
theorem isSome_bytes_of_imageCode {s : State} {vk n w : Nat} {i : Image} (h : imageCode s vk n w i = 0) {t : Sect} (ht : t ∈ i.sects) :
    (i.bytes s vk t).isSome = true := by
  have hok := sectionsOk_of_imageCode h
  simp only [Image.sectionsOk, Bool.and_eq_true, List.all_eq_true] at hok
  obtain ⟨⟨⟨hsects, _⟩, _⟩, _⟩ := hok
  exact (hsects t ht).2

/-- The image of a served launch passes the checks, and gives PART and what is loaded. -/
theorem serveLaunch_image {s : State} {vk ready : Nat} {l l' : Launch} {objs : List Obj}
    (h : serveLaunch s vk ready l = .ok (l', objs)) : ∃ i w, readImage s vk l'.image = some i ∧ imageCode s vk l.count w i = 0 ∧
      l'.part = d64 i.part ∧ l'.loaded = loadImage s vk i l.count := by
  have hno : ∀ k, (Except.error k : Except Nat (Launch × List Obj)) ≠ .ok (l', objs) := fun _ => nofun
  unfold serveLaunch at h
  dsimp only at h
  split at h
  · exact absurd h (hno _)
  rename_i b _
  split at h
  · exact absurd h (hno _)
  split at h
  · exact absurd h (hno _)
  generalize ((launchCores (vdOf s.sys vk) (describe b l)).map fun c => (coreOf s.sys c).lanes).headD 64 = w at h
  split at h
  · exact absurd h (hno _)
  rename_i i hi
  split at h
  · exact absurd h (hno _)
  rename_i hcode
  split at h
  · exact absurd h (hno _)
  rename_i hcores
  split at h
  · exact absurd h (hno _)
  rename_i h5
  split at h
  · exact absurd h (hno _)
  split at h
  · exact absurd h (hno _)
  split at h
  · exact absurd h (hno _)
  simp only [Except.ok.injEq, Prod.mk.injEq] at h
  obtain ⟨rfl, _⟩ := h
  refine ⟨i, w, hi, ?_, rfl, rfl⟩
  have h4 : imageCode s vk (describe b l).count w i ≠ 4 := fun h4 => hcores (by simp [h4])
  by_contra h0
  exact hcode (by simpa using ⟨⟨h0, h4⟩, h5⟩)

/-! ## The scratchpad of a core -/

/-- The bytes that a SPAD section brings: its contents, then zeros up to MEMSIZE. -/
def sectBytes (s : State) (vk : Nat) (i : Image) (t : Sect) : List Byte :=
  ((i.bytes s vk t).getD [] ++ List.replicate (t.mem - t.size) 0).take t.mem

/-- Sections stored one after another in a pool. -/
def loadSects (s : State) (vk : Nat) (i : Image) (m : Mem) (ts : List Sect) : Mem :=
  ts.foldl (fun m t => Mem.writes m (spadBase i.part + t.addr) (sectBytes s vk i t)) m

theorem loadPool_eq (s : State) (vk : Nat) (i : Image) (k : Nat) : loadPool s vk i k = loadSects s vk i [] (i.spads k) := rfl

section
variable {s : State} {vk : Nat} {i : Image} {t : Sect}

theorem length_sectBytes_le : (sectBytes s vk i t).length ≤ t.mem := by
  rw [sectBytes, List.length_take]
  exact Nat.min_le_left ..

theorem length_sectBytes (h : (i.bytes s vk t).isSome = true) : (sectBytes s vk i t).length = t.mem := by
  obtain ⟨b, hb⟩ := Option.isSome_iff_exists.1 h
  have hlen : b.length = t.size := length_of_loadVa hb
  rw [sectBytes, hb, List.length_take, Option.getD_some, List.length_append, List.length_replicate, hlen]
  omega

theorem getElem?_sectBytes {j : Nat} (hj : j < t.mem) :
    ((sectBytes s vk i t)[j]?).getD 0 = (((i.bytes s vk t).getD [])[j]?).getD 0 := by
  rw [sectBytes, List.getElem?_take_of_lt hj, List.getElem?_append]
  split
  case isTrue => rfl
  case isFalse h =>
    rw [List.getElem?_eq_none (Nat.le_of_not_lt h), List.getElem?_replicate]
    split <;> rfl

/-- A place that no section covers keeps its byte. -/
theorem read_loadSects_of_outside {ts : List Sect} (m : Mem) {a : Nat}
    (h : ∀ t ∈ ts, a < spadBase i.part + t.addr ∨ spadBase i.part + t.addr + t.mem ≤ a) :
    Mem.read (loadSects s vk i m ts) a = Mem.read m a := by
  induction ts generalizing m with
  | nil => rfl
  | cons t ts ih =>
    rw [List.forall_mem_cons] at h
    have hlen := length_sectBytes_le (s := s) (vk := vk) (i := i) (t := t)
    rw [loadSects, List.foldl_cons, ← loadSects, ih _ h.2, Mem.read_writes, if_neg (by omega)]

/-- A place holds the byte of the last section that covers it. -/
theorem read_loadSects_of_last {before after : List Sect} (m : Mem) {a : Nat} (ht : (i.bytes s vk t).isSome = true)
    (hlo : spadBase i.part + t.addr ≤ a) (hhi : a < spadBase i.part + t.addr + t.mem)
    (h : ∀ u ∈ after, a < spadBase i.part + u.addr ∨ spadBase i.part + u.addr + u.mem ≤ a) :
    Mem.read (loadSects s vk i m (before ++ t :: after)) a =
      (((i.bytes s vk t).getD [])[a - (spadBase i.part + t.addr)]?).getD 0 := by
  rw [loadSects, List.foldl_append, List.foldl_cons, ← loadSects, read_loadSects_of_outside _ h, Mem.read_writes,
    length_sectBytes ht, if_pos ⟨hlo, hhi⟩, getElem?_sectBytes (by omega)]

end

theorem mem_sects_of_mem_spads {i : Image} {k : Nat} {t : Sect} (h : t ∈ i.spads k) : t ∈ i.sects := by
  rw [Image.spads, List.mem_append] at h
  exact h.elim (fun h => (List.mem_filter.1 h).1) fun h => (List.mem_filter.1 h).1

section
variable {s : State} {vk k : Nat} {i : Image}

/-- Below the scratchpad nothing is loaded. -/
theorem read_loadPool_below {a : Nat} (h : a < spadBase i.part) : Mem.read (loadPool s vk i k) a = 0 :=
  read_loadSects_of_outside [] fun _ _ => .inl (by omega)

/-- Where no SPAD section lies the scratchpad is zero. -/
theorem read_loadPool_of_outside {off : Nat} (h : ∀ t ∈ i.spads k, off < t.addr ∨ t.addr + t.mem ≤ off) :
    Mem.read (loadPool s vk i k) (spadBase i.part + off) = 0 :=
  read_loadSects_of_outside [] fun t ht => (h t ht).imp (by omega) (by omega)

/-- Of the SPAD sections that cover a byte the last one gives it (R97). -/
theorem read_loadPool_of_last {before after : List Sect} {t : Sect} {off : Nat} (hspads : i.spads k = before ++ t :: after)
    (ht : (i.bytes s vk t).isSome = true) (hlo : t.addr ≤ off) (hhi : off < t.addr + t.mem)
    (h : ∀ u ∈ after, off < u.addr ∨ u.addr + u.mem ≤ off) :
    Mem.read (loadPool s vk i k) (spadBase i.part + off) = (((i.bytes s vk t).getD [])[off - t.addr]?).getD 0 := by
  rw [loadPool_eq, hspads, read_loadSects_of_last [] ht (by omega) (by omega) fun u hu => (h u hu).imp (by omega) (by omega),
    Nat.add_sub_add_left]

end

/-! ## The TEXT sections of a core -/

theorem length_wordList (n : Nat) (b : List Byte) : (wordList n b).length = n := by
  induction n generalizing b with
  | zero => rfl
  | succ n ih => simp [wordList, ih]

theorem loadRole_of_text {s : State} {vk k role : Nat} {i : Image} {t : Sect} (h : i.textOf role k = some t) :
    (loadRole s vk i k role).base = i.base + t.off ∧ (loadRole s vk i k role).pc = i.base + t.off + t.addr ∧
      (loadRole s vk i k role).text.length = t.size / 4 := by
  simp only [loadRole, h]
  exact ⟨trivial, trivial, length_wordList ..⟩

theorem getElem?_loadImage (s : State) (vk : Nat) (i : Image) {k n : Nat} (hk : k < n) : (loadImage s vk i n)[k]? =
    some { roles := (List.range 3).map fun r => loadRole s vk i k r, pool := loadPool s vk i k } := by
  simp [loadImage, hk]

end Sys2Proof.Machine

/-! PROOFS. The statement about the start of a launch. -/

namespace Sys2Proof.Machine

/-- Settles O36: what has become of a launch at its start tick, with the state of R31 in each core that begins; and what the launch
unit has loaded for it. -/
theorem launchStart : Obligations.LaunchStart := by
  refine ⟨?_, ?_⟩
  · intro s vk l rest v cores refused idle figure running granted hfifo _ hserved hstart
    have hexec := exec_launchStart_of_due hfifo hserved hstart
    have hidle : idle ↔ coresBusy s.sys cores = false := coresBusy_eq_false_iff.symm
    have hrun : v.st = .running → v.tdi ≠ 3 → mayStart v = true := fun hrun htdi => by
      rw [← Bool.not_eq_false, mayStart_eq_false_iff]
      simp [hrun, htdi]
    refine ⟨fun hv hasap => ?_, fun hv hasap => ?_, fun hst htdi h => ?_, fun hst htdi hi hnodup hpower => ?_⟩
    · have hdue := launchDue_of_wait (l := l) (rest := rest) (mayStart_eq_false_iff.2 hv)
      rw [hasap] at hdue
      exact launchRefused_of_refuseHead hexec hfifo hdue
    · have hdue := launchDue_of_wait (l := l) (rest := rest) (mayStart_eq_false_iff.2 hv)
      rw [hasap, if_pos rfl] at hdue
      rw [hexec, hdue]
      rfl
    · rw [hidle, Bool.not_eq_false] at h
      obtain ⟨reason, hdue⟩ := launchDue_of_refused (rest := rest) (hrun hst htdi) h
      exact launchRefused_of_refuseHead hexec hfifo hdue
    · rw [launchDue_of_begun (hrun hst htdi) (hidle.1 hi) hpower] at hexec
      refine ⟨_, _, hexec, fifo_launchBegun, domAt_launchBegun, rfl, fun k c hk => ?_⟩
      intro x reads
      obtain ⟨y, hlease, hcore⟩ := coreOf_launchBegun (rest := rest) hnodup hk
      have hdom := domOfCore_launchBegun hcore
      have hx : x = launchCore y vk l s.sys.nextDom k cores.length c := hcore
      rw [hx]
      refine ⟨rfl, det_launchCore, rfl, mbit_launchCore, fun n => ⟨rfl, ringTag_launchCore n⟩, fun n => rfl, rfl, fun ld hld =>
        ⟨pool_launchCore hld, fun q hq w hw => ?_⟩⟩
      intro r
      have hrole := role_launchCore (y := y) (vk := vk) (dom := s.sys.nextDom) (n := cores.length) (core := c) hld hq hw
      have hr : r = launchRole w l.args k cores.length (vk / 32) := hrole ▸ congrArg (·.role q) hcore
      have hs : ∀ m, r.s m = _ := fun m => hr ▸ s_launchRole ..
      obtain ⟨htext, hqueue, haside, hmode⟩ := launchRole_fields w l.args k cores.length (vk / 32)
      obtain ⟨hvtype, hpart, hvdid, hleaseCsr, httbase⟩ := readCsr_started
        (t := { s with sys := launchBegun s vk l rest }) hcore hrole
      refine ⟨hr ▸ htext, hs 1, hs 2, hs 3, hs 4, fun n hn => ?_, hr ▸ hqueue, hr ▸ haside, hr ▸ hmode, ?_, hvtype, hpart, hvdid, ?_,
        ?_⟩
      · rw [hs, if_neg (by omega), if_neg (by omega), if_neg (by omega), if_neg (by omega), if_neg (by omega)]
      · exact readCsr_started_zero (t := { s with sys := launchBegun s vk l rest }) hcore hrole (by rw [hdom, ttc_launchDomain])
      · rw [← hlease]
        exact hleaseCsr
      · rw [hdom] at httbase
        exact httbase
  · intro s vk ready l l' objs i hserve himage
    obtain ⟨i', w, hi', hcode, hpart, hloaded⟩ := serveLaunch_image hserve
    obtain rfl : i' = i := Option.some.inj (hi'.symm.trans himage)
    refine ⟨hpart, by rw [hloaded, loadImage, List.length_map, List.length_range], fun k hk => ?_⟩
    refine ⟨_, hloaded ▸ getElem?_loadImage s vk i' hk, fun q hq => ?_, fun a ha => ?_, ?_⟩
    · exact ⟨loadRole s vk i' k q, by simp [hq], fun t ht => loadRole_of_text ht⟩
    · exact read_loadPool_below ha
    · intro spads off
      refine ⟨read_loadPool_of_outside, fun before t after hspads hlo hhi hafter => ?_⟩
      have hspads : i'.spads k = before ++ t :: after := hspads
      have ht : t ∈ i'.sects := mem_sects_of_mem_spads (k := k) (by simp [hspads])
      exact read_loadPool_of_last hspads (isSome_bytes_of_imageCode hcode ht) hlo hhi hafter

end Sys2Proof.Machine

/-! PROOFS. The formats of R34, each as the fields into which it divides a word. A table of the decoder looks at nothing else. -/

namespace Sys2Proof

/-- Format S3: sd, sa, sb, FN. -/
structure FieldsS3 (x op d a b fn : Nat) : Prop where
  op_eq : x / 33554432 = op
  d_eq : x / 1048576 % 32 = d
  a_eq : x / 32768 % 32 = a
  b_eq : x / 1024 % 32 = b
  fn_eq : x % 1024 = fn

/-- Formats SI and C: sd, sa, and imm15 or CSRNO; a shift takes bits [5:0] of imm15 (R44). -/
structure FieldsSI (x op d a k : Nat) : Prop where
  op_eq : x / 33554432 = op
  d_eq : x / 1048576 % 32 = d
  a_eq : x / 32768 % 32 = a
  imm_eq : x % 32768 = k
  high_eq : x / 64 % 512 = k / 64
  amount_eq : x % 64 = k % 64

/-- Format SI of a scalar access: imm15 is a size code and an offset (R44). -/
structure FieldsAccess (x op d a size o : Nat) : Prop where
  op_eq : x / 33554432 = op
  d_eq : x / 1048576 % 32 = d
  a_eq : x / 32768 % 32 = a
  size_eq : x / 8192 % 4 = size
  o_eq : x % 8192 = o

/-- Format B: sa, COND, OFF17. -/
structure FieldsB (x op a cond o : Nat) : Prop where
  op_eq : x / 33554432 = op
  a_eq : x / 1048576 % 32 = a
  cond_eq : x / 131072 % 8 = cond
  o_eq : x % 131072 = o

/-- Format M: GUARD, GPOL, ETYPE, RM, DELTA (R37). -/
structure FieldsM (x op g p e r t : Nat) : Prop where
  op_eq : x / 33554432 = op
  g_eq : x / 4194304 % 8 = g
  p_eq : x / 2097152 % 2 = p
  e_eq : x / 65536 % 32 = e
  r_eq : x / 8192 % 8 = r
  t_eq : x % 8192 = t

/-- Format V3: vd, va, vb, FN; vamo reads its operation from FN[2:0]. -/
structure FieldsV3 (x op d a b fn : Nat) : Prop where
  op_eq : x / 33554432 = op
  d_eq : x / 524288 % 64 = d
  a_eq : x / 8192 % 64 = a
  b_eq : x / 128 % 64 = b
  fn_eq : x % 128 = fn
  amo_eq : x % 8 = fn % 8

/-- Format V3 of a conversion: FN is a form and the source type (R52). -/
structure FieldsCvt (x op d a b form src : Nat) : Prop where
  op_eq : x / 33554432 = op
  d_eq : x / 524288 % 64 = d
  a_eq : x / 8192 % 64 = a
  b_eq : x / 128 % 64 = b
  form_eq : x / 32 % 4 = form
  src_eq : x % 32 = src

/-- Format VI: vd, va, imm13. -/
structure FieldsVI (x op d a k : Nat) : Prop where
  op_eq : x / 33554432 = op
  d_eq : x / 524288 % 64 = d
  a_eq : x / 8192 % 64 = a
  imm_eq : x % 8192 = k

/-- Format X: AD, OA, OB, SUB, SX, AX, and the two low bits, of which F is the lower. -/
structure FieldsX (x op d a b sub s y low : Nat) : Prop where
  op_eq : x / 33554432 = op
  d_eq : x / 4194304 % 8 = d
  a_eq : x / 262144 % 16 = a
  b_eq : x / 16384 % 16 = b
  sub_eq : x / 1024 % 16 = sub
  s_eq : x / 32 % 32 = s
  y_eq : x / 4 % 8 = y
  low_eq : x % 4 = low
  bit1_eq : x / 2 % 2 = low / 2
  f_eq : x % 2 = low % 2

/-- Format W: sd, so, sdl, SUB, FLAGS, of which acq.m takes the lowest. -/
structure FieldsW (x op d o l sub flags : Nat) : Prop where
  op_eq : x / 33554432 = op
  d_eq : x / 1048576 % 32 = d
  o_eq : x / 32768 % 32 = o
  l_eq : x / 1024 % 32 = l
  sub_eq : x / 16 % 64 = sub
  flags_eq : x % 16 = flags
  high_eq : x / 2 % 8 = flags / 2
  m_eq : x % 2 = flags % 2

end Sys2Proof

/-! PROOFS. A word that decodes is the word of a well-formed instruction (R41, R43 to R57). A word is the sum of its fields, each at
its place; a table's answer is compared with that sum. -/

namespace Sys2Proof

/-- A table's answer on the word w: an instruction that it answers is well formed and w is its word. -/
def IsWordOf (w : Nat) (r : Except Nat Instr) : Prop := ∀ i, r = .ok i → wf i = true ∧ encode i = w

@[simp] theorem isWordOf_error (w k : Nat) : IsWordOf w (.error k) := fun _ h => nomatch h

@[simp] theorem isWordOf_ok {w : Nat} {i : Instr} : IsWordOf w (.ok i) ↔ wf i = true ∧ encode i = w := by simp [IsWordOf]

@[simp] theorem isWordOf_ite {w : Nat} {p : Prop} [Decidable p] {x y : Except Nat Instr} :
    IsWordOf w (if p then x else y) ↔ (p → IsWordOf w x) ∧ (¬ p → IsWordOf w y) := by
  split <;> simp_all

/-! ## A word is the sum of its fields -/

section
variable {w : Nat}

theorem isWordOf_of_fieldsS3 (h : ∀ d a b fn x, d < 32 → a < 32 → b < 32 → FieldsS3 x (w / 33554432) d a b fn →
    IsWordOf (w / 33554432 * 33554432 + fn + d * 1048576 + a * 32768 + b * 1024) (decodeNat x)) : IsWordOf w (decodeNat w) := by
  convert h (w / 1048576 % 32) (w / 32768 % 32) (w / 1024 % 32) (w % 1024) w (by omega) (by omega) (by omega)
    ⟨rfl, rfl, rfl, rfl, rfl⟩ using 1
  omega

theorem isWordOf_of_fieldsSI (h : ∀ d a k x, d < 32 → a < 32 → k < 32768 → FieldsSI x (w / 33554432) d a k →
    IsWordOf (w / 33554432 * 33554432 + d * 1048576 + a * 32768 + k) (decodeNat x)) : IsWordOf w (decodeNat w) := by
  convert h (w / 1048576 % 32) (w / 32768 % 32) (w % 32768) w (by omega) (by omega) (by omega)
    ⟨rfl, rfl, rfl, rfl, by omega, by omega⟩ using 1
  omega

theorem isWordOf_of_fieldsAccess (h : ∀ d a size o x, d < 32 → a < 32 → size < 4 → o < 8192 →
    FieldsAccess x (w / 33554432) d a size o →
    IsWordOf (w / 33554432 * 33554432 + size * 8192 + d * 1048576 + a * 32768 + o) (decodeNat x)) : IsWordOf w (decodeNat w) := by
  convert h (w / 1048576 % 32) (w / 32768 % 32) (w / 8192 % 4) (w % 8192) w (by omega) (by omega) (by omega) (by omega)
    ⟨rfl, rfl, rfl, rfl, rfl⟩ using 1
  omega

theorem isWordOf_of_fieldsB (h : ∀ a cond o x, a < 32 → o < 131072 → FieldsB x (w / 33554432) a cond o →
    IsWordOf (w / 33554432 * 33554432 + cond * 131072 + a * 1048576 + o) (decodeNat x)) : IsWordOf w (decodeNat w) := by
  convert h (w / 1048576 % 32) (w / 131072 % 8) (w % 131072) w (by omega) (by omega) ⟨rfl, rfl, rfl, rfl⟩ using 1
  omega

theorem isWordOf_of_fieldsM (h : ∀ g p e r t x, g < 8 → p < 2 → e < 32 → r < 8 → t < 8192 →
    FieldsM x (w / 33554432) g p e r t →
    IsWordOf (w / 33554432 * 33554432 + g * 4194304 + p * 2097152 + e * 65536 + r * 8192 + t) (decodeNat x)) :
    IsWordOf w (decodeNat w) := by
  convert h (w / 4194304 % 8) (w / 2097152 % 2) (w / 65536 % 32) (w / 8192 % 8) (w % 8192) w (by omega) (by omega) (by omega)
    (by omega) (by omega) ⟨rfl, rfl, rfl, rfl, rfl, rfl⟩ using 1
  omega

theorem isWordOf_of_fieldsV3 (h : ∀ d a b fn x, d < 64 → a < 64 → b < 64 → FieldsV3 x (w / 33554432) d a b fn →
    IsWordOf (w / 33554432 * 33554432 + fn + d * 524288 + a * 8192 + b * 128) (decodeNat x)) : IsWordOf w (decodeNat w) := by
  convert h (w / 524288 % 64) (w / 8192 % 64) (w / 128 % 64) (w % 128) w (by omega) (by omega) (by omega)
    ⟨rfl, rfl, rfl, rfl, rfl, by omega⟩ using 1
  omega

theorem isWordOf_of_fieldsCvt (h : ∀ d a b form src x, d < 64 → a < 64 → b < 64 → form < 4 → src < 32 →
    FieldsCvt x (w / 33554432) d a b form src →
    IsWordOf (w / 33554432 * 33554432 + form * 32 + d * 524288 + a * 8192 + b * 128 + src) (decodeNat x)) :
    IsWordOf w (decodeNat w) := by
  convert h (w / 524288 % 64) (w / 8192 % 64) (w / 128 % 64) (w / 32 % 4) (w % 32) w (by omega) (by omega) (by omega) (by omega)
    (by omega) ⟨rfl, rfl, rfl, rfl, rfl, rfl⟩ using 1
  omega

theorem isWordOf_of_fieldsVI (h : ∀ d a k x, d < 64 → a < 64 → k < 8192 → FieldsVI x (w / 33554432) d a k →
    IsWordOf (w / 33554432 * 33554432 + d * 524288 + a * 8192 + k) (decodeNat x)) : IsWordOf w (decodeNat w) := by
  convert h (w / 524288 % 64) (w / 8192 % 64) (w % 8192) w (by omega) (by omega) (by omega) ⟨rfl, rfl, rfl, rfl⟩ using 1
  omega

theorem isWordOf_of_fieldsX (h : ∀ d a b sub s y low x, d < 8 → a < 16 → b < 16 → s < 32 → y < 8 →
    FieldsX x (w / 33554432) d a b sub s y low →
    IsWordOf (w / 33554432 * 33554432 + sub * 1024 + low + d * 4194304 + a * 262144 + b * 16384 + s * 32 + y * 4) (decodeNat x)) :
    IsWordOf w (decodeNat w) := by
  convert h (w / 4194304 % 8) (w / 262144 % 16) (w / 16384 % 16) (w / 1024 % 16) (w / 32 % 32) (w / 4 % 8) (w % 4) w (by omega)
    (by omega) (by omega) (by omega) (by omega) ⟨rfl, rfl, rfl, rfl, rfl, rfl, rfl, rfl, by omega, by omega⟩ using 1
  omega

theorem isWordOf_of_fieldsW (h : ∀ d o l sub flags x, d < 32 → o < 32 → l < 32 → flags < 16 →
    FieldsW x (w / 33554432) d o l sub flags →
    IsWordOf (w / 33554432 * 33554432 + sub * 16 + flags + d * 1048576 + o * 32768 + l * 1024) (decodeNat x)) :
    IsWordOf w (decodeNat w) := by
  convert h (w / 1048576 % 32) (w / 32768 % 32) (w / 1024 % 32) (w / 16 % 64) (w % 16) w (by omega) (by omega) (by omega)
    (by omega) ⟨rfl, rfl, rfl, rfl, rfl, rfl, by omega, by omega⟩ using 1
  omega

/-! ## The tables of each format

The operation field chooses the arm, and the arm's checks are those of `wf`. -/

theorem isWordOf_S3 (hop : w / 33554432 ∈ [2, 28, 30, 31, 82, 96]) : IsWordOf w (decodeNat w) := by
  refine isWordOf_of_fieldsS3 fun d a b fn x hd ha hb hx => ?_
  simp only [List.mem_cons, List.not_mem_nil, or_false] at hop
  rcases hop with h | h | h | h | h | h
  all_goals
    rw [h] at hx ⊢
    simp only [hx.op_eq, decodeNat_op02, decodeNat_op1C, decodeNat_op1E, decodeNat_op1F, decodeNat_op52, decodeNat_op60, decodeOp02,
      decodeOp1C, decodeOp1E, decodeOp1F, decodeOp52, decodeOp60, hx.d_eq, hx.a_eq, hx.b_eq, hx.fn_eq]
    split <;> simp [wf, encode, hd, ha, hb] <;> omega

theorem isWordOf_xfence (hop : w / 33554432 = 97) : IsWordOf w (decodeNat w) := by
  rw [decodeNat_op61 hop]
  simp [decodeOp61, wf, encode]
  omega

theorem isWordOf_SI (hop : w / 33554432 ∈ [3, 4, 5, 6, 7, 8, 9, 10, 11, 12, 18, 29]) : IsWordOf w (decodeNat w) := by
  refine isWordOf_of_fieldsSI fun d a k x hd ha hk hx => ?_
  simp only [List.mem_cons, List.not_mem_nil, or_false] at hop
  rcases hop with h | h | h | h | h | h | h | h | h | h | h | h
  all_goals
    rw [h] at hx ⊢
    simp [hx.op_eq, decodeNat_op03, decodeNat_op04, decodeNat_op05, decodeNat_op06, decodeNat_op07, decodeNat_op08, decodeNat_op09,
      decodeNat_op0A, decodeNat_op0B, decodeNat_op0C, decodeNat_op12, decodeNat_op1D, decodeOp03, decodeOp04, decodeOp05, decodeOp06,
      decodeOp07, decodeOp08, decodeOp09, decodeOp0A, decodeOp0B, decodeOp0C, decodeOp12, decodeOp1D, hx.d_eq, hx.a_eq, hx.imm_eq,
      hx.high_eq, hx.amount_eq, wf, encode, hd, ha, hk] <;> omega

theorem isWordOf_C (hop : w / 33554432 ∈ [24, 25, 26, 27]) : IsWordOf w (decodeNat w) := by
  refine isWordOf_of_fieldsSI fun d a k x hd ha hk hx => ?_
  simp only [List.mem_cons, List.not_mem_nil, or_false] at hop
  rcases hop with h | h | h | h
  all_goals
    rw [h] at hx ⊢
    simp +contextual [hx.op_eq, decodeNat_op18, decodeNat_op19, decodeNat_op1A, decodeNat_op1B, decodeOp18, decodeOp19, decodeOp1A,
      decodeOp1B, hx.d_eq, hx.a_eq, hx.imm_eq, wf, encode, hd, ha, hk]

theorem isWordOf_access (hop : w / 33554432 = 13 ∨ w / 33554432 = 14) : IsWordOf w (decodeNat w) := by
  refine isWordOf_of_fieldsAccess fun d a size o x hd ha hs ho hx => ?_
  rcases hop with h | h
  all_goals
    rw [h] at hx ⊢
    simp only [hx.op_eq, decodeNat_op0D, decodeNat_op0E, decodeOp0D, decodeOp0E, hx.d_eq, hx.a_eq, hx.size_eq, hx.o_eq]
    interval_cases size <;> simp [wf, encode, hd, ha, ho]

theorem isWordOf_B (hop : w / 33554432 = 16 ∨ w / 33554432 = 17) : IsWordOf w (decodeNat w) := by
  refine isWordOf_of_fieldsB fun a cond o x ha ho hx => ?_
  rcases hop with h | h <;> rw [h] at hx ⊢
  · simp only [decodeNat_op10 hx.op_eq, decodeOp10, hx.a_eq, hx.cond_eq, hx.o_eq]
    split <;> simp [wf, encode, ha, ho]
  · simp [decodeNat_op11 hx.op_eq, decodeOp11, hx.a_eq, hx.cond_eq, hx.o_eq, wf, encode, ho]
    omega

theorem isWordOf_M (hop : w / 33554432 = 1) : IsWordOf w (decodeNat w) := by
  refine isWordOf_of_fieldsM fun g p e r t x hg hp he hr ht hx => ?_
  rw [hop] at hx ⊢
  simp [decodeNat_op01 hx.op_eq, decodeOp01, hx.g_eq, hx.p_eq, hx.e_eq, hx.r_eq, hx.t_eq, wf, encode, hg, hp, he, hr, ht]
  omega

theorem isWordOf_V3 (hop : w / 33554432 ∈ [32, 33, 34, 35, 38, 64, 65, 67, 68, 69, 90, 91]) : IsWordOf w (decodeNat w) := by
  refine isWordOf_of_fieldsV3 fun d a b fn x hd ha hb hx => ?_
  simp only [List.mem_cons, List.not_mem_nil, or_false] at hop
  rcases hop with h | h | h | h | h | h | h | h | h | h | h | h
  all_goals
    rw [h] at hx ⊢
    simp only [hx.op_eq, decodeNat_op20, decodeNat_op21, decodeNat_op22, decodeNat_op23, decodeNat_op26, decodeNat_op40,
      decodeNat_op41, decodeNat_op43, decodeNat_op44, decodeNat_op45, decodeNat_op5A, decodeNat_op5B, decodeOp20, decodeOp21,
      decodeOp22, decodeOp23, decodeOp26, decodeOp40, decodeOp41, decodeOp43, decodeOp44, decodeOp45, decodeOp5A, decodeOp5B,
      hx.d_eq, hx.a_eq, hx.b_eq, hx.fn_eq, hx.amo_eq]
    split <;> simp [wf, encode, hd, ha, hb] <;> omega

theorem isWordOf_cvt (hop : w / 33554432 = 66) : IsWordOf w (decodeNat w) := by
  refine isWordOf_of_fieldsCvt fun d a b form src x hd ha hb hf hs hx => ?_
  rw [hop] at hx ⊢
  simp only [decodeNat_op42 hx.op_eq, decodeOp42, hx.d_eq, hx.a_eq, hx.b_eq, hx.form_eq, hx.src_eq]
  interval_cases form <;> simp [wf, encode, hd, ha, hb, hs] <;> omega

theorem isWordOf_VI (hop : w / 33554432 ∈ [36, 37, 88, 89]) : IsWordOf w (decodeNat w) := by
  refine isWordOf_of_fieldsVI fun d a k x hd ha hk hx => ?_
  simp only [List.mem_cons, List.not_mem_nil, or_false] at hop
  rcases hop with h | h | h | h
  all_goals
    rw [h] at hx ⊢
    simp [hx.op_eq, decodeNat_op24, decodeNat_op25, decodeNat_op58, decodeNat_op59, decodeOp24, decodeOp25, decodeOp58, decodeOp59,
      hx.d_eq, hx.a_eq, hx.imm_eq, wf, encode, hd, ha, hk]

theorem isWordOf_X (hop : w / 33554432 = 80 ∨ w / 33554432 = 81) : IsWordOf w (decodeNat w) := by
  refine isWordOf_of_fieldsX fun d a b sub s y low x hd ha hb hs hy hx => ?_
  rcases hop with h | h
  all_goals
    rw [h] at hx ⊢
    simp only [hx.op_eq, decodeNat_op50, decodeNat_op51, decodeOp50, decodeOp51, hx.d_eq, hx.a_eq, hx.b_eq, hx.sub_eq, hx.s_eq,
      hx.y_eq, hx.low_eq, hx.bit1_eq, hx.f_eq]
    split <;> simp [wf, encode, hd, ha, hb, hs, hy] <;> omega

theorem isWordOf_W (hop : w / 33554432 ∈ [104, 105, 106, 107, 108, 112]) : IsWordOf w (decodeNat w) := by
  refine isWordOf_of_fieldsW fun d o l sub flags x hd ho hl hf hx => ?_
  simp only [List.mem_cons, List.not_mem_nil, or_false] at hop
  rcases hop with h | h | h | h | h | h
  all_goals
    rw [h] at hx ⊢
    simp only [hx.op_eq, decodeNat_op68, decodeNat_op69, decodeNat_op6A, decodeNat_op6B, decodeNat_op6C, decodeNat_op70, decodeOp68,
      decodeOp69, decodeOp6A, decodeOp6B, decodeOp6C, decodeOp70, hx.d_eq, hx.o_eq, hx.l_eq, hx.sub_eq, hx.flags_eq, hx.high_eq,
      hx.m_eq]
    split <;> simp [wf, encode, hd, ho, hl, hf] <;> omega

end
/-- The opcodes that R42 assigns, by their format. -/
theorem opcode_of_decodeMajor {op w : Nat} {i : Instr} (h : decodeMajor op w = .ok i) :
    op ∈ [2, 28, 30, 31, 82, 96] ∨ op = 97 ∨ op ∈ [3, 4, 5, 6, 7, 8, 9, 10, 11, 12, 18, 29] ∨ op ∈ [24, 25, 26, 27] ∨
      (op = 13 ∨ op = 14) ∨ (op = 16 ∨ op = 17) ∨ op = 1 ∨ op ∈ [32, 33, 34, 35, 38, 64, 65, 67, 68, 69, 90, 91] ∨ op = 66 ∨
      op ∈ [36, 37, 88, 89] ∨ (op = 80 ∨ op = 81) ∨ op ∈ [104, 105, 106, 107, 108, 112] := by
  unfold decodeMajor at h
  split at h
  case h_54 => cases h
  all_goals simp

theorem isWordOf_decodeNat (w : Nat) : IsWordOf w (decodeNat w) := by
  intro i h
  obtain hop | hop | hop | hop | hop | hop | hop | hop | hop | hop | hop | hop := opcode_of_decodeMajor h
  · exact isWordOf_S3 hop i h
  · exact isWordOf_xfence hop i h
  · exact isWordOf_SI hop i h
  · exact isWordOf_C hop i h
  · exact isWordOf_access hop i h
  · exact isWordOf_B hop i h
  · exact isWordOf_M hop i h
  · exact isWordOf_V3 hop i h
  · exact isWordOf_cvt hop i h
  · exact isWordOf_VI hop i h
  · exact isWordOf_X hop i h
  · exact isWordOf_W hop i h

end Sys2Proof

/-! PROOFS. The word of an instruction decodes to it (R41, R43 to R57). -/

namespace Sys2Proof

/-! ## The fields of a word

The word of an instruction is constant bits, c below, plus its fields; those of its format that it has not are zero in c.
A lemma's suffix names the fields that the instruction has, where they are not all. -/

section
variable {c d a b w : Nat} {r : Except Nat Instr}

theorem decodeNat_S3 (hw : w = c + d * 1048576 + a * 32768 + b * 1024) (hc : c % 33554432 < 1024) (hd : d < 32) (ha : a < 32)
    (hb : b < 32) (h : ∀ x, FieldsS3 x (c / 33554432) d a b (c % 1024) → decodeNat x = r) : decodeNat w = r :=
  h w ⟨by omega, by omega, by omega, by omega, by omega⟩

theorem decodeNat_S3_da (hw : w = c + d * 1048576 + a * 32768) (hc : c % 33554432 < 1024) (hd : d < 32) (ha : a < 32)
    (h : ∀ x, FieldsS3 x (c / 33554432) d a 0 (c % 1024) → decodeNat x = r) : decodeNat w = r :=
  decodeNat_S3 (b := 0) (by simpa using hw) hc hd ha (by decide) h

theorem decodeNat_S3_a (hw : w = c + a * 32768) (hc : c % 33554432 < 1024) (ha : a < 32)
    (h : ∀ x, FieldsS3 x (c / 33554432) 0 a 0 (c % 1024) → decodeNat x = r) : decodeNat w = r :=
  decodeNat_S3_da (d := 0) (by simpa using hw) hc (by decide) ha h

theorem decodeNat_SI {k : Nat} (hw : w = c + d * 1048576 + a * 32768 + k) (hc : c % 33554432 = 0) (hd : d < 32) (ha : a < 32)
    (hk : k < 32768) (h : ∀ x, FieldsSI x (c / 33554432) d a k → decodeNat x = r) : decodeNat w = r :=
  h w ⟨by omega, by omega, by omega, by omega, by omega, by omega⟩

theorem decodeNat_SI_d {k : Nat} (hw : w = c + d * 1048576 + k) (hc : c % 33554432 = 0) (hd : d < 32) (hk : k < 32768)
    (h : ∀ x, FieldsSI x (c / 33554432) d 0 k → decodeNat x = r) : decodeNat w = r :=
  decodeNat_SI (a := 0) (by simpa using hw) hc hd (by decide) hk h

theorem decodeNat_access {o : Nat} (hw : w = c + d * 1048576 + a * 32768 + o) (hc : c % 33554432 < 32768 ∧ c % 8192 = 0)
    (hd : d < 32) (ha : a < 32) (ho : o < 8192)
    (h : ∀ x, FieldsAccess x (c / 33554432) d a (c / 8192 % 4) o → decodeNat x = r) : decodeNat w = r :=
  h w ⟨by omega, by omega, by omega, by omega, by omega⟩

theorem decodeNat_B {o : Nat} (hw : w = c + a * 1048576 + o) (hc : c % 33554432 < 1048576 ∧ c % 131072 = 0) (ha : a < 32)
    (ho : o < 131072) (h : ∀ x, FieldsB x (c / 33554432) a (c / 131072 % 8) o → decodeNat x = r) : decodeNat w = r :=
  h w ⟨by omega, by omega, by omega, by omega⟩

theorem decodeNat_V3 (hw : w = c + d * 524288 + a * 8192 + b * 128) (hc : c % 33554432 < 128) (hd : d < 64) (ha : a < 64)
    (hb : b < 64) (h : ∀ x, FieldsV3 x (c / 33554432) d a b (c % 128) → decodeNat x = r) : decodeNat w = r :=
  h w ⟨by omega, by omega, by omega, by omega, by omega, by omega⟩

theorem decodeNat_V3_da (hw : w = c + d * 524288 + a * 8192) (hc : c % 33554432 < 128) (hd : d < 64) (ha : a < 64)
    (h : ∀ x, FieldsV3 x (c / 33554432) d a 0 (c % 128) → decodeNat x = r) : decodeNat w = r :=
  decodeNat_V3 (b := 0) (by simpa using hw) hc hd ha (by decide) h

theorem decodeNat_V3_d (hw : w = c + d * 524288) (hc : c % 33554432 < 128) (hd : d < 64)
    (h : ∀ x, FieldsV3 x (c / 33554432) d 0 0 (c % 128) → decodeNat x = r) : decodeNat w = r :=
  decodeNat_V3_da (a := 0) (by simpa using hw) hc hd (by decide) h

theorem decodeNat_cvt {src : Nat} (hw : w = c + d * 524288 + a * 8192 + b * 128 + src) (hc : c % 33554432 < 128 ∧ c % 32 = 0)
    (hd : d < 64) (ha : a < 64) (hb : b < 64) (hs : src < 32)
    (h : ∀ x, FieldsCvt x (c / 33554432) d a b (c / 32 % 4) src → decodeNat x = r) : decodeNat w = r :=
  h w ⟨by omega, by omega, by omega, by omega, by omega, by omega⟩

theorem decodeNat_cvt_da {src : Nat} (hw : w = c + d * 524288 + a * 8192 + src) (hc : c % 33554432 < 128 ∧ c % 32 = 0)
    (hd : d < 64) (ha : a < 64) (hs : src < 32)
    (h : ∀ x, FieldsCvt x (c / 33554432) d a 0 (c / 32 % 4) src → decodeNat x = r) : decodeNat w = r :=
  decodeNat_cvt (b := 0) (by simpa using hw) hc hd ha (by decide) hs h

theorem decodeNat_VI {k : Nat} (hw : w = c + d * 524288 + a * 8192 + k) (hc : c % 33554432 = 0) (hd : d < 64) (ha : a < 64)
    (hk : k < 8192) (h : ∀ x, FieldsVI x (c / 33554432) d a k → decodeNat x = r) : decodeNat w = r :=
  h w ⟨by omega, by omega, by omega, by omega⟩

theorem decodeNat_X {s y : Nat} (hw : w = c + d * 4194304 + a * 262144 + b * 16384 + s * 32 + y * 4)
    (hc : c % 33554432 < 16384 ∧ c % 1024 < 4) (hd : d < 8) (ha : a < 16) (hb : b < 16) (hs : s < 32) (hy : y < 8)
    (h : ∀ x, FieldsX x (c / 33554432) d a b (c / 1024 % 16) s y (c % 4) → decodeNat x = r) : decodeNat w = r :=
  h w ⟨by omega, by omega, by omega, by omega, by omega, by omega, by omega, by omega, by omega, by omega⟩

theorem decodeNat_X_dab (hw : w = c + d * 4194304 + a * 262144 + b * 16384) (hc : c % 33554432 < 16384 ∧ c % 1024 < 4) (hd : d < 8)
    (ha : a < 16) (hb : b < 16) (h : ∀ x, FieldsX x (c / 33554432) d a b (c / 1024 % 16) 0 0 (c % 4) → decodeNat x = r) :
    decodeNat w = r :=
  decodeNat_X (s := 0) (y := 0) (by simpa using hw) hc hd ha hb (by decide) (by decide) h

theorem decodeNat_X_ds {s : Nat} (hw : w = c + d * 4194304 + s * 32) (hc : c % 33554432 < 16384 ∧ c % 1024 < 4) (hd : d < 8)
    (hs : s < 32) (h : ∀ x, FieldsX x (c / 33554432) d 0 0 (c / 1024 % 16) s 0 (c % 4) → decodeNat x = r) : decodeNat w = r :=
  decodeNat_X (a := 0) (b := 0) (y := 0) (by simpa using hw) hc hd (by decide) (by decide) hs (by decide) h

theorem decodeNat_X_as {s : Nat} (hw : w = c + a * 262144 + s * 32) (hc : c % 33554432 < 16384 ∧ c % 1024 < 4) (ha : a < 16)
    (hs : s < 32) (h : ∀ x, FieldsX x (c / 33554432) 0 a 0 (c / 1024 % 16) s 0 (c % 4) → decodeNat x = r) : decodeNat w = r :=
  decodeNat_X (d := 0) (b := 0) (y := 0) (by simpa using hw) hc (by decide) ha (by decide) hs (by decide) h

theorem decodeNat_X_a (hw : w = c + a * 262144) (hc : c % 33554432 < 16384 ∧ c % 1024 < 4) (ha : a < 16)
    (h : ∀ x, FieldsX x (c / 33554432) 0 a 0 (c / 1024 % 16) 0 0 (c % 4) → decodeNat x = r) : decodeNat w = r :=
  decodeNat_X_as (s := 0) (by simpa using hw) hc ha (by decide) h

theorem decodeNat_W {o l : Nat} (hw : w = c + d * 1048576 + o * 32768 + l * 1024) (hc : c % 33554432 < 1024) (hd : d < 32)
    (ho : o < 32) (hl : l < 32) (h : ∀ x, FieldsW x (c / 33554432) d o l (c / 16 % 64) (c % 16) → decodeNat x = r) :
    decodeNat w = r :=
  h w ⟨by omega, by omega, by omega, by omega, by omega, by omega, by omega, by omega⟩

theorem decodeNat_W_do {o : Nat} (hw : w = c + d * 1048576 + o * 32768) (hc : c % 33554432 < 1024) (hd : d < 32)
    (ho : o < 32) (h : ∀ x, FieldsW x (c / 33554432) d o 0 (c / 16 % 64) (c % 16) → decodeNat x = r) : decodeNat w = r :=
  decodeNat_W (l := 0) (by simpa using hw) hc hd ho (by decide) h

end

/-! ## What each instruction's word decodes to -/

theorem decodeNat_encode_mode {g p e r t : Nat} (h : wf (.mode g p e r t) = true) :
    decodeNat (encode (.mode g p e r t)) = .ok (.mode g p e r t) := by
  simp only [wf, Bool.and_eq_true, decide_eq_true_eq] at h
  obtain ⟨⟨⟨⟨⟨⟨hg, hp⟩, -⟩, -⟩, ht⟩, he⟩, hr⟩ := h
  obtain ⟨x, hx⟩ : ∃ x, x = encode (.mode g p e r t) := ⟨_, rfl⟩
  have hf : FieldsM x 1 g p e r t := by
    simp only [encode] at hx
    exact ⟨by omega, by omega, by omega, by omega, by omega, by omega⟩
  rw [← hx, decodeNat_op01 hf.op_eq, decodeOp01, hf.g_eq, hf.p_eq, hf.e_eq, hf.r_eq, hf.t_eq]
  exact if_neg (by omega)

theorem decodeNat_encode_xfence {f t : Nat} (h : wf (.xfence f t) = true) : decodeNat (encode (.xfence f t)) = .ok (.xfence f t) := by
  simp only [wf, Bool.and_eq_true, decide_eq_true_eq] at h
  obtain ⟨⟨⟨hf, ht⟩, hf0⟩, ht0⟩ := h
  obtain ⟨x, hx⟩ : ∃ x, x = encode (.xfence f t) := ⟨_, rfl⟩
  simp only [encode] at hx
  have hfrom : x / 32 % 32 = f := by omega
  have hto : x % 32 = t := by omega
  have hrest : x / 1048576 % 32 + x / 32768 % 32 + x / 1024 % 32 = 0 := by omega
  rw [encode, ← hx, decodeNat_op61 (by omega), decodeOp61, hfrom, hto, hrest]
  simp [hf0, ht0]

theorem decodeNat_encode_vamo {d a b o : Nat} (h : wf (.vamo d a b o) = true) :
    decodeNat (encode (.vamo d a b o)) = .ok (.vamo d a b o) := by
  simp only [wf, Bool.and_eq_true, decide_eq_true_eq] at h
  obtain ⟨⟨⟨⟨hd, ha⟩, hb⟩, -⟩, ho⟩ := h
  refine decodeNat_V3 (c := 3019898896 + o) (d := d) (a := a) (b := b) (by simp only [encode]; omega) (by omega) hd (by omega) hb
    fun x hx => ?_
  interval_cases o <;>
    simp [decodeNat_op5A, decodeOp5A, hx.op_eq, hx.d_eq, hx.a_eq, hx.b_eq, hx.fn_eq, hx.amo_eq, ha]

/-- The constructors by the fields of their words and the checks of their tables; an event has no word (R42). -/
theorem decodeNat_encode {i : Instr} (hi : wf i = true) (hne : encode i ≠ 0) : decodeNat (encode i) = .ok i := by
  cases i
  case mode => exact decodeNat_encode_mode hi
  case xfence => exact decodeNat_encode_xfence hi
  case vamo => exact decodeNat_encode_vamo hi
  case tret | halt => rfl
  all_goals simp only [wf, Bool.and_eq_true, decide_eq_true_eq, and_assoc] at hi
  -- Format S3
  case add d a b | sub d a b | and d a b | or d a b | xor d a b | sll d a b | srl d a b | sra d a b | mul d a b | mulh d a b
      | div d a b | rem d a b | slt d a b | sltu d a b | min d a b | max d a b | xdrain d a b | pgreq d a b =>
    obtain ⟨hd, ha, hb⟩ := hi
    refine decodeNat_S3 rfl (by decide) hd ha hb fun x hx => ?_
    simp [hx.op_eq, decodeNat_op02, decodeNat_op60, decodeOp02, decodeOp60, hx.d_eq, hx.a_eq, hx.b_eq, hx.fn_eq]
  case clz d a | popc d a | tshape d a | xgo d a | xtag d a =>
    obtain ⟨hd, ha⟩ := hi
    refine decodeNat_S3_da rfl (by decide) hd ha fun x hx => ?_
    simp [hx.op_eq, decodeNat_op02, decodeNat_op52, decodeNat_op60, decodeOp02, decodeOp52, decodeOp60, hx.d_eq, hx.a_eq, hx.b_eq,
      hx.fn_eq]
  case trap a | svc a | vsave a | vrestore a | replay a =>
    refine decodeNat_S3_a rfl (by decide) hi fun x hx => ?_
    simp [hx.op_eq, decodeNat_op1C, decodeNat_op1F, decodeOp1C, decodeOp1F, hx.d_eq, hx.a_eq, hx.b_eq, hx.fn_eq]
  case ttmark d =>
    refine decodeNat_S3_da (c := 1006632960) (a := 0) (by simp [encode]) (by decide) hi (by decide) fun x hx => ?_
    simp [hx.op_eq, decodeNat_op1E, decodeOp1E, hx.d_eq, hx.a_eq, hx.b_eq, hx.fn_eq]
  case xinv a b =>
    obtain ⟨ha, hb⟩ := hi
    refine decodeNat_S3 (c := 3221225476) (d := 0) (by simp [encode]) (by decide) (by decide) ha hb fun x hx => ?_
    simp [hx.op_eq, decodeNat_op60, decodeOp60, hx.d_eq, hx.a_eq, hx.b_eq, hx.fn_eq]
  -- Formats SI and C
  case addi d a k | andi d a k | ori d a k | xori d a k | slti d a k | jalr d a k =>
    obtain ⟨hd, ha, hk⟩ := hi
    refine decodeNat_SI rfl (by decide) hd ha hk fun x hx => ?_
    simp [hx.op_eq, decodeNat_op03, decodeNat_op04, decodeNat_op05, decodeNat_op06, decodeNat_op0A, decodeNat_op12, decodeOp03,
      decodeOp04, decodeOp05, decodeOp06, decodeOp0A, decodeOp12, hx.d_eq, hx.a_eq, hx.imm_eq]
  case slli d a k | srli d a k | srai d a k =>
    obtain ⟨hd, ha, hk⟩ := hi
    refine decodeNat_SI rfl (by decide) hd ha (by omega) fun x hx => ?_
    simp [hx.op_eq, decodeNat_op07, decodeNat_op08, decodeNat_op09, decodeOp07, decodeOp08, decodeOp09, hx.d_eq, hx.a_eq, hx.high_eq,
      hx.amount_eq, Nat.div_eq_of_lt hk, Nat.mod_eq_of_lt hk]
  case lui d k | pcrel d k =>
    obtain ⟨hd, hk⟩ := hi
    refine decodeNat_SI_d rfl (by decide) hd hk fun x hx => ?_
    simp [hx.op_eq, decodeNat_op0B, decodeNat_op0C, decodeOp0B, decodeOp0C, hx.d_eq, hx.a_eq, hx.imm_eq]
  case ttsync a k =>
    obtain ⟨ha, hk⟩ := hi
    refine decodeNat_SI (c := 973078528) (d := 0) (by simp [encode]) (by decide) (by decide) ha hk fun x hx => ?_
    simp [hx.op_eq, decodeNat_op1D, decodeOp1D, hx.d_eq, hx.a_eq, hx.imm_eq]
  case csrr d k =>
    obtain ⟨hd, hk, hcsr⟩ := hi
    refine decodeNat_SI_d rfl (by decide) hd hk fun x hx => ?_
    simp [hx.op_eq, decodeNat_op18, decodeOp18, hx.d_eq, hx.a_eq, hx.imm_eq, hcsr]
  case csrw d a k | csrs d a k | csrc d a k =>
    obtain ⟨hd, ha, hk, hcsr⟩ := hi
    refine decodeNat_SI rfl (by decide) hd ha hk fun x hx => ?_
    simp [hx.op_eq, decodeNat_op19, decodeNat_op1A, decodeNat_op1B, decodeOp19, decodeOp1A, decodeOp1B, hx.d_eq, hx.a_eq, hx.imm_eq,
      hcsr]
  case slb d a o | slh d a o | slw d a o | sld d a o | ssb d a o | ssh d a o | ssw d a o | ssd d a o =>
    obtain ⟨hd, ha, ho⟩ := hi
    refine decodeNat_access rfl (by decide) hd ha ho fun x hx => ?_
    simp [hx.op_eq, decodeNat_op0D, decodeNat_op0E, decodeOp0D, decodeOp0E, hx.d_eq, hx.a_eq, hx.size_eq, hx.o_eq]
  -- Format B
  case beq a o | bne a o | blt a o | bge a o =>
    obtain ⟨ha, ho⟩ := hi
    refine decodeNat_B rfl (by decide) ha ho fun x hx => ?_
    simp [decodeNat_op10 hx.op_eq, decodeOp10, hx.a_eq, hx.cond_eq, hx.o_eq]
  case bltu a o | bgeu a o =>
    obtain ⟨ha, heven, ho⟩ := hi
    refine decodeNat_B rfl (by decide) ha ho fun x hx => ?_
    simp [decodeNat_op10 hx.op_eq, decodeOp10, hx.a_eq, hx.cond_eq, hx.o_eq, heven]
  case jal o =>
    refine decodeNat_B (c := 570425344) (a := 0) (by simp [encode]) (by decide) (by decide) hi fun x hx => ?_
    simp [decodeNat_op11 hx.op_eq, decodeOp11, hx.a_eq, hx.cond_eq, hx.o_eq]
  -- Format V3, by the register files of the fields (R35)
  case vadd d a b | vsub d a b | vmul d a b | vmulh d a b | vmacc d a b | vmin d a b | vmax d a b | vand d a b | vor d a b
      | vxor d a b | vsll d a b | vsrl d a b | vsra d a b | vaddsat d a b | vsubsat d a b | vsel d a b | vperm d a b | vfadd d a b
      | vfsub d a b | vfmul d a b | vfma d a b | vfnma d a b | vfmin d a b | vfmax d a b | vfdiv d a b | vscacc d a b | vscext d a b
      | vscset d a b | vbinadd d a b | vbinfold d a b | vbinmerge d a b | vw2pmul d a b =>
    obtain ⟨hd, ha, hb⟩ := hi
    refine decodeNat_V3 rfl (by decide) hd ha hb fun x hx => ?_
    simp [hx.op_eq, decodeNat_op20, decodeNat_op23, decodeNat_op40, decodeNat_op43, decodeNat_op44, decodeNat_op45, decodeOp20,
      decodeOp23, decodeOp40, decodeOp43, decodeOp44, decodeOp45, hx.d_eq, hx.a_eq, hx.b_eq, hx.fn_eq]
  case vcmpeq d a b | vcmpne d a b | vcmplt d a b | vcmple d a b | vfcmpeq d a b | vfcmplt d a b | vfcmple d a b | vfcmpun d a b =>
    obtain ⟨hd, hd0, ha, hb⟩ := hi
    refine decodeNat_V3 rfl (by decide) (by omega) ha hb fun x hx => ?_
    simp [hx.op_eq, decodeNat_op21, decodeNat_op41, decodeOp21, decodeOp41, hx.d_eq, hx.a_eq, hx.b_eq, hx.fn_eq, hd, hd0]
  case mand d a b | mor d a b | mxor d a b =>
    obtain ⟨hd, hd0, ha, hb⟩ := hi
    refine decodeNat_V3 rfl (by decide) (by omega) (by omega) (by omega) fun x hx => ?_
    simp [decodeNat_op22 hx.op_eq, decodeOp22, hx.d_eq, hx.a_eq, hx.b_eq, hx.fn_eq, hd, hd0, ha, hb]
  case vextract d a b =>
    obtain ⟨hd, ha, hb⟩ := hi
    refine decodeNat_V3 rfl (by decide) (by omega) ha (by omega) fun x hx => ?_
    simp [decodeNat_op23 hx.op_eq, decodeOp23, hx.d_eq, hx.a_eq, hx.b_eq, hx.fn_eq, hd, hb]
  case vlds d a b | vsts d a b | vldt d a b | vgath d a b | vscat d a b | vscadd d a b | vscaddBin d a b =>
    obtain ⟨hd, ha, hb⟩ := hi
    refine decodeNat_V3 rfl (by decide) hd (by omega) (by omega) fun x hx => ?_
    simp [decodeNat_op5A hx.op_eq, decodeOp5A, hx.d_eq, hx.a_eq, hx.b_eq, hx.fn_eq, ha, hb]
  case vldf d a b =>
    obtain ⟨hd, ha, hb, hb0⟩ := hi
    refine decodeNat_V3 rfl (by decide) hd (by omega) (by omega) fun x hx => ?_
    simp [decodeNat_op5A hx.op_eq, decodeOp5A, hx.d_eq, hx.a_eq, hx.b_eq, hx.fn_eq, ha, hb, hb0]
  case vabs d a | vclz d a | vpopc d a | vcompress d a | vexpand d a | vredsumO d a | vredsumU d a | vredmin d a | vredmax d a
      | vscanO d a | vscanF d a | vfsqrt d a | vfexp2 d a | vflog2 d a | vfabs d a | vfneg d a | vbcast d a | vbind d a =>
    obtain ⟨hd, ha⟩ := hi
    refine decodeNat_V3_da rfl (by decide) hd (by omega) fun x hx => ?_
    simp [hx.op_eq, decodeNat_op20, decodeNat_op23, decodeNat_op26, decodeNat_op40, decodeNat_op5B, decodeOp20, decodeOp23,
      decodeOp26, decodeOp40, decodeOp5B, hx.d_eq, hx.a_eq, hx.b_eq, hx.fn_eq, ha]
  case vredminidx d a | vredmaxidx d a =>
    obtain ⟨hd, heven, ha⟩ := hi
    refine decodeNat_V3_da rfl (by decide) hd ha fun x hx => ?_
    simp [decodeNat_op26 hx.op_eq, decodeOp26, hx.d_eq, hx.a_eq, hx.b_eq, hx.fn_eq, heven]
  case vgrant d a =>
    obtain ⟨hd, hdEven, ha, haEven⟩ := hi
    refine decodeNat_V3_da rfl (by decide) (by omega) (by omega) fun x hx => ?_
    simp [decodeNat_op26 hx.op_eq, decodeOp26, hx.d_eq, hx.a_eq, hx.b_eq, hx.fn_eq, hd, hdEven, ha, haEven]
  case mnot d a | mld d a =>
    obtain ⟨hd, hd0, ha⟩ := hi
    refine decodeNat_V3_da rfl (by decide) (by omega) (by omega) fun x hx => ?_
    simp [hx.op_eq, decodeNat_op22, decodeNat_op5B, decodeOp22, decodeOp5B, hx.d_eq, hx.a_eq, hx.b_eq, hx.fn_eq, hd, hd0, ha]
  case mcount d a | mfirst d a | mst d a =>
    obtain ⟨hd, ha⟩ := hi
    refine decodeNat_V3_da rfl (by decide) (by omega) (by omega) fun x hx => ?_
    simp [hx.op_eq, decodeNat_op22, decodeNat_op5B, decodeOp22, decodeOp5B, hx.d_eq, hx.a_eq, hx.b_eq, hx.fn_eq, hd, ha]
  case vid d | vunbind d =>
    refine decodeNat_V3_d rfl (by decide) hi fun x hx => ?_
    simp [hx.op_eq, decodeNat_op23, decodeNat_op5B, decodeOp23, decodeOp5B, hx.d_eq, hx.a_eq, hx.b_eq, hx.fn_eq]
  case vcvt d a src | vcvtsr d a src | vunpack d a src =>
    obtain ⟨hd, ha, hs, htype⟩ := hi
    refine decodeNat_cvt_da rfl (by decide) hd ha hs fun x hx => ?_
    simp [decodeNat_op42 hx.op_eq, decodeOp42, hx.d_eq, hx.a_eq, hx.b_eq, hx.form_eq, hx.src_eq, htype]
  case vpack d a b src =>
    obtain ⟨hd, ha, hb, hs, htype⟩ := hi
    refine decodeNat_cvt rfl (by decide) hd ha hb hs fun x hx => ?_
    simp [decodeNat_op42 hx.op_eq, decodeOp42, hx.d_eq, hx.a_eq, hx.b_eq, hx.form_eq, hx.src_eq, htype]
  -- Format VI
  case vslideup d a k | vslidedn d a k | vld d a k | vst d a k =>
    obtain ⟨hd, ha, hk⟩ := hi
    refine decodeNat_VI rfl (by decide) hd (by omega) hk fun x hx => ?_
    simp [hx.op_eq, decodeNat_op24, decodeNat_op25, decodeNat_op58, decodeNat_op59, decodeOp24, decodeOp25, decodeOp58, decodeOp59,
      hx.d_eq, hx.a_eq, hx.imm_eq, ha]
  -- Format X
  case mmabO d a b | mmabF d a b | mmad d a b | mmal d a b =>
    obtain ⟨hd, ha, hb⟩ := hi
    refine decodeNat_X_dab rfl (by decide) hd ha hb fun x hx => ?_
    simp [decodeNat_op50 hx.op_eq, decodeOp50, hx.d_eq, hx.a_eq, hx.b_eq, hx.sub_eq, hx.s_eq, hx.y_eq, hx.low_eq, hx.bit1_eq, hx.f_eq]
  case mtbl a b =>
    obtain ⟨ha, hb⟩ := hi
    refine decodeNat_X_dab (c := 2684356608) (d := 0) (by simp [encode]) (by decide) (by decide) ha hb fun x hx => ?_
    simp [decodeNat_op50 hx.op_eq, decodeOp50, hx.d_eq, hx.a_eq, hx.b_eq, hx.sub_eq, hx.s_eq, hx.y_eq, hx.low_eq]
  case xscacc d a b y =>
    obtain ⟨hd, ha, hb, hy⟩ := hi
    refine decodeNat_X (c := 2684358656) (s := 0) (by simp [encode]) (by decide) hd ha hb (by decide) hy fun x hx => ?_
    simp [decodeNat_op50 hx.op_eq, decodeOp50, hx.d_eq, hx.a_eq, hx.b_eq, hx.sub_eq, hx.s_eq, hx.y_eq, hx.low_eq]
  case oclaim a | orelease a =>
    refine decodeNat_X_a rfl (by decide) hi fun x hx => ?_
    simp [decodeNat_op51 hx.op_eq, decodeOp51, hx.d_eq, hx.a_eq, hx.b_eq, hx.sub_eq, hx.s_eq, hx.y_eq, hx.low_eq]
  case oload a sx =>
    obtain ⟨ha, hs⟩ := hi
    refine decodeNat_X_as rfl (by decide) ha hs fun x hx => ?_
    simp [decodeNat_op51 hx.op_eq, decodeOp51, hx.d_eq, hx.a_eq, hx.b_eq, hx.sub_eq, hx.s_eq, hx.y_eq, hx.low_eq]
  case aclear d =>
    refine decodeNat_X_ds (c := 2717912064) (s := 0) (by simp [encode]) (by decide) hi (by decide) fun x hx => ?_
    simp [decodeNat_op51 hx.op_eq, decodeOp51, hx.d_eq, hx.a_eq, hx.b_eq, hx.sub_eq, hx.s_eq, hx.y_eq, hx.low_eq]
  case aload d sx | astore d sx =>
    obtain ⟨hd, hs⟩ := hi
    refine decodeNat_X_ds rfl (by decide) hd hs fun x hx => ?_
    simp [decodeNat_op51 hx.op_eq, decodeOp51, hx.d_eq, hx.a_eq, hx.b_eq, hx.sub_eq, hx.s_eq, hx.y_eq, hx.low_eq]
  -- Format W
  case arrive d o l | bwait d o l | barshed d o l | barjoin d o l | acq d o l | acqM d o l | qpush d o l | qrecv d o l | qproxy d o l
      | launch d o l | cwait d o l | coll d o l | collwait d o l =>
    obtain ⟨hd, heven, ho, hl⟩ := hi
    refine decodeNat_W rfl (by decide) hd ho hl fun x hx => ?_
    simp [hx.op_eq, decodeNat_op68, decodeNat_op69, decodeNat_op6A, decodeNat_op6B, decodeNat_op70, decodeOp68, decodeOp69,
      decodeOp6A, decodeOp6B, decodeOp70, hx.d_eq, hx.o_eq, hx.l_eq, hx.sub_eq, hx.flags_eq, hx.high_eq, hx.m_eq, heven]
  case cancel d o | collabort d o =>
    obtain ⟨hd, heven, ho⟩ := hi
    refine decodeNat_W_do rfl (by decide) hd ho fun x hx => ?_
    simp [hx.op_eq, decodeNat_op6B, decodeNat_op70, decodeOp6B, decodeOp70, hx.d_eq, hx.o_eq, hx.l_eq, hx.sub_eq, hx.flags_eq, heven]
  case rel o =>
    refine decodeNat_W_do (c := 3523215376) (d := 0) (by simp [encode]) (by decide) (by decide) hi fun x hx => ?_
    simp [decodeNat_op69 hx.op_eq, decodeOp69, hx.d_eq, hx.o_eq, hx.l_eq, hx.sub_eq, hx.flags_eq]
  case bind o l =>
    obtain ⟨ho, hl, heven⟩ := hi
    refine decodeNat_W (c := 3523215392) (d := 0) (by simp [encode]) (by decide) (by decide) ho hl fun x hx => ?_
    simp [decodeNat_op69 hx.op_eq, decodeOp69, hx.d_eq, hx.o_eq, hx.l_eq, hx.sub_eq, hx.flags_eq, heven]
  case sfence n =>
    obtain ⟨-, hn⟩ := hi
    interval_cases n <;> rfl
  -- Events
  all_goals exact absurd rfl hne

end Sys2Proof

/-! PROOFS. The statements about instruction words: the round trip of decoder and encoder, and illegal encodings (R33 to R57). -/

namespace Sys2Proof

/-! ## Words in memory (R3) -/

theorem wordOfBytes_bytesOfWord {w : Nat} (h : w < 2 ^ 32) :
    wordOfBytes (BitVec.ofNat 8 w) (BitVec.ofNat 8 (w / 256)) (BitVec.ofNat 8 (w / 65536)) (BitVec.ofNat 8 (w / 16777216)) = w := by
  simp only [wordOfBytes, BitVec.toNat_ofNat]
  omega

/-- Four bytes whose word decodes are read as its instruction. The list and the decoder are variables while `decodeBytes` unfolds: on
given bytes the kernel would run the decoder's division there, in unary. -/
theorem decodeBytes_of_decodeNat {b0 b1 b2 b3 : Byte} {rest l : List Byte} {w : Nat} {i : Instr}
    (hl : l = b0 :: b1 :: b2 :: b3 :: rest) (hw : wordOfBytes b0 b1 b2 b3 = w) (hi : decodeNat w = .ok i) :
    decodeBytes l = .ok (i, rest) := by
  obtain ⟨decode, h⟩ : ∃ f, f = decodeNat := ⟨_, rfl⟩
  delta decodeBytes
  rw [← h] at hi ⊢
  subst hl
  simp only [hw, hi]

theorem decodeTableWord_of_decodeNat {w : Nat} {i : Instr} (h : w < 2 ^ 32) (hi : decodeNat w = .ok i) :
    decodeTableWord 32 w = some i := by
  have hbytes : decodeBytes (bytesOfWord w) = .ok (i, []) := decodeBytes_of_decodeNat rfl (wordOfBytes_bytesOfWord h) hi
  rw [decodeTableWord, if_neg (by decide), Nat.mod_eq_of_lt h, hbytes]

/-- No opcode is above 0x70, so a number that decodes has 32 bits. -/
theorem lt_of_decodeNat {w : Nat} {i : Instr} (h : decodeNat w = .ok i) : w < 2 ^ 32 := by
  have hop := opcode_of_decodeMajor h
  simp only [List.mem_cons, List.not_mem_nil, or_false] at hop
  omega

end Sys2Proof

namespace Sys2Proof.Machine

/-! ## Illegal encodings (R57) -/

section
variable {w k : Nat}

theorem exec_decodeIllegalEncoding_of_error (hw : decodeNat w = .error k) (s : State) :
    exec (.decodeIllegalEncoding w) s = .next (s.raises (frontCause 1 k (me s.sys).pc)) := by
  show execDecodeIllegalEncoding w s = _
  simp only [execDecodeIllegalEncoding, lift, hw]
  rfl

/-- At the push point an illegal word is answered once the queue has a free entry; in handler mode it needs none (R13). -/
theorem exec_backendPush_of_error (hw : decodeNat w = .error k) (s : State) :
    exec (.backendPush w) s =
      if (me s.sys).handler = false ∧ 64 ≤ (me s.sys).queue.length then .next s
      else .next (s.raises (frontCause 1 k (me s.sys).pc)) := by
  show execBackendPush w s = _
  simp only [execBackendPush, lift, hw, Bool.and_eq_true, Bool.not_eq_true', decide_eq_true_eq]
  split <;> rfl

/-- vsave, vrestore and replay have no row in the queue's table and are executed by their own meanings (R133). -/
theorem exec_backendPush_of_handlerOnly {i : Instr} (hw : decodeNat w = .ok i)
    (hi : ∃ a, i = .vsave a ∨ i = .vrestore a ∨ i = .replay a) (s : State) : exec (.backendPush w) s = exec i s := by
  show execBackendPush w s = _
  obtain ⟨a, rfl | rfl | rfl⟩ := hi <;> simp only [execBackendPush, hw] <;> rfl

end

/-! ## The statements -/

/-- Settles O55: what the tables answer is compared with the sum of a word's fields, one way, and each instruction's word is
taken apart into its fields, the other. -/
theorem encodingsRoundTrip : Obligations.EncodingsRoundTrip := by
  refine ⟨fun i hi hne => ?_, fun w i _ hw => isWordOf_decodeNat w i hw, fun i j hi hj hne heq => ?_⟩
  · have hdec := decodeNat_encode hi hne
    have hlt := lt_of_decodeNat hdec
    exact ⟨hlt, hdec, decodeTableWord_of_decodeNat hlt hdec⟩
  · have hdec := decodeNat_encode hi hne
    rw [heq, decodeNat_encode hj (heq ▸ hne)] at hdec
    exact (Except.ok.inj hdec).symm

/-- Settles O11: a word that the encoding checks refuse raises its reason, at decode and at the push point; one that they pass is
pushed or executed by its row of the back end's table. -/
theorem illegalEncodings : Obligations.IllegalEncodings := by
  intro s w k
  refine ⟨fun hw => ⟨exec_decodeIllegalEncoding_of_error hw s, fun hfree => ?_, fun hh hfull => ?_⟩, fun i hw hback => ?_⟩
  · rw [exec_backendPush_of_error hw, if_neg]
    rintro ⟨hh, hfull⟩
    obtain hh' | hq := hfree
    · simp [hh] at hh'
    · omega
  · rw [exec_backendPush_of_error hw, if_pos ⟨hh, hfull⟩]
  · obtain hrow | hown := hback
    · obtain ⟨b, hb⟩ := Option.isSome_iff_exists.1 hrow
      rw [exec_backendPush_of_backOf hw hb, exec_of_backOf hb]
    · exact exec_backendPush_of_handlerOnly hw hown s

theorem decodeTableWord_of_encode {l : List (Nat × Instr)} (h : ∀ p ∈ l, wf p.2 = true ∧ encode p.2 ≠ 0 ∧ encode p.2 = p.1) :
    ∀ p ∈ l, decodeTableWord 32 p.1 = some p.2 := by
  intro p hp
  obtain ⟨hwf, hne, hword⟩ := h p hp
  rw [← hword]
  exact (encodingsRoundTrip.1 p.2 hwf hne).2.2

/-- Settles O56: each printed word is the word of the well-formed instruction beside it, and so decodes to it. -/
theorem decodeWords : Obligations.DecodeWords := decodeTableWord_of_encode (by decide)

end Sys2Proof.Machine

/-! PROOFS. The stamps of a role (R66 to R69): MODE's pending delta, ttmark and ttsync. -/

namespace Sys2Proof.Machine

/-- Settles O7: MODE and ttmark by their meanings; the number that ttmark writes is NS as a bit vector. -/
theorem modeAndMark : Obligations.ModeAndMark := by
  unfold Obligations.ModeAndMark
  intro s g p e rm t d
  refine ⟨?_, rfl, ?_⟩
  · show execMode g p e rm t s = _
    simp [execMode, State.withMe, modeOf]
  · show alu d [] (fun r => d64 (wrap 64 r.ns)) s = _
    rw [alu_next _ (List.forall_mem_nil _), d64_wrap]

/-! ## ttsync (R68) -/

/-- The zero-extended immediate is the 15-bit one, widened. -/
theorem imm15z_eq {i : Nat} (h : i < 32768) : imm15z i = (BitVec.ofNat 15 i).setWidth 64 := by
  apply BitVec.eq_of_toNat_eq
  simp only [imm15z, d64, BitVec.toNat_ofNat, BitVec.toNat_setWidth]
  omega

/-- The role after a ttsync to T: its next stamp is T. -/
def RoleSt.synced (r : RoleSt) (t : Nat) : RoleSt := { r with p := (t : Int) - 1, d := 0, pWord := r.pc, pc := r.pc + 4 }

theorem ns_synced (r : RoleSt) (t : Nat) : (r.synced t).ns = t := by simp [RoleSt.synced, RoleSt.ns]

theorem ns_synced_of_delta (r : RoleSt) (t : Nat) {d : Nat} (hd : 1 ≤ d) :
    RoleSt.ns { r.synced t with d := d } = (t : Int) - 1 + d := by simp [RoleSt.synced, RoleSt.ns, hd]

/-- A ttsync whose source is there: nothing in handler mode, a fault for a target that has passed, else the stamp. -/
theorem exec_ttsync_of_readable {s : State} {a i : Nat} (hi : i < 32768) (ha : s.sys.waits a = false) :
    exec (.ttsync a i) s = .next (
      let r := me s.sys
      let target := (r.s a + (BitVec.ofNat 15 i).setWidth 64).toNat
      if r.handler = true then s.goneTo (r.pc + 4)
      else if (target : Int) ≤ r.p ∨ target < s.ttc + 2 then s.raises (domainCause 3 r.pc 255)
      else s.withMe (r.synced target)) := by
  show execTtsync a i s = _
  simp only [execTtsync, lift_eq, ha, Bool.false_eq_true, if_false, ← imm15z_eq hi]
  by_cases hh : (me s.sys).handler = true
  · rw [if_pos hh, if_pos hh]
    rfl
  · rw [if_neg hh, if_neg hh]
    split
    case isTrue hlate => exact congrArg _ (if_pos hlate).symm
    case isFalse hlate => exact congrArg _ (if_neg hlate).symm

/-- Settles O8, by the three outcomes of a ttsync whose source is there. -/
theorem timetableSync : Obligations.TimetableSync := by
  unfold Obligations.TimetableSync
  intro s a i hi hread
  have hexec := exec_ttsync_of_readable hi (hread a (by simp))
  dsimp only at hexec ⊢
  refine ⟨fun hh => ?_, fun hh hlate => ?_, fun hh hp hc => ⟨?_, ns_synced .., fun d hd => ns_synced_of_delta _ _ hd⟩⟩
  · rw [hexec, if_pos hh]
  · rw [hexec, if_neg (by simp [hh]), if_pos hlate]
  · rw [hexec, if_neg (by simp [hh]), if_neg (by omega)]
    rfl

end Sys2Proof.Machine

/-! PROOFS. A row that samples (R74, R87): what it puts in flight, and its entry's progress. -/

namespace Sys2Proof.Machine

/-! ## What a core is given -/

theorem consume_frame (c : Core) (rs : List Nat) (t : Nat) : ∃ ss e, c.consume rs t = { c with streams := ss, streamend := e } := by
  refine List.foldlRecOn (motive := fun k : Core => ∃ ss e, k = { c with streams := ss, streamend := e }) _ _
    ⟨c.streams, c.streamend, rfl⟩ fun k hk st _ => ?_
  obtain ⟨ss, e, rfl⟩ := hk
  obtain ⟨ss', e', h⟩ := advance_frame { c with streams := ss, streamend := e } st.sid
  exact ⟨ss', e', h⟩

/-- The landings of a list as they go in flight, numbered from a number on; what would land in s0 is discarded (R11). -/
def numbered (n : Nat) (ls : List Landing) : List Landing :=
  let ls := ls.filter fun l => !l.toS0
  ((List.range ls.length).zip ls).map fun p => { p.2 with lid := n + p.1 }

theorem map_numbered (n : Nat) (ls : List Landing) :
    (numbered n ls).map (fun l => { l with lid := 0 }) = (ls.filter fun l => !l.toS0).map fun l => { l with lid := 0 } := by
  have h : ∀ ls : List Landing, ((List.range ls.length).zip ls).map Prod.snd = ls := fun ls => List.map_snd_zip (by simp)
  conv_rhs => rw [← h (ls.filter fun l => !l.toS0)]
  simp [numbered, Function.comp_def]

/-- A core with more landings and scratchpad reads in flight. -/
def Core.sent (c : Core) (ls : List Landing) (ps : List Pend) : Core :=
  { c with
    landings := c.landings ++ numbered c.nextLid ls
    nextLid := c.nextLid + (ls.filter fun l => !l.toS0).length
    pends := c.pends ++ ps }

theorem coreOf_addPends_addLandings (y : Sys) (core x : Nat) (ls : List Landing) (ps : List Pend) :
    coreOf (addPends (addLandings y core ls) core ps) x = if x = core then (coreOf y core).sent ls ps else coreOf y x := by
  simp only [addPends, addLandings, coreOf_setCore, coreOf_id, if_true]
  split
  · simp only [Core.sent, coreOf_id]
    rfl
  · rfl

/-! ## Queues -/

theorem queue_countHalt (y : Sys) (g core : Nat) {role : Nat} (hr : role < 3) :
    (roleOf (countHalt y g core role) core role).queue = (roleOf y core role).queue := by
  have hcounted : (roleOf (setRole y core role { roleOf y core role with counted := true }) core role).queue =
      (roleOf y core role).queue := by rw [roleOf_setRole_same _ _ _ _ hr]
  unfold countHalt
  dsimp only
  split
  · split
    · split <;> exact hcounted
    · exact hcounted
  · rfl

/-- Retirement takes entries off the front of a queue (R14). -/
theorem queue_retire (tab : Instr → Option Back) (s : State) (y : Sys) (core : Nat) {role : Nat} (hr : role < 3) :
    ∃ q, (roleOf y core role).queue = q ++ (roleOf (retire tab s y core role) core role).queue := by
  refine ⟨(roleOf y core role).queue.takeWhile (retired tab { s with sys := y } core role), ?_⟩
  rw [retire, queue_countHalt _ _ _ hr, roleOf_setRole_same _ _ _ _ hr, List.takeWhile_append_dropWhile]

/-! ## The event -/

/-- An entry of which row k has sampled. -/
def Entry.sampledRow (e : Entry) (op : BackOp) (k : Nat) : Entry := { e with prog := k + 1, acc := (op.keep k).getD e.acc }

/-- The machine in which row k of an entry has sampled, before entries retire. -/
def rowSampled (y : Sys) (core role : Nat) (e : Entry) (op : BackOp) (k cyc : Nat) (ls : List Landing) (ps : List Pend) : Sys :=
  let z := setRole y core role ((roleOf y core role).setEntry (e.sampledRow op k))
  addPends (addLandings (if k + 1 = op.rows then setCore z ((coreOf z core).consume op.reads (e.issued.getD cyc)) else z) core ls) core ps

section
variable (y : Sys) (core role : Nat) (e : Entry) (op : BackOp) (k cyc : Nat) (ls : List Landing) (ps : List Pend)

/-- Beside what is sent and the role's entry, streams alone move on (R167). -/
theorem coreOf_rowSampled_same : ∃ ss x, coreOf (rowSampled y core role e op k cyc ls ps) core =
    ({ coreOf y core with streams := ss, streamend := x }.setRole role ((roleOf y core role).setEntry (e.sampledRow op k))).sent ls ps := by
  simp only [rowSampled, coreOf_addPends_addLandings, if_true]
  split
  · obtain ⟨ss, x, h⟩ := consume_frame ((coreOf y core).setRole role ((roleOf y core role).setEntry (e.sampledRow op k)))
      op.reads (e.issued.getD cyc)
    refine ⟨ss, x, ?_⟩
    simp only [coreOf_setRole, coreOf_setCore, if_true, h, Core.setRole_id, coreOf_id]
    rfl
  · exact ⟨(coreOf y core).streams, (coreOf y core).streamend, by simp only [coreOf_setRole, if_true]⟩

theorem coreOf_rowSampled_other {x : Nat} (hx : x ≠ core) : coreOf (rowSampled y core role e op k cyc ls ps) x = coreOf y x := by
  simp only [rowSampled, coreOf_addPends_addLandings, if_neg hx]
  split
  · obtain ⟨ss, w, h⟩ := consume_frame ((coreOf y core).setRole role ((roleOf y core role).setEntry (e.sampledRow op k)))
      op.reads (e.issued.getD cyc)
    simp [coreOf_setCore, coreOf_setRole, h, hx]
  · simp [coreOf_setRole, hx]

end

section
variable {s : State} {core role seq k : Nat} {e : Entry} (hs : s.clearCycle core)
  (he : (roleOf s.sys core role).queue.find? (fun x => x.seq == seq) = some e)
include hs he

/-- A row that is not the entry's next changes nothing. -/
theorem sampleRow_of_not_next (hk : e.prog ≠ k) : sampleRow backOf s core role seq k = s.sys := by
  simp [sampleRow, guarded_of_clearCycle hs, domOfCore_run_of_clearCycle hs, he, hk]

/-- The entry's next row samples; what else the event does is to retire entries. -/
theorem sampleRow_of_next (hissued : e.issued.isSome = true) (hk : e.prog = k) {ls : List Landing} {ps : List Pend}
    (hsample : (opAt backOf s core role e).sample k = .ok (ls, ps)) : sampleRow backOf s core role seq k =
      retire backOf s (rowSampled s.sys core role e (opAt backOf s core role e) k ((domOfCore s.sys core).ttc s.gtc) ls ps) core role := by
  have hnext : ¬ ((decide (e.prog ≠ k) || e.issued.isNone) = true) := by
    rw [← Option.not_isSome, hissued, hk]; simp
  have hrun : ¬ (((domOfCore s.sys core).st != DomState.run) = true) := by simp [domOfCore_run_of_clearCycle hs]
  simp only [sampleRow, guarded_of_clearCycle hs, if_neg hrun, he]
  rw [if_neg hnext, hsample]
  rfl

end

/-- Settles O19: the row is sampled as the entry's next, and the retirement after it takes at most entries off the front. -/
theorem rowSample : Obligations.RowSample := by
  unfold Obligations.RowSample
  intro s core role seq k e ls ps hs hr he hissued
  refine ⟨fun hk hsample => ?_, fun hk => congrArg _ (congrArg _ (sampleRow_of_not_next hs he hk))⟩
  obtain rfl : e.seq = seq := by simpa using List.find?_some he
  generalize hop : opAt backOf s core role e = op at hsample
  obtain ⟨ss, x, hcore⟩ := coreOf_rowSampled_same s.sys core role e op k ((domOfCore s.sys core).ttc s.gtc) ls ps
  have hother := fun c => coreOf_rowSampled_other s.sys core role e op k ((domOfCore s.sys core).ttc s.gtc) ls ps (x := c)
  generalize hz : rowSampled s.sys core role e op k ((domOfCore s.sys core).ttc s.gtc) ls ps = z at hcore hother
  have hexec : exec (.rowSample core role e.seq k 0) s = .next { s with sys := retire backOf s z core role } := by
    rw [← hz, ← hop, ← sampleRow_of_next hs he hissued hk (hop ▸ hsample)]
    rfl
  have hret := retire_requeuedAt backOf s z core hr
  obtain ⟨q, hq⟩ := queue_retire backOf s z core hr
  refine ⟨_, hexec, ?_, ?_, ⟨q, ?_⟩, ?_, ?_, fun c hc => (hret.1 c hc).trans (hother c hc), rfl, rfl⟩
  · rw [hret.2.read Core.pends, hcore]
    rfl
  · rw [hret.2.read Core.landings, hcore]
    simp only [Core.sent, List.map_append, map_numbered]
    rfl
  · rw [← hq, roleOf.eq_def z, hcore]
    show _ = ((Core.setRole _ _ _).role role).queue
    rw [Core.role_setRole_same _ _ _ hr]
    rfl
  · rw [hret.2.read Core.pool, hcore]
    rfl
  · rw [hret.2.read Core.masks, hcore]
    rfl

end Sys2Proof.Machine

/-! PROOFS. The statement about frame boundaries, pre-emption and resumes fails (R84, R86): a thermal freeze at a frame boundary also takes
the mark of the front ends' turns (`Domain.fronted`), and the statement keeps it. -/

namespace Sys2Proof.Machine

/-- The launch of one word in its cycle 4,096, a frame boundary, with its front ends marked as the domain's turn marks them
(`markFronts`), and a thermal emergency of its chip. -/
def hotBoundary : State :=
  let s : State := { State.reset.withFetchWord 32 0 with gtc := 4096 }
  let d := oneWordDomain 1 0
  { s with sys := { markFronts (setDom s.sys d) 4096 d with mgmt := { s.sys.mgmt with emergency := true } } }

/-- Its domain runs its cycle 4,096, marked. -/
theorem domAt_hotBoundary : domAt hotBoundary.sys 1 = some { oneWordDomain 1 0 with fronted := some 4096 } := by decide

/-- After the event the domain is frozen without the mark. -/
theorem fronted_frameBoundary_hotBoundary {t : State} (h : exec (.frameBoundary 1) hotBoundary = .next t) :
    (domAt t.sys 1).map Domain.fronted = some none := by
  obtain rfl := Host.Outcome.next.inj h
  decide

/-- Refutes O42: in a thermal emergency the freeze at the frame boundary clears `fronted` too, which the statement leaves as it was. -/
theorem not_framesFreezesResumes : ¬ Obligations.FramesFreezesResumes := by
  unfold Obligations.FramesFreezesResumes
  rintro ⟨hframe, -⟩
  obtain ⟨t, hexec, -, -, hdom⟩ := (hframe hotBoundary 1 _ domAt_hotBoundary).2 (by decide)
  have hmark := fronted_frameBoundary_hotBoundary hexec
  rw [hdom (by decide), if_pos (by decide)] at hmark
  exact absurd hmark (by decide)

end Sys2Proof.Machine

/-! PROOFS. What the event log, the freeze of a domain and the reset of a device leave alone (R87, R367, R379, R392). -/

namespace Sys2Proof.Machine

/-! ## The event log -/

/-- A machine in which event records have been written: the ring's registers, the vectors and the copy of the last records have
changed, and posts have been added. -/
def Logged (y z : Sys) : Prop := ∃ h n l vs rs ps, z = { y with
  mgmt := { y.mgmt with evhead := h, evposted := n, evlost := l, vectors := vs, recent := rs }, posts := ps }

theorem Logged.refl (y : Sys) : Logged y y := ⟨_, _, _, _, _, _, rfl⟩

theorem Logged.trans {x y z : Sys} (h : Logged x y) (h' : Logged y z) : Logged x z := by
  obtain ⟨_, _, _, _, _, _, rfl⟩ := h
  obtain ⟨_, _, _, _, _, _, rfl⟩ := h'
  exact ⟨_, _, _, _, _, _, rfl⟩

theorem raiseMsix_logged (y : Sys) (fn vec : Nat) : Logged y (raiseMsix y fn vec) := by
  obtain ⟨v, l, h⟩ := raiseMsix_frame y fn vec
  rw [h]
  exact ⟨_, _, _, _, _, _, rfl⟩

theorem recent_raiseMsix (y : Sys) (fn vec : Nat) : (raiseMsix y fn vec).mgmt.recent = y.mgmt.recent := by
  obtain ⟨v, l, h⟩ := raiseMsix_frame y fn vec
  rw [h]

section
variable (y : Sys) (g cls vd source detail addr value : Nat)

theorem writeEvent_logged : Logged y (writeEvent y g cls vd source detail addr value) := by
  unfold writeEvent
  dsimp only
  split
  · split
    · exact Logged.trans ⟨_, _, _, _, _, _, rfl⟩ (raiseMsix_logged ..)
    · exact ⟨_, _, _, _, _, _, rfl⟩
  · exact ⟨_, _, _, _, _, _, rfl⟩

/-- The copy of the last 256 records ends with the new one (R406). -/
theorem getLast?_recent_writeEvent : (writeEvent y g cls vd source detail addr value).mgmt.recent.getLast? =
    some (eventBytes g cls vd source detail addr value) := by
  unfold writeEvent
  dsimp only
  split
  · split
    · rw [recent_raiseMsix]
      simp [List.getLast?_drop]
    · simp [List.getLast?_drop]
  · simp [List.getLast?_drop]

end

/-- A bit of READY clears, with its record if it was set (R392). -/
theorem clearReady_logged (y : Sys) (g bit : Nat) :
    Logged { y with mgmt := { y.mgmt with ready := y.mgmt.ready &&& ~~~(1#64 <<< bit) } } (clearReady y g bit) := by
  unfold clearReady
  split
  case isTrue => exact writeEvent_logged ..
  case isFalse h =>
    have hclear : y.mgmt.ready &&& ~~~(1#64 <<< bit) = y.mgmt.ready := by
      apply BitVec.eq_of_getLsbD_eq
      intro i hi
      by_cases hb : i = bit
      · simp [hb, Bool.eq_false_iff.2 h]
      · have : i < bit ∨ i - bit ≠ 0 := by omega
        simp [hi, this]
    rw [hclear]
    exact .refl y

/-! ## What changes the cores alone -/

/-- A machine whose cores alone may have changed. -/
def OnlyCores (y z : Sys) : Prop := ∃ cs, z = { y with cores := cs }

theorem OnlyCores.refl (y : Sys) : OnlyCores y y := ⟨_, rfl⟩

theorem OnlyCores.trans {x y z : Sys} (h : OnlyCores x y) (h' : OnlyCores y z) : OnlyCores x z := by
  obtain ⟨_, rfl⟩ := h
  obtain ⟨_, rfl⟩ := h'
  exact ⟨_, rfl⟩

theorem setCore_onlyCores (y : Sys) (c : Core) : OnlyCores y (setCore y c) := ⟨_, rfl⟩

theorem OnlyCores.foldl {α : Type} {f : Sys → α → Sys} (hf : ∀ y a, OnlyCores y (f y a)) (y : Sys) (l : List α) :
    OnlyCores y (l.foldl f y) :=
  List.foldlRecOn (motive := OnlyCores y) l f (.refl y) fun z hz a _ => hz.trans (hf z a)

theorem landVec_onlyCores (y : Sys) (core : Nat) (l : Landing) : OnlyCores y (landVec y core l) := by
  unfold landVec
  dsimp only
  split
  · split
    · generalize List.flatMap _ _ = bytes
      cases bytes with
      | nil => split <;> first | exact setCore_onlyCores .. | exact .refl y
      | cons p ps => split <;> first | exact (setCore_onlyCores ..).trans (setCore_onlyCores ..) | exact setCore_onlyCores ..
    · exact .refl y
  · exact setCore_onlyCores ..

theorem makeLanding_onlyCores (y : Sys) (core : Nat) (l : Landing) : OnlyCores y (makeLanding y core l) := by
  unfold makeLanding
  dsimp only
  split
  case h_1 => exact landVec_onlyCores ..
  case h_2 => split <;> first | exact .refl y | exact setCore_onlyCores ..
  case h_5 => split <;> first | exact setCore_onlyCores .. | exact .refl y
  all_goals exact setCore_onlyCores ..

/-- A freeze completes what has started, on the cores (R87, R260). -/
theorem settle_onlyCores (tab : Instr → Option Back) (s : State) (y : Sys) (dom : Nat) : OnlyCores y (settle tab s y dom) := by
  have hpay : ∀ d z o, OnlyCores z (payOwed tab s d z o) := fun d z o => by
    unfold payOwed
    split
    · exact .refl z
    · dsimp only
      split
      · exact (setCore_onlyCores ..).trans (setCore_onlyCores ..)
      · split
        · exact .refl z
        · exact (setCore_onlyCores ..).trans (setCore_onlyCores ..)
  have hunheld : ∀ d z c, OnlyCores z (settleUnheld tab s d z c) := fun d z c =>
    (OnlyCores.foldl (fun x l => makeLanding_onlyCores x c l) ..).trans (setCore_onlyCores ..)
  unfold settle
  split
  · split
    · exact (OnlyCores.foldl (hpay _) ..).trans (OnlyCores.foldl (hunheld _) ..)
    · exact .refl y
  · exact .refl y

/-! ## The reset of a device (R367) -/

/-- A machine with the management block and the virtual devices of another. -/
def SameDevs (y z : Sys) : Prop := z.mgmt = y.mgmt ∧ z.vds = y.vds

theorem SameDevs.refl (y : Sys) : SameDevs y y := ⟨rfl, rfl⟩

theorem SameDevs.trans {x y z : Sys} (h : SameDevs x y) (h' : SameDevs y z) : SameDevs x z := ⟨h'.1.trans h.1, h'.2.trans h.2⟩

theorem SameDevs.foldl {α : Type} {f : Sys → α → Sys} (hf : ∀ y a, SameDevs y (f y a)) (y : Sys) (l : List α) : SameDevs y (l.foldl f y) :=
  List.foldlRecOn (motive := SameDevs y) l f (.refl y) fun z hz a _ => hz.trans (hf z a)

theorem OnlyCores.sameDevs {y z : Sys} (h : OnlyCores y z) : SameDevs y z := by
  obtain ⟨_, rfl⟩ := h
  exact ⟨rfl, rfl⟩

theorem holdDevice_sameDevs (s : State) (y : Sys) (vk : Nat) : SameDevs y (holdDevice s y vk) :=
  .foldl (fun z d => by
    have hhold : SameDevs z (holdDomain z s.gtc d) := by
      unfold holdDomain
      split
      · exact .refl z
      · exact ⟨rfl, rfl⟩
    dsimp only
    split
    · exact hhold.trans (settle_onlyCores ..).sameDevs
    · exact hhold) ..

theorem abandonLaunch_sameDevs (y : Sys) (g vk seq : Nat) : SameDevs y (abandonLaunch y g vk seq) := by
  have hmark : SameDevs y (markProxied y (launchRef vk seq)) := ⟨rfl, rfl⟩
  refine hmark.trans (.foldl (fun z o => ?_) ..)
  split
  · exact ⟨rfl, rfl⟩
  · exact .refl z

theorem resetDomains_sameDevs (y : Sys) (g vk : Nat) : SameDevs y (resetDomains y g vk) :=
  .foldl (fun z d => by
    dsimp only
    split
    · exact ⟨rfl, rfl⟩
    · exact SameDevs.trans ⟨rfl, rfl⟩ (abandonLaunch_sameDevs ..)) ..

theorem clearCores_sameDevs (y : Sys) (cs : List Nat) : SameDevs y (clearCores y cs) :=
  (OnlyCores.foldl (fun _ _ => setCore_onlyCores ..) ..).sameDevs

theorem vdOf_of_sameDevs {y z : Sys} (h : SameDevs y z) (k : Nat) : vdOf z k = vdOf y k := by rw [vdOf, vdOf, h.2]

/-- What a reset leaves of the machine, before its device is marked. -/
theorem resetDevice_cases (s : State) (y : Sys) (vk : Nat) (h : (vdOf y vk).st ≠ .absent) : ∃ z v t i m, SameDevs y z ∧
    v.key = vk ∧ v.st = .resetting ∧ resetDevice s y vk = schedule (setVd z v) t i m := by
  unfold resetDevice
  dsimp only
  rw [if_neg h]
  generalize hz : List.foldl _ _ _ = z
  have habandon : SameDevs y z := by
    rw [← hz]
    exact ((holdDevice_sameDevs ..).trans (resetDomains_sameDevs ..)).trans (.foldl (fun _ _ => abandonLaunch_sameDevs ..) ..)
  refine ⟨_, _, _, _, _, ?_, ?_, ?_, rfl⟩
  · refine habandon.trans (SameDevs.trans ?_ ((clearCores_sameDevs ..).trans ⟨rfl, rfl⟩))
    exact ⟨rfl, rfl⟩
  · rfl
  · rfl

/-- A device that exists is RESETTING; the others and the management block are as they were. -/
theorem resetDevice_frame (s : State) (y : Sys) (vk : Nat) : (resetDevice s y vk).mgmt = y.mgmt ∧
    ∀ k, (vdOf (resetDevice s y vk) k).st = if k = vk ∧ (vdOf y vk).st ≠ .absent then .resetting else (vdOf y k).st := by
  by_cases h : (vdOf y vk).st = .absent
  · simp [resetDevice, h]
  · obtain ⟨z, v, t, i, m, hsame, hkey, hst, heq⟩ := resetDevice_cases s y vk h
    rw [heq]
    refine ⟨hsame.1, fun k => ?_⟩
    rw [vdOf_schedule, vdOf_setVd, hkey]
    by_cases hk : k = vk
    · simp [hk, h, hst]
    · simp [hk, vdOf_of_sameDevs hsame]

end Sys2Proof.Machine

/-! PROOFS. Thermal events, readiness and power (R86, R390 to R392, R397), and the statement about them. -/

namespace Sys2Proof.Machine

/-! ## Thermal events (R86, R390) -/

/-- The machine in which TEMP shows a reading (R390). -/
def State.reading (s : State) (x : Nat) : State := { s with sys := noteTemp s.sys x }

theorem lift_of_eq {f : State → Sys} {s : State} {y : Sys} (h : f s = y) : lift f s = .next { s with sys := y } := by
  rw [← h, lift_eq]

section
variable {s : State} {temp : Nat} (sensor : Nat)

theorem exec_thermalEmergency_of_cool (h : temp < s.sys.mgmt.temerg) :
    exec (.thermalEmergency sensor temp) s = .next (s.reading (max s.sys.mgmt.temp temp)) := by
  show execThermalEmergency sensor temp s = _
  exact lift_of_eq (if_pos h)

/-- An emergency begins with its record. -/
theorem exec_thermalEmergency_of_hot (h : s.sys.mgmt.temerg ≤ temp) : ∃ t, exec (.thermalEmergency sensor temp) s = .next t ∧
    t.sys.mgmt.emergency = true ∧ t.sys.mgmt.temp = max s.sys.mgmt.temp temp % 65536 ∧
    t.sys.mgmt.recent.getLast? = some (eventBytes s.gtc clsThermal noVd (sourceOf 5 sensor) 1 sensor temp) := by
  let y := noteTemp s.sys (max s.sys.mgmt.temp temp)
  let z : Sys := { y with mgmt := { y.mgmt with emergency := true } }
  obtain ⟨_, _, _, _, _, _, hlog⟩ := writeEvent_logged z s.gtc clsThermal noVd (sourceOf 5 sensor) 1 sensor temp
  refine ⟨{ s with sys := writeEvent z s.gtc clsThermal noVd (sourceOf 5 sensor) 1 sensor temp }, ?_, ?_, ?_, getLast?_recent_writeEvent ..⟩
  · show execThermalEmergency sensor temp s = _
    exact lift_of_eq (if_neg (Nat.not_lt.2 h))
  · rw [hlog]
  · rw [hlog]
    rfl

theorem exec_thermalClear_of_not (h : s.sys.mgmt.emergency = false ∨ s.sys.mgmt.temerg < temp + 32) :
    exec (.thermalClear sensor temp) s = .next (s.reading temp) := by
  have hgo : (!(noteTemp s.sys temp).mgmt.emergency || decide ((noteTemp s.sys temp).mgmt.temerg < temp + 32)) = true := by
    rcases h with h | h <;> simp [noteTemp, h]
  show execThermalClear sensor temp s = _
  exact lift_of_eq (if_pos hgo)

theorem exec_thermalCritical_of_cool (h : temp < s.sys.mgmt.tcrit) :
    exec (.thermalCritical sensor temp) s = .next (s.reading (max s.sys.mgmt.temp temp)) := by
  show execThermalCritical sensor temp s = _
  exact lift_of_eq (if_pos h)

end

/-! ### The thermal hold ends -/

theorem domAt_setDom (y : Sys) (d : Domain) (k : Nat) : domAt (setDom y d) k = if k = d.id then some d else domAt y k := by
  by_cases h : k = d.id
  · rw [h, domAt_setDom_same, if_pos rfl]
  · rw [domAt_setDom_other _ _ _ h, if_neg h]

/-- A domain that may resume changes its state alone, and no other domain changes (R89). -/
theorem domAt_tryResume (y : Sys) (g dom k : Nat) : domAt (tryResume y g dom) k = domAt y k ∨
    ∃ d, k = dom ∧ domAt y dom = some d ∧ domAt (tryResume y g dom) k = some { d with st := .resuming } := by
  unfold tryResume
  split
  case h_2 => exact .inl rfl
  case h_1 d hd =>
    split
    case isFalse => exact .inl rfl
    case isTrue =>
      have hdom := domAt_setDom y { d with st := .resuming } k
      by_cases hk : k = d.id
      · exact .inr ⟨d, hk.trans (domAt_id hd), hd, hdom.trans (if_pos hk)⟩
      · exact .inl (hdom.trans (if_neg hk))

/-- The thermal hold is taken from a domain, which resumes if nothing else holds it (R89, R390). -/
def unheat (g : Nat) (y : Sys) (d : Domain) : Sys := if d.thermal then tryResume (setDom y { d with thermal := false }) g d.id else y

theorem domAt_unheat_of_not {y : Sys} {d : Domain} {k : Nat} (g : Nat) (h : ¬ (k = d.id ∧ d.thermal = true)) :
    domAt (unheat g y d) k = domAt y k := by
  unfold unheat
  split
  case isFalse => rfl
  case isTrue hhot =>
    have hk : k ≠ d.id := fun hk => h ⟨hk, hhot⟩
    obtain hsame | ⟨_, hk', _⟩ := domAt_tryResume (setDom y { d with thermal := false }) g d.id k
    · rw [hsame, domAt_setDom, if_neg hk]
    · exact absurd hk' hk

theorem domAt_unheat_of_hot (g : Nat) (y : Sys) {d : Domain} (h : d.thermal = true) :
    (domAt (unheat g y d) d.id).map Domain.thermal = some false := by
  rw [unheat, if_pos h]
  have hput := domAt_setDom_same y { d with thermal := false }
  obtain hsame | ⟨e, -, he, hresumed⟩ := domAt_tryResume (setDom y { d with thermal := false }) g d.id d.id
  · rw [hsame, hput]
    rfl
  · rw [hresumed, ← Option.some.inj (hput.symm.trans he)]
    rfl

/-- The hold is gone from a domain once every record of the list has had its turn. -/
theorem thermal_foldl_unheat (g k : Nat) (ds : List Domain) (y : Sys)
    (h : (domAt y k).map Domain.thermal = some false ∨ ∃ d ∈ ds, domAt y k = some d) :
    (domAt (ds.foldl (unheat g) y) k).map Domain.thermal = some false := by
  induction ds generalizing y with
  | nil =>
    obtain h | ⟨d, hd, -⟩ := h
    · exact h
    · cases hd
  | cons d ds ih =>
    apply ih
    by_cases hhot : k = d.id ∧ d.thermal = true
    · obtain ⟨rfl, hhot⟩ := hhot
      exact .inl (domAt_unheat_of_hot g y hhot)
    · rw [domAt_unheat_of_not g hhot]
      obtain h | ⟨e, he, hdom⟩ := h
      · exact .inl h
      · obtain rfl | he := List.mem_cons.1 he
        · have hcold : e.thermal = false := by simpa [domAt_id hdom] using hhot
          exact .inl (by rw [hdom, Option.map_some, hcold])
        · exact .inr ⟨e, he, hdom⟩

theorem emergency_unheat (g : Nat) (y : Sys) (d : Domain) : (unheat g y d).mgmt = y.mgmt := by
  unfold unheat tryResume
  split
  · split
    · split <;> rfl
    · rfl
  · rfl

/-- An emergency ends, and with it the hold of every domain. -/
theorem exec_thermalClear_of_cool {s : State} {temp : Nat} (sensor : Nat) (hem : s.sys.mgmt.emergency = true)
    (htemp : temp + 32 ≤ s.sys.mgmt.temerg) : ∃ t, exec (.thermalClear sensor temp) s = .next t ∧ t.sys.mgmt.emergency = false ∧
      ∀ id d, domAt s.sys id = some d → ∃ d', domAt t.sys id = some d' ∧ d'.thermal = false := by
  let y := noteTemp s.sys temp
  let z := writeEvent { y with mgmt := { y.mgmt with emergency := false } } s.gtc clsThermal noVd (sourceOf 5 sensor) 2 sensor temp
  obtain ⟨_, _, _, _, _, _, hlog⟩ : Logged { y with mgmt := { y.mgmt with emergency := false } } z := writeEvent_logged ..
  have hgo : (!y.mgmt.emergency || decide (y.mgmt.temerg < temp + 32)) = false := by simp [y, noteTemp, hem, htemp]
  refine ⟨{ s with sys := z.doms.foldl (unheat s.gtc) z }, ?_, ?_, fun id d hd => ?_⟩
  · show execThermalClear sensor temp s = _
    exact lift_of_eq (if_neg (by rw [hgo]; exact Bool.false_ne_true))
  · have hmgmt : (z.doms.foldl (unheat s.gtc) z).mgmt = z.mgmt :=
      List.foldlRecOn (motive := fun x => x.mgmt = z.mgmt) _ _ rfl fun x hx d _ => (emergency_unheat s.gtc x d).trans hx
    show (z.doms.foldl (unheat s.gtc) z).mgmt.emergency = false
    rw [hmgmt, hlog]
  · have hz : domAt z id = some d := by rw [hlog]; exact hd
    have hmem : d ∈ z.doms := List.mem_of_find?_eq_some hz
    obtain ⟨d', hd', hcold⟩ := Option.map_eq_some_iff.1 (thermal_foldl_unheat s.gtc id z.doms z (.inr ⟨d, hmem, hz⟩))
    exact ⟨d', hd', hcold⟩

/-! ## The reset of every device -/

/-- Every virtual device of the chip is reset, in ascending VDID (R390, R392). -/
def resetAll (s : State) (y : Sys) : Sys := (List.range 32).foldl (fun y n => resetDevice s y (y.mgmt.chip * 32 + n)) y

theorem mgmt_resetDevices (s : State) (ns : List Nat) (y : Sys) :
    (ns.foldl (fun y n => resetDevice s y (y.mgmt.chip * 32 + n)) y).mgmt = y.mgmt :=
  List.foldlRecOn (motive := fun z => z.mgmt = y.mgmt) _ _ rfl fun z hz _ _ => (resetDevice_frame s z _).1.trans hz

/-- A device that was there, or is RESETTING, is RESETTING once each of a list has been reset, itself among them. -/
theorem st_resetDevices (s : State) (k : Nat) (ns : List Nat) (y : Sys)
    (h : (vdOf y k).st = .resetting ∨ (vdOf y k).st ≠ .absent ∧ ∃ n ∈ ns, k = y.mgmt.chip * 32 + n) :
    (vdOf (ns.foldl (fun y n => resetDevice s y (y.mgmt.chip * 32 + n)) y) k).st = .resetting := by
  induction ns generalizing y with
  | nil =>
    obtain h | ⟨-, n, hn, -⟩ := h
    · exact h
    · cases hn
  | cons n ns ih =>
    obtain ⟨hmgmt, hst⟩ := resetDevice_frame s y (y.mgmt.chip * 32 + n)
    apply ih
    rw [hst k, hmgmt]
    by_cases hk : k = y.mgmt.chip * 32 + n ∧ (vdOf y (y.mgmt.chip * 32 + n)).st ≠ .absent
    · exact .inl (if_pos hk)
    · rw [if_neg hk]
      obtain h | ⟨hthere, m, hm, hkm⟩ := h
      · exact .inl h
      · obtain rfl | hm := List.mem_cons.1 hm
        · exact absurd ⟨hkm, hkm ▸ hthere⟩ hk
        · exact .inr ⟨hthere, m, hm, hkm⟩

/-- At or above TCRIT the module's power goes, and its memory with it (R390, R397). -/
theorem exec_thermalCritical_of_hot {s : State} {temp : Nat} (sensor : Nat) (h : s.sys.mgmt.tcrit ≤ temp) :
    ∃ z : Sys, z.mgmt.chip = s.sys.mgmt.chip ∧ exec (.thermalCritical sensor temp) s = .next { s with sys := losePower z } := by
  let y := noteTemp s.sys (max s.sys.mgmt.temp temp)
  let z := writeEvent y s.gtc clsThermal noVd (sourceOf 5 sensor) 3 sensor temp
  refine ⟨(List.range 48).foldl (fun y b => clearReady y s.gtc b) (resetAll s z), ?_, ?_⟩
  · have hz : z.mgmt.chip = s.sys.mgmt.chip := by
      obtain ⟨_, _, _, _, _, _, hlog⟩ : Logged y z := writeEvent_logged ..
      rw [hlog]
      rfl
    have hreset : (resetAll s z).mgmt.chip = z.mgmt.chip := by rw [resetAll, mgmt_resetDevices]
    refine List.foldlRecOn (motive := fun x : Sys => x.mgmt.chip = s.sys.mgmt.chip) _ _ (hreset.trans hz) fun x hx b _ => ?_
    obtain ⟨_, _, _, _, _, _, hlog⟩ := clearReady_logged x s.gtc b
    rw [hlog]
    exact hx
  · show execThermalCritical sensor temp s = _
    exact lift_of_eq (if_neg (Nat.not_lt.2 h))

/-! ## Readiness (R391, R392) -/

/-- The event may set its bit. -/
def mayBeReady (m : Mgmt) (bit : Nat) : Prop :=
  m.power = true ∧ 1 ≤ bit ∧ bit < 48 ∧ (12 ≤ bit → bit < 24 → m.ready.getLsbD 5 = true)

theorem refuses_iff (y : Sys) (bit : Nat) : (!y.mgmt.power || !maySet y bit) = true ↔ ¬ mayBeReady y.mgmt bit := by
  simp only [mayBeReady, maySet, Bool.or_eq_true, Bool.not_eq_true', Bool.and_eq_false_iff, decide_eq_false_iff_not, Bool.or_eq_false_iff,
    Bool.not_eq_false', Bool.and_eq_true, decide_eq_true_eq]
  cases hp : y.mgmt.power <;> cases h5 : y.mgmt.ready.getLsbD 5 <;> simp <;> omega

/-- The bit reads 1. -/
def withReady (y : Sys) (bit : Nat) : Sys := { y with mgmt := { y.mgmt with ready := y.mgmt.ready ||| (1#64 <<< bit) } }

/-- What comes with each function's bit. -/
def becomeReady (y : Sys) (g bit : Nat) : Sys :=
  if bit = 5 then setKeySlot (takeFree y).2 y.mgmt.chip 0 { KeySlot.empty with kind := 1, gen := 1, key := Config.freshKey y.free }
  else if bit = 6 then
    { y with sched := y.sched.filter fun e => match e.2.1 with | .pathDownExpiry _ => e.2.2.aux != 1 | _ => true }
  else if bit = 7 then { y with mgmt := { y.mgmt with hostGone := false } }
  else if 24 ≤ bit then raisePort y g (bit - 24)
  else y

section
variable {s : State} {bit : Nat}

theorem exec_functionReady_of_not (h : ¬ mayBeReady s.sys.mgmt bit) : exec (.functionReady bit) s = .next s := by
  show execFunctionReady bit s = _
  exact lift_of_eq (if_pos ((refuses_iff s.sys bit).2 h))

theorem exec_functionReady_of_may (h : mayBeReady s.sys.mgmt bit) :
    exec (.functionReady bit) s = .next { s with sys := becomeReady (withReady s.sys bit) s.gtc bit } := by
  show execFunctionReady bit s = _
  exact lift_of_eq (if_neg fun hno => (refuses_iff s.sys bit).1 hno h)

end

theorem portAt_setPort (y : Sys) {p : Nat} (hp : p < 24) (v : Port) : portAt (setPort y p v) p = v := by
  simp [portAt, setPort, hp]

theorem becomeReady_frame (y : Sys) (g bit : Nat) : (becomeReady y g bit).mgmt.ready = y.mgmt.ready ∧
    (bit ≠ 7 → (becomeReady y g bit).mgmt.hostGone = y.mgmt.hostGone) := by
  unfold becomeReady
  split
  · exact ⟨rfl, fun _ => rfl⟩
  · split
    · exact ⟨rfl, fun _ => rfl⟩
    · split
      · exact ⟨rfl, fun h => absurd ‹_› h⟩
      · split <;> exact ⟨rfl, fun _ => rfl⟩

theorem kind_becomeReady (y : Sys) (g : Nat) : (keySlot (becomeReady y g 5) y.mgmt.chip 0).kind = 1 := by
  have h := getBy_putBy_same Prod.fst (y.mgmt.chip * 64 + 0, { KeySlot.empty with kind := 1, gen := 1, key := Config.freshKey y.free }) y.keys
  unfold getBy at h
  simp only [becomeReady, if_true, keySlot, setKeySlot, takeFree]
  rw [h]
  rfl

theorem portAt_becomeReady (y : Sys) (g : Nat) {bit : Nat} (h : 24 ≤ bit) (h' : bit < 48) : portAt (becomeReady y g bit) (bit - 24) =
    { portAt y (bit - 24) with up := true, lost := none, stall := min (portAt y (bit - 24)).stall g } := by
  rw [becomeReady, if_neg (by omega), if_neg (by omega), if_neg (by omega), if_pos h]
  exact portAt_setPort y (by omega) _

/-! ## A bit of READY is lost (R392) -/

/-- The port is down, and its bit of READY reads 0. -/
theorem losePort_frame (y : Sys) (g p stall : Nat) : (losePort y g p stall).mgmt.ready = y.mgmt.ready &&& ~~~(1#64 <<< (24 + p)) ∧
    (p < 24 → (portAt (losePort y g p stall) p).up = false) := by
  unfold losePort
  dsimp only
  generalize hz : List.foldl _ _ _ = z
  let e := writeEvent y g clsPortDown noVd (sourceOf 2 p) 0 p (min stall 32000)
  let w := Port.stalled { portAt y p with up := false, lost := if (portAt y p).lost.isSome then (portAt y p).lost else some g } g (min stall 32000)
  have hmgmt : z.mgmt = (setPort e p w).mgmt := by
    rw [← hz]
    refine List.foldlRecOn (motive := fun x : Sys => x.mgmt = (setPort e p w).mgmt) _ _ rfl fun x hx c _ => ?_
    split <;> exact hx
  obtain ⟨_, _, _, _, _, _, hlog⟩ : Logged y e := writeEvent_logged ..
  obtain ⟨_, _, _, _, _, _, hclear⟩ := clearReady_logged z g (24 + p)
  rw [hclear]
  have hup : w.up = false := by
    simp only [w, Port.stalled]
    split <;> rfl
  refine ⟨?_, fun hp => ?_⟩
  · show z.mgmt.ready &&& _ = _
    rw [hmgmt, hlog]
    rfl
  · show (portAt z p).up = false
    rw [portAt, hmgmt, ← portAt, portAt_setPort e hp, hup]

theorem sched_foldl_schedule {α : Type} (t : Nat) (i : α → Instr) (m : α → HomeMsg) (cs : List α) (y : Sys) :
    (cs.foldl (fun y c => schedule y t (i c) (m c)) y).sched = y.sched ++ cs.map fun c => (t, i c, m c) := by
  induction cs generalizing y with
  | nil => simp
  | cons c cs ih => rw [List.foldl_cons, ih]; simp [schedule]

theorem mgmt_foldl_schedule {α : Type} (t : Nat) (i : α → Instr) (m : α → HomeMsg) (cs : List α) (y : Sys) :
    (cs.foldl (fun y c => schedule y t (i c) (m c)) y).mgmt = y.mgmt :=
  List.foldlRecOn (motive := fun z : Sys => z.mgmt = y.mgmt) _ _ rfl fun _ hz _ _ => hz

/-- What the loss of a bit brings, after its record. -/
def afterLoss (s : State) (y : Sys) (bit : Nat) : Sys :=
  if 24 ≤ bit then losePort (takeFree y).2 s.gtc (bit - 24) (Config.stallLength y.free % 32001)
  else if bit = 6 then
    (jobChips y).foldl (fun y c => schedule y (s.gtc + 32000) (.pathDownExpiry c) { noMsg with aux := 1, party := c }) y
  else resetAll s y

section
variable {s : State} {bit : Nat}

theorem exec_readyLost_of_clear (h : s.sys.mgmt.ready.getLsbD bit = false) : exec (.readyLost bit) s = .next s := by
  show execReadyLost bit s = _
  exact lift_of_eq (if_pos (by rw [h]; rfl))

theorem exec_readyLost_of_set (h : s.sys.mgmt.ready.getLsbD bit = true) :
    exec (.readyLost bit) s = .next { s with sys := afterLoss s (clearReady s.sys s.gtc bit) bit } := by
  show execReadyLost bit s = _
  exact lift_of_eq (if_neg (by rw [h]; exact Bool.false_ne_true))

end

/-- What follows the loss of a bit leaves the other bits of READY as they are. -/
theorem ready_afterLoss (s : State) (y : Sys) (bit : Nat) :
    (afterLoss s y bit).mgmt.ready = if 24 ≤ bit then y.mgmt.ready &&& ~~~(1#64 <<< bit) else y.mgmt.ready := by
  unfold afterLoss
  by_cases h : 24 ≤ bit
  · rw [if_pos h, if_pos h, (losePort_frame ..).1, Nat.add_sub_cancel' h]
    rfl
  · rw [if_neg h, if_neg h]
    split
    · rw [mgmt_foldl_schedule]
    · rw [resetAll, mgmt_resetDevices]

section
variable (s : State)

theorem port_afterLoss (y : Sys) {bit : Nat} (h : 24 ≤ bit) (h' : bit < 48) : (portAt (afterLoss s y bit) (bit - 24)).up = false := by
  rw [afterLoss, if_pos h]
  exact (losePort_frame ..).2 (by omega)

/-- GTCSYNC's loss announces every other chip of the jobs, 32,000 ticks later. -/
theorem sched_afterLoss (y : Sys) : (afterLoss s y 6).sched = y.sched ++ (jobChips y).map fun c =>
    (s.gtc + 32000, .pathDownExpiry c, { noMsg with aux := 1, party := c }) := by
  rw [afterLoss, if_neg (by decide), if_pos rfl]
  exact sched_foldl_schedule ..

theorem st_afterLoss (y : Sys) {bit n : Nat} (h : bit < 24) (h6 : bit ≠ 6) (hn : n < 32)
    (hthere : (vdOf y (y.mgmt.chip * 32 + n)).st ≠ .absent) : (vdOf (afterLoss s y bit) (y.mgmt.chip * 32 + n)).st = .resetting := by
  rw [afterLoss, if_neg (by omega), if_neg h6]
  exact st_resetDevices s _ _ y (.inr ⟨hthere, n, List.mem_range.2 hn, rfl⟩)

end

section
variable {s : State}

theorem exec_powerOn_of_on (h : s.sys.mgmt.power = true) : exec .powerOn s = .next s := by
  show execPowerOn s = _
  exact lift_of_eq (if_pos h)

theorem exec_powerOn_of_off (h : s.sys.mgmt.power = false) : exec .powerOn s = .next { s with
    sys := { s.sys with mgmt := { s.sys.mgmt with power := true, ready := 0, fwstate := .idle, hostGone := false } } } := by
  show execPowerOn s = _
  exact lift_of_eq (if_neg (by rw [h]; exact Bool.false_ne_true))

theorem exec_powerLoss_of_off (h : s.sys.mgmt.power = false) : exec .powerLoss s = .next s := by
  show execPowerLoss s = _
  exact lift_of_eq (if_neg (by rw [h]; exact Bool.false_ne_true))

theorem exec_powerLoss_of_on (h : s.sys.mgmt.power = true) : exec .powerLoss s = .next { s with sys := losePower s.sys } := by
  show execPowerLoss s = _
  exact lift_of_eq (if_pos h)

end

/-- Settles O54: the events of the sensors, of READY and of the power, each by its cases. -/
theorem thermalAndPower : Obligations.ThermalAndPower := by
  unfold Obligations.ThermalAndPower
  refine ⟨fun s sensor temp => ⟨exec_thermalEmergency_of_cool sensor, exec_thermalEmergency_of_hot sensor,
    exec_thermalClear_of_not sensor, exec_thermalClear_of_cool sensor, exec_thermalCritical_of_cool sensor, fun h => ?_⟩,
    fun s bit => ⟨exec_functionReady_of_not, fun h => ⟨_, exec_functionReady_of_may h, ?_⟩, exec_readyLost_of_clear,
      fun h _ => ⟨_, exec_readyLost_of_set h, ?_⟩, exec_powerOn_of_on, exec_powerOn_of_off, exec_powerLoss_of_off,
      fun h => ⟨_, exec_powerLoss_of_on h, rfl, rfl, rfl, rfl, rfl, rfl, rfl, rfl⟩⟩⟩
  case refine_1 =>
    obtain ⟨z, hchip, hexec⟩ := exec_thermalCritical_of_hot sensor h
    refine ⟨_, hexec, rfl, rfl, rfl, rfl, ?_⟩
    simp [losePower, hchip]
  case refine_2 =>
    obtain ⟨-, -, h48, -⟩ := h
    obtain ⟨hready, hhost⟩ := becomeReady_frame (withReady s.sys bit) s.gtc bit
    refine ⟨hready, ?_, ?_, ?_, hhost, fun h24 => portAt_becomeReady _ _ h24 h48⟩
    · rintro rfl
      exact kind_becomeReady (withReady s.sys 5) s.gtc
    · rintro rfl
      rfl
    · rintro rfl
      rfl
  case refine_3 =>
    have hafter := ready_afterLoss s (clearReady s.sys s.gtc bit) bit
    obtain ⟨_, _, _, _, _, _, hlog⟩ := clearReady_logged s.sys s.gtc bit
    rw [hlog] at hafter ⊢
    refine ⟨?_, fun h24 => port_afterLoss s _ h24, ?_, fun h24 h6 n hn hthere => st_afterLoss s _ h24 h6 hn hthere⟩
    · show _ = s.sys.mgmt.ready &&& ~~~(1#64 <<< bit)
      rw [hafter]
      split
      · exact (BitVec.and_assoc ..).trans (by rw [BitVec.and_self])
      · rfl
    · rintro rfl
      exact sched_afterLoss s _

end Sys2Proof.Machine

/-! PROOFS. What the notes of a transfer leave alone (R147, R187, R193, R369, R378 to R380): its reads change no pool, its writes no other
transfer. -/

namespace Sys2Proof.Machine

/-! ## Notes of accesses -/

/-- A machine in which accesses have been noted: in the orders of window units, the torn units, the dirty-page records of devices and
their caches. -/
def Noted (y z : Sys) : Prop := ∃ win tn vs ca, z = { y with window := win, torn := tn, vds := vs, cached := ca }

theorem Noted.refl (y : Sys) : Noted y y := ⟨_, _, _, _, rfl⟩

theorem Noted.trans {x y z : Sys} (h : Noted x y) (h' : Noted y z) : Noted x z := by
  obtain ⟨_, _, _, _, rfl⟩ := h
  obtain ⟨_, _, _, _, rfl⟩ := h'
  exact ⟨_, _, _, _, rfl⟩

theorem Noted.foldl {α : Type} {f : Sys → α → Sys} (hf : ∀ y a, Noted y (f y a)) (y : Sys) (l : List α) : Noted y (l.foldl f y) :=
  List.foldlRecOn (motive := Noted y) l f (.refl y) fun z hz a _ => hz.trans (hf z a)

theorem noteCached_noted (y : Sys) (c : Cached) : Noted y (noteCached y c) := by
  unfold noteCached
  split
  · exact .refl y
  · exact ⟨_, _, _, _, rfl⟩

theorem noteStage2_noted (s : State) (y : Sys) (vk ia : Nat) : Noted y (noteStage2 s y vk ia) := by
  unfold noteStage2
  split
  · exact noteCached_noted ..
  · exact .refl y

theorem noteXlat_noted (s : State) (y : Sys) (vk va n : Nat) : Noted y (noteXlat s y vk va n) :=
  .foldl (fun z i => by
    dsimp only
    generalize (if i = 0 then va else (va / 65536 + i) * 65536) = a
    split
    · exact .refl z
    · split
      · exact .refl z
      · exact ((Noted.foldl (fun x t => noteStage2_noted s x vk t) z _).trans (noteCached_noted ..)).trans (noteStage2_noted ..)) y _

theorem noteDirty_noted (y : Sys) (gs : List (Nat × Nat)) : Noted y (noteDirty y gs) :=
  .foldl (fun z g => by
    dsimp only
    split
    · exact .refl z
    · split <;> exact ⟨_, _, _, _, rfl⟩) y gs

theorem noteWindow_noted (s : State) (y : Sys) (vk : Nat) (core : Option Nat) (issue : Nat) (ps : List Post) :
    Noted y (noteWindow s y vk core issue ps) :=
  .foldl (fun z p => by
    split
    · split
      · exact .foldl (fun _ _ => ⟨_, _, _, _, rfl⟩) z _
      · exact .refl z
    · exact .refl z) y ps

theorem noteUnit_noted (s : State) (y : Sys) (o : Obj) (l : Lock) (late : Bool) (core va unit : Nat) (ws : List (Nat × Byte)) :
    Noted y (noteUnit s y o l late core va unit ws) := by
  unfold noteUnit
  dsimp only
  split
  · exact ⟨_, _, _, _, rfl⟩
  · split
    · split
      · exact .refl y
      · exact ⟨_, _, _, _, rfl⟩
    · split <;> exact ⟨_, _, _, _, rfl⟩

theorem noteHeld_noted (s : State) (y : Sys) (core issue va : Nat) (bs : List Byte) : Noted y (noteHeld s y core issue va bs) :=
  .foldl (fun z q => .foldl (fun x i => by
    dsimp only
    generalize (if i = 0 then va else (va / 8 + i) * 8) = a
    split
    · exact .refl x
    · split
      · exact noteUnit_noted ..
      · exact .refl x) z _) y _

/-! ## Frames of a transfer's tick -/

/-- The transfers and the keys are as before. -/
def SameXfers (y z : Sys) : Prop := z.xfers = y.xfers ∧ z.keys = y.keys

theorem SameXfers.refl (y : Sys) : SameXfers y y := ⟨rfl, rfl⟩

theorem SameXfers.trans {x y z : Sys} (h : SameXfers x y) (h' : SameXfers y z) : SameXfers x z := ⟨h'.1.trans h.1, h'.2.trans h.2⟩

/-- And the bytes and the partition of each core's pool. -/
def ReadOnly (y z : Sys) : Prop := SameXfers y z ∧ ∀ c, (coreOf z c).pool = (coreOf y c).pool ∧ (coreOf z c).part = (coreOf y c).part

theorem ReadOnly.refl (y : Sys) : ReadOnly y y := ⟨.refl y, fun _ => ⟨rfl, rfl⟩⟩

theorem ReadOnly.trans {x y z : Sys} (h : ReadOnly x y) (h' : ReadOnly y z) : ReadOnly x z :=
  ⟨h.1.trans h'.1, fun c => ⟨(h'.2 c).1.trans (h.2 c).1, (h'.2 c).2.trans (h.2 c).2⟩⟩

theorem ReadOnly.foldl {α : Type} {f : Sys → α → Sys} (hf : ∀ y a, ReadOnly y (f y a)) (y : Sys) (l : List α) : ReadOnly y (l.foldl f y) :=
  List.foldlRecOn (motive := ReadOnly y) l f (.refl y) fun z hz a _ => hz.trans (hf z a)

theorem Noted.readOnly {y z : Sys} (h : Noted y z) : ReadOnly y z := by
  obtain ⟨_, _, _, _, rfl⟩ := h
  exact ⟨⟨rfl, rfl⟩, fun _ => ⟨rfl, rfl⟩⟩

theorem Logged.readOnly {y z : Sys} (h : Logged y z) : ReadOnly y z := by
  obtain ⟨_, _, _, _, _, _, rfl⟩ := h
  exact ⟨⟨rfl, rfl⟩, fun _ => ⟨rfl, rfl⟩⟩

/-- A core that keeps its pool is put back. -/
theorem setCore_readOnly {y : Sys} {c : Core} (hpool : c.pool = (coreOf y c.id).pool) (hpart : c.part = (coreOf y c.id).part) :
    ReadOnly y (setCore y c) := by
  refine ⟨⟨rfl, rfl⟩, fun n => ?_⟩
  rw [coreOf_setCore]
  split
  case isTrue h => rw [h]; exact ⟨hpool, hpart⟩
  case isFalse => exact ⟨rfl, rfl⟩

theorem writeLineEvents_readOnly (y : Sys) (g vk : Nat) (evs : List LineEvent) :
    ReadOnly y (evs.foldl (fun y e => writeLineEvent y g vk e) y) :=
  .foldl (fun _ _ => (writeEvent_logged ..).readOnly) y evs

theorem notePool_readOnly (y : Sys) (g p : Nat) : ReadOnly y (notePool y g p) := by
  have hmark : ∀ core off, ReadOnly y (markStruck y g core off 4) := fun core off => by
    unfold markStruck
    refine .foldl (fun z q => ReadOnly.trans ?_ (writeEvent_logged ..).readOnly) y _
    exact setCore_readOnly (by simp [Core.setPoison]) (by simp [Core.setPoison])
  have hcount : ∀ z core off, ReadOnly z (countSoft z core off 4) := fun z core off =>
    ReadOnly.foldl (f := fun x (p : Nat × Nat) => countCorrection x (sourceOf 0 (core % 192)) (vdKeyOf x core % 32) (16 * p.2))
      (fun _ _ => ⟨⟨rfl, rfl⟩, fun _ => ⟨rfl, rfl⟩⟩) z _
  exact (hmark ..).trans (hcount ..)

theorem markUsed_readOnly (y : Sys) (g : Nat) (used : List (Nat × Nat)) : ReadOnly y (markUsed y g used) :=
  .foldl (fun z u => setCore_readOnly (by simp) (by simp)) y used

end Sys2Proof.Machine

/-! PROOFS. The event of a transfer, and the tick in which its units move, in its stages: what is read already is written, what is not
is read, and the transfer goes on with what is left (R150, R171, R178). -/

namespace Sys2Proof.Machine

theorem exec_transferDelivery {s : State} {xid : Nat} {x : Xfer} (core phase : Nat) (h : xferOf s.sys xid = some x) :
    exec (.transferDelivery core xid phase) s = .next { s with sys := transferEvent (busyBanks s x.pools) s x phase } := by
  show execTransferDelivery core xid phase s = _
  unfold execTransferDelivery
  exact lift_of_eq (by simp only [h])

theorem xid_of_xferOf {y : Sys} {xid : Nat} {x : Xfer} (h : xferOf y xid = some x) : x.xid = xid := by
  simpa using List.find?_some h

/-- A transfer of a number that is there is replaced. -/
theorem xferOf_setXfer {y : Sys} {xid : Nat} {x x' : Xfer} (h : xferOf y xid = some x) (hid : x'.xid = xid) :
    xferOf (setXfer y x') xid = some x' := by
  have hput : ∀ l : List Xfer, l.find? (fun t => t.xid == xid) = some x →
      (l.map fun t => if t.xid = x'.xid then x' else t).find? (fun t => t.xid == xid) = some x' := by
    intro l
    induction l with
    | nil => exact fun h => nomatch h
    | cons t l ih =>
      by_cases ht : t.xid = xid
      · simp [ht, hid]
      · simpa [ht, hid] using ih
  exact hput y.xfers h

/-! ## The stages of a tick -/

section
variable (busy : List (Nat × Nat)) (s : State) (x : Xfer)

/-- What the tick works with. -/
def tickBeat : Beat where
  s := s
  x := x
  vk := vdKeyOf s.sys x.core
  urgent := decide (x.urge ≤ s.gtc)
  busy := busy
  stalls := anyStall s.sys s.gtc

/-- Its beginning, with the moves that are left, the last first. -/
def tickStart (left : List Move) : Tick where
  y := s.sys
  used := []
  trans := x.trans
  pages := []
  status := x.status
  whole := x.whole
  noted := x.noted
  held := []
  hostsh := false
  moves := left

/-- The tick once what was read is written. -/
def tickWritten : Tick :=
  if x.stage = 1 && !channelBusy s.sys x 2 then x.moves.foldl (writeMove (tickBeat busy s x)) (tickStart s x [])
  else tickStart s x x.moves.reverse

/-- The words that it reads are words of memory: of a source there, but for indices. -/
def readsMemory : Bool := x.shadow.fromMemory && !(x.stage == 0 && x.kind != 3)

/-- The tick once what can be read is read, in banks that no write has taken. -/
def tickRead : Tick :=
  let t := tickWritten busy s x
  t.moves.reverse.foldl (readMove (tickBeat (busyWith busy t.used) s x) (readsMemory x)) { t with used := [], moves := [] }

/-- The machine then, with the granules that were reached and the lines that were used. -/
def tickNoted : Sys :=
  let r := tickRead busy s x
  r.pages.foldl (fun y p => noteXlat s y (vdKeyOf s.sys x.core) (65536 * p) 1) (markUsed r.y s.gtc ((tickWritten busy s x).used ++ r.used))

/-- The transfer then. -/
def tickLeft : Xfer :=
  let r := tickRead busy s x
  let moves := r.moves.reverse
  { x with
    begun := some (x.begun.getD s.gtc), moves := moves, trans := if x.kind = 1 || x.kind = 2 then r.trans else []
    whole := r.whole, noted := r.noted, status := worse r.status (if filled (readsMemory x) moves then 5 else 0) }

/-- A transfer that has nothing left to move is all written. -/
def Xfer.closed (x : Xfer) : Xfer := if x.stage = 1 && x.moves == [] then { x with stage := 2 } else x

/-- What the tick makes of the transfer. -/
def tickXfer : Xfer := ((tickLeft busy s x).resolved { s with sys := tickNoted busy s x }).closed

theorem moveUnits_eq : moveUnits busy s x =
    setXfer { tickNoted busy s x with free := (tickNoted busy s x).free + 1 } (tickXfer busy s x) := rfl

end

/-- What a decrypt or an indexed transfer turns into when its first words are read has the number it had. -/
theorem xid_resolved (s : State) (x : Xfer) : (x.resolved s).xid = x.xid := by
  unfold Xfer.resolved
  dsimp only
  split
  · rfl
  · split
    · split <;> rfl
    · rfl

theorem xid_closed (x : Xfer) : x.closed.xid = x.xid := by
  unfold Xfer.closed
  split <;> rfl

/-! ## Reading leaves the transfers and the pools -/

theorem report_readOnly (b : Beat) (t : Tick) (va : Nat) (w : Nat × Bool × Nat) : ReadOnly t.y (b.report t va w).y := by
  unfold Beat.report
  split
  · exact .refl t.y
  · exact writeLineEvents_readOnly ..

theorem y_xlat (b : Beat) (t : Tick) (va : Nat) : (b.xlat t va).2.y = t.y := by
  unfold Beat.xlat
  split <;> rfl

theorem y_reach (t : Tick) (va : Nat) : (t.reach va).y = t.y := by
  unfold Tick.reach
  split <;> rfl

theorem readWord_readOnly (b : Beat) (mem : Bool) (t : Tick) (l : List (Nat × Option (Nat × Bool × Nat)))
    (w : Nat × Option (Nat × Bool × Nat)) : ReadOnly t.y (readWord b mem (t, l) w).1.y := by
  unfold readWord
  dsimp only
  split
  · exact .refl t.y
  · split
    · split
      · exact .refl t.y
      · split
        · rw [y_xlat]
          exact .refl t.y
        · have h := report_readOnly b ((b.xlat t w.1).2.reach w.1) w.1 (memWord b.s b.x b.vk w.1 (b.xlat t w.1).1)
          rwa [y_reach, y_xlat] at h
    · split
      · exact notePool_readOnly ..
      · exact .refl t.y

theorem readMove_readOnly (b : Beat) (mem : Bool) (t : Tick) (m : Move) : ReadOnly t.y (readMove b mem t m).y :=
  List.foldlRecOn (motive := fun a : Tick × List (Nat × Option (Nat × Bool × Nat)) => ReadOnly t.y a.1.y) m.src (readWord b mem) (.refl t.y)
    fun a ha w _ => ha.trans (readWord_readOnly b mem a.1 a.2 w)

end Sys2Proof.Machine

/-! PROOFS. The reads of a transfer's tick (R76, R148, R171): which words are read, and what they bring. -/

namespace Sys2Proof.Machine

/-! ## A word of a move and what reads it -/

/-- A word with its value, or where it has none with that of its place. -/
def fillWord (val : Nat → Nat × Bool × Nat) (w : Nat × Option (Nat × Bool × Nat)) : Nat × Option (Nat × Bool × Nat) :=
  (w.1, some (w.2.getD (val w.1)))

/-- A move with every word so. -/
def Move.fill (val : Nat → Nat × Bool × Nat) (m : Move) : Move := { m with src := m.src.map (fillWord val) }

theorem ready_fill (val : Nat → Nat × Bool × Nat) (m : Move) : (m.fill val).ready = true := by
  simp [Move.fill, Move.ready, fillWord]

theorem words_fill (val : Nat → Nat × Bool × Nat) (m : Move) : (m.fill val).words = m.src.map fun w => w.2.getD (val w.1) := by
  have hword : Prod.snd ∘ fillWord val = fun w => some (w.2.getD (val w.1)) := rfl
  rw [Move.words, Move.fill, List.filterMap_map, hword, List.filterMap_eq_map']

theorem ready_iff (m : Move) : m.ready = true ↔ ∀ w ∈ m.src, w.2.isSome = true := by simp [Move.ready]

/-- A move whose words are read is the same filled. -/
theorem fill_of_ready {m : Move} (val : Nat → Nat × Bool × Nat) (h : m.ready = true) : m.fill val = m := by
  have hsrc : m.src.map (fillWord val) = m.src := by
    refine List.map_congr_left (fun w hw => ?_) |>.trans (List.map_id _)
    obtain ⟨r, hr⟩ := Option.isSome_iff_exists.1 ((ready_iff m).1 h w hw)
    exact Prod.ext rfl (by simp [fillWord, hr])
  rw [Move.fill, hsrc]

section
variable (b : Beat) (mem : Bool) (t : Tick) (l : List (Nat × Option (Nat × Bool × Nat)))

theorem moves_readWord (w : Nat × Option (Nat × Bool × Nat)) : (readWord b mem (t, l) w).1.moves = t.moves := by
  have hxlat : (b.xlat t w.1).2.moves = t.moves := by
    unfold Beat.xlat
    split <;> rfl
  have hreport : ∀ (u : Tick) r, (b.report (u.reach w.1) w.1 r).moves = u.moves := fun u r => by
    unfold Beat.report Tick.reach
    split <;> split <;> rfl
  unfold readWord
  dsimp only
  split
  · rfl
  · split
    · split
      · rfl
      · split
        · exact hxlat
        · exact (hreport ..).trans hxlat
    · split <;> rfl

theorem moves_readWords (ws : List (Nat × Option (Nat × Bool × Nat))) : (ws.foldl (readWord b mem) (t, l)).1.moves = t.moves :=
  List.foldlRecOn (motive := fun a : Tick × List (Nat × Option (Nat × Bool × Nat)) => a.1.moves = t.moves) ws _ rfl
    fun a ha w _ => (moves_readWord b mem a.1 a.2 w).trans ha

/-- A move keeps its destination. -/
theorem moves_readMove (m : Move) : ∃ ws, (readMove b mem t m).moves = { m with src := ws } :: t.moves :=
  ⟨_, congrArg (List.cons _) (moves_readWords b mem t [] m.src)⟩

theorem dsts_readMoves (ms : List Move) :
    (ms.foldl (readMove b mem) t).moves.map Move.dst = (ms.map Move.dst).reverse ++ t.moves.map Move.dst := by
  induction ms generalizing t with
  | nil => rfl
  | cons m ms ih =>
    obtain ⟨ws, hm⟩ := moves_readMove b mem t m
    rw [List.foldl_cons, ih, hm]
    simp

theorem readWord_of_read {w : Nat × Option (Nat × Bool × Nat)} (h : w.2.isSome = true) : readWord b mem (t, l) w = (t, l ++ [w]) := by
  simp [readWord, h]

theorem readWords_of_read {ws : List (Nat × Option (Nat × Bool × Nat))} (h : ∀ w ∈ ws, w.2.isSome = true) :
    ws.foldl (readWord b mem) (t, l) = (t, l ++ ws) := by
  induction ws generalizing l with
  | nil => simp
  | cons w ws ih =>
    rw [List.foldl_cons, readWord_of_read b mem t l (h w List.mem_cons_self), ih _ fun v hv => h v (List.mem_cons_of_mem w hv)]
    simp

/-- Moves that are read already stay as they are. -/
theorem readMoves_of_read {ms : List Move} (h : ∀ m ∈ ms, m.ready = true) :
    ms.foldl (readMove b mem) t = { t with moves := ms.reverse ++ t.moves } := by
  induction ms generalizing t with
  | nil => rfl
  | cons m ms ih =>
    have hm : readMove b mem t m = { t with moves := m :: t.moves } := by
      unfold readMove
      rw [readWords_of_read b mem t [] ((ready_iff m).1 (h m List.mem_cons_self))]
      rfl
    rw [List.foldl_cons, hm, ih _ fun n hn => h n (List.mem_cons_of_mem m hn)]
    simp

end

/-! ## Every word is read -/

section
variable {b : Beat} {mem : Bool} {val : Nat → Nat × Bool × Nat} {P : Tick → Prop} {ok : Nat → Prop}

/-- A word that is to be read is read, and what its reading rests on stays. -/
def ReadsAll (b : Beat) (mem : Bool) (val : Nat → Nat × Bool × Nat) (P : Tick → Prop) (ok : Nat → Prop) : Prop :=
  (∀ t ms, P t → P { t with moves := ms }) ∧
  ∀ t l a, P t → ok a → ∃ t', readWord b mem (t, l) (a, none) = (t', l ++ [(a, some (val a))]) ∧ P t'

theorem readWords_of_readsAll (h : ReadsAll b mem val P ok) (ws : List (Nat × Option (Nat × Bool × Nat))) (t : Tick)
    (l : List (Nat × Option (Nat × Bool × Nat))) (hP : P t) (hok : ∀ w ∈ ws, w.2 = none → ok w.1) :
    ∃ t', ws.foldl (readWord b mem) (t, l) = (t', l ++ ws.map (fillWord val)) ∧ P t' := by
  induction ws generalizing t l with
  | nil => exact ⟨t, by simp, hP⟩
  | cons w ws ih =>
    have hword : ∃ t', readWord b mem (t, l) w = (t', l ++ [fillWord val w]) ∧ P t' := by
      obtain ⟨a, _ | r⟩ := w
      · exact h.2 t l a hP (hok _ List.mem_cons_self rfl)
      · exact ⟨t, readWord_of_read b mem t l rfl, hP⟩
    obtain ⟨t', hread, hP'⟩ := hword
    obtain ⟨u, hu, hPu⟩ := ih t' (l ++ [fillWord val w]) hP' fun v hv => hok v (List.mem_cons_of_mem w hv)
    exact ⟨u, by rw [List.foldl_cons, hread, hu]; simp, hPu⟩

theorem readMoves_of_readsAll (h : ReadsAll b mem val P ok) (ms : List Move) (t : Tick) (hP : P t)
    (hok : ∀ m ∈ ms, ∀ w ∈ m.src, w.2 = none → ok w.1) :
    (ms.foldl (readMove b mem) t).moves = (ms.map (Move.fill val)).reverse ++ t.moves := by
  induction ms generalizing t with
  | nil => rfl
  | cons m ms ih =>
    obtain ⟨u, hu, hPu⟩ := readWords_of_readsAll h m.src t [] hP (hok m List.mem_cons_self)
    have hmoves : u.moves = t.moves := by rw [← moves_readWords b mem t [] m.src, hu]
    have hm : readMove b mem t m = { u with moves := m.fill val :: t.moves } := by
      simp only [readMove, hu, hmoves]
      rfl
    rw [List.foldl_cons, hm, ih _ (h.1 u _ hPu) fun n hn => hok n (List.mem_cons_of_mem m hn)]
    simp

end

/-! ## From memory -/

/-- The translations that the tick has are those of the tables. -/
def Tabled (b : Beat) (t : Tick) : Prop := ∀ p ∈ t.trans, p.2 = xlate b.s b.vk (65536 * p.1)

/-- The tables give the translation of an address. -/
def pageAt (s : State) (vk a : Nat) : Option Xlat := (xlate s vk (a / 65536 * 65536)).map fun q => q.shift (a % 65536)

section
variable {b : Beat} {t : Tick}

theorem xlat_of_tabled (htab : ∀ va, b.tables va = b.s) (h : Tabled b t) (va : Nat) :
    (b.xlat t va).1 = pageAt b.s b.vk va ∧ ∃ tr, (b.xlat t va).2 = { t with trans := tr } ∧ Tabled b { t with trans := tr } := by
  unfold Beat.xlat
  split
  case h_1 p hp =>
    have hkey : p.1 = va / 65536 := by simpa using List.find?_some hp
    refine ⟨?_, t.trans, rfl, h⟩
    rw [h p (List.mem_of_find?_eq_some hp), hkey, Nat.mul_comm]
    rfl
  case h_2 =>
    refine ⟨?_, _, rfl, fun p hp => ?_⟩
    · rw [htab]
      rfl
    · obtain rfl | hp := List.mem_cons.1 hp
      · rw [htab, Nat.mul_comm]
      · exact h p hp

/-- An urgent transfer reads every word of memory while no link stalls. -/
theorem readsAll_memory (hurgent : b.urgent = true) (hstalls : b.stalls = false) (htab : ∀ va, b.tables va = b.s) :
    ReadsAll b true (fun a => memWord b.s b.x b.vk a (pageAt b.s b.vk a)) (Tabled b) (fun _ => True) := by
  refine ⟨fun t ms h => h, fun t l a h _ => ?_⟩
  obtain ⟨hpage, tr, htr, hgood⟩ := xlat_of_tabled htab h a
  have hreport : ∀ (u : Tick) r, (b.report (u.reach a) a r).trans = u.trans := fun u r => by
    unfold Beat.report Tick.reach
    split <;> split <;> rfl
  let r := memWord b.s b.x b.vk a (pageAt b.s b.vk a)
  refine ⟨b.report ((b.xlat t a).2.reach a) a r, ?_, fun p hp => hgood p ?_⟩
  · simp only [readWord, Option.isSome_none, Bool.false_eq_true, if_false, if_true, Beat.moves, hurgent, Bool.true_or, Bool.not_true,
      Beat.stalled, hstalls, Bool.false_and, hpage, r]
  · rw [hreport, htr] at hp
    exact hp

end

/-! ## From pools -/

/-- Whether an access to a place keeps another off its bank: one to a line of the same bank that is another line (R76). -/
def apart (p q : Nat) : Prop := placeCore p = placeCore q → placeOff p / 16 % 64 = placeOff q / 16 % 64 → placeOff p / 16 = placeOff q / 16

/-- Every line that is used holds one of some places. -/
def UsedFrom (ps : List Nat) (t : Tick) : Prop := ∀ u ∈ t.used, ∃ q ∈ ps, u = (placeCore q, placeOff q / 16)

/-- The bank of a place is idle, given the banks in use by core. -/
def bankIdle (busy : List (Nat × Nat)) (p : Nat) : Prop :=
  (((getBy Prod.fst (placeCore p) busy).map Prod.snd).getD 0).testBit (placeOff p / 16 % 64) = false

section
variable {b : Beat} {t : Tick} {ps : List Nat}

theorem idle_of_usedFrom {p : Nat} (hp : p ∈ ps) (hbank : bankIdle b.busy p) (hapart : ∀ p ∈ ps, ∀ q ∈ ps, apart p q)
    (h : UsedFrom ps t) : b.idle t p = true := by
  unfold Beat.idle lineIdle
  dsimp only
  rw [hbank]
  simp only [Bool.not_false, Bool.true_and, List.all_eq_true]
  intro u hu
  obtain ⟨q, hq, rfl⟩ := h u hu
  by_cases hcore : placeCore q = placeCore p
  · by_cases hline : placeOff q / 16 % 64 = placeOff p / 16 % 64
    · simp [hapart q hq p hp hcore hline]
    · simp [hline]
  · simp [hcore]

theorem usedFrom_useLine {p : Nat} (hp : p ∈ ps) (h : UsedFrom ps t) : UsedFrom ps { t with used := useLine t.used p } := by
  intro u hu
  simp only [useLine] at hu
  split at hu
  · exact h u hu
  · obtain rfl | hu := List.mem_cons.1 hu
    · exact ⟨p, hp, rfl⟩
    · exact h u hu

/-- Nothing that a transfer waits for is held: its scratchpads are as they are. -/
theorem heldView_of_none (y : Sys) (core : Nat) {w : Wait} (h : w.ents = []) : heldView y core w = y := by
  unfold heldView
  refine List.foldlRecOn (motive := fun z => z = y) _ _ rfl fun z hz l _ => ?_
  simp [h, hz]

/-- An urgent transfer reads every word whose bank is idle. -/
theorem readsAll_pool (hurgent : b.urgent = true) (hheld : b.x.after.ents = []) (hbank : ∀ p ∈ ps, bankIdle b.busy p)
    (hapart : ∀ p ∈ ps, ∀ q ∈ ps, apart p q) : ReadsAll b false (poolWord b.s.sys b.x) (UsedFrom ps) (· ∈ ps) := by
  refine ⟨fun t ms h => h, fun t l a h ha => ?_⟩
  refine ⟨{ t.use a with y := notePool t.y b.s.gtc a }, ?_, usedFrom_useLine ha h⟩
  simp only [readWord, Option.isSome_none, Bool.false_eq_true, if_false, Beat.moves, hurgent, Bool.true_or, Bool.true_and,
    idle_of_usedFrom ha (hbank a ha) hapart h, if_true, heldView_of_none _ _ hheld]

end

/-- The banks that the tick finds in use are those that the model takes for each core. -/
theorem bankIdle_busyBanks {s : State} {p : Nat} (cores : List Nat)
    (h : (takenBanks backOf s (domOfCore s.sys (placeCore p)) ((domOfCore s.sys (placeCore p)).ttc s.gtc) (placeCore p)).testBit
      (placeOff p / 16 % 64) = false) : bankIdle (busyBanks s cores) p := by
  unfold bankIdle
  cases hget : getBy Prod.fst (placeCore p) (busyBanks s cores) with
  | none => simp
  | some q =>
    obtain ⟨c, -, rfl⟩ := List.mem_map.1 (List.mem_of_find?_eq_some hget)
    have hc : c = placeCore p := getBy_key _ _ _ _ hget
    subst hc
    exact h

end Sys2Proof.Machine

/-! PROOFS. What every write of a transfer's tick leaves alone, and the event of a transfer that may move (R148, R171). -/

namespace Sys2Proof.Machine

section
variable (b : Beat) (t : Tick) (m : Move)

/-- A move stays, or all of it is written, or its first container. -/
theorem writeMove_cases : ∃ u : Tick, (u = t ∨ ∃ d, u = (b.xlat t d).2) ∧
    ((∃ h, writeMove b t m = { u.keep m with hostsh := h }) ∨
      (∃ d q ws h, writeMove b t m = { writeMem b u d q ws with hostsh := h }) ∨
      (∃ d q ws h, writeMove b t m = { (writeMem b u d q ws).keep ⟨some (d + 4), m.src.drop 1⟩ with hostsh := h }) ∨
      ∃ d, writeMove b t m = writePool b u d m) := by
  unfold writeMove
  split
  case h_1 => exact ⟨t, .inl rfl, .inl ⟨_, rfl⟩⟩
  case h_2 d _ =>
    dsimp only
    split
    · refine ⟨(b.xlat t d).2, .inr ⟨d, rfl⟩, ?_⟩
      split
      · split
        · exact .inl ⟨_, rfl⟩
        · split
          · exact .inr (.inl ⟨_, _, _, _, rfl⟩)
          · exact .inr (.inr (.inl ⟨_, _, _, _, rfl⟩))
      · split
        · exact .inr (.inl ⟨_, _, _, _, rfl⟩)
        · exact .inl ⟨_, rfl⟩
    · refine ⟨t, .inl rfl, ?_⟩
      split
      · exact .inr (.inr (.inr ⟨_, rfl⟩))
      · exact .inl ⟨_, rfl⟩

theorem moves_writePool (d : Nat) : (writePool b t d m).moves = t.moves := by
  unfold writePool
  dsimp only
  split <;> rfl

theorem trans_writePool (d : Nat) : (writePool b t d m).trans = t.trans := by
  unfold writePool
  dsimp only
  split <;> rfl

theorem moves_reach (va : Nat) : (t.reach va).moves = t.moves := by
  unfold Tick.reach
  split <;> rfl

theorem trans_reach (va : Nat) : (t.reach va).trans = t.trans := by
  unfold Tick.reach
  split <;> rfl

theorem moves_xlat (va : Nat) : (b.xlat t va).2.moves = t.moves := by
  unfold Beat.xlat
  split <;> rfl

/-- Of each word that is left, its place and value are what they were. -/
theorem words_writeMove {w : Nat × Option (Nat × Bool × Nat)} {n : Move} (hn : n ∈ (writeMove b t m).moves) (hw : w ∈ n.src) :
    w ∈ m.src ∨ ∃ k ∈ t.moves, w ∈ k.src := by
  obtain ⟨u, hu, hcases⟩ := writeMove_cases b t m
  have hmoves : u.moves = t.moves := by
    obtain rfl | ⟨d, rfl⟩ := hu
    · rfl
    · exact moves_xlat b t d
  have hmem : ∀ d q ws, (writeMem b u d q ws).moves = t.moves := fun d q ws => (moves_reach u d).trans hmoves
  obtain ⟨h, heq⟩ | ⟨d, q, ws, h, heq⟩ | ⟨d, q, ws, h, heq⟩ | ⟨d, heq⟩ := hcases
  · rw [heq] at hn
    obtain rfl | hn := List.mem_cons.1 hn
    · exact .inl hw
    · exact .inr ⟨n, hmoves ▸ hn, hw⟩
  · rw [heq] at hn
    exact .inr ⟨n, (hmem d q ws) ▸ hn, hw⟩
  · rw [heq] at hn
    obtain rfl | hn := List.mem_cons.1 hn
    · exact .inl (List.mem_of_mem_drop hw)
    · exact .inr ⟨n, (hmem d q ws) ▸ hn, hw⟩
  · rw [heq, moves_writePool, hmoves] at hn
    exact .inr ⟨n, hn, hw⟩

theorem tabled_writeMove (htab : ∀ va, b.tables va = b.s) (h : Tabled b t) : Tabled b (writeMove b t m) := by
  obtain ⟨u, hu, hcases⟩ := writeMove_cases b t m
  have hgood : Tabled b u := by
    obtain rfl | ⟨d, rfl⟩ := hu
    · exact h
    · obtain ⟨-, tr, htr, hgood⟩ := xlat_of_tabled htab h d
      rw [htr]
      exact hgood
  have hmem : ∀ d q ws, (writeMem b u d q ws).trans = u.trans := fun d q ws => trans_reach u d
  intro p hp
  apply hgood p
  obtain ⟨g, heq⟩ | ⟨d, q, ws, g, heq⟩ | ⟨d, q, ws, g, heq⟩ | ⟨d, heq⟩ := hcases
  · rw [heq] at hp
    exact hp
  · rw [heq] at hp
    exact (hmem d q ws) ▸ hp
  · rw [heq] at hp
    exact (hmem d q ws) ▸ hp
  · rwa [heq, trans_writePool] at hp

theorem writePool_sameXfers (d : Nat) : SameXfers t.y (writePool b t d m).y := by
  unfold writePool
  dsimp only
  split <;> exact ⟨rfl, rfl⟩

theorem writeMem_sameXfers (d : Nat) (q : Option Xlat) (ws : List (Nat × Bool × Nat)) : SameXfers t.y (writeMem b t d q ws).y := by
  let r := writeX b.s b.vk d q (wordBytes ws) (countDown t.whole (d / 64) ws.length (ws.any fun w => w.2.1)).2
  let y := noteWindow b.s (noteHeld b.s t.y b.x.core b.x.issue d ((wordBytes ws).map RdByte.val)) b.vk (some b.x.core) b.x.issue r.1
  have hnotes : SameXfers t.y { y with posts := y.posts ++ r.1 } :=
    ((noteHeld_noted ..).trans (noteWindow_noted ..)).readOnly.1.trans ⟨rfl, rfl⟩
  exact (hnotes.trans (noteDirty_noted ..).readOnly.1).trans (writeLineEvents_readOnly ..).1

theorem writeMove_sameXfers : SameXfers t.y (writeMove b t m).y := by
  obtain ⟨u, hu, hcases⟩ := writeMove_cases b t m
  have hy : u.y = t.y := by
    obtain rfl | ⟨d, rfl⟩ := hu
    · rfl
    · exact y_xlat b t d
  rw [← hy]
  obtain ⟨g, heq⟩ | ⟨d, q, ws, g, heq⟩ | ⟨d, q, ws, g, heq⟩ | ⟨d, heq⟩ := hcases <;> rw [heq]
  · exact .refl u.y
  · exact writeMem_sameXfers ..
  · exact writeMem_sameXfers ..
  · exact writePool_sameXfers ..

/-- A move that is not read stays. -/
theorem writeMove_of_unread (h : m.ready = false) : (writeMove b t m).moves = m :: t.moves ∧ (writeMove b t m).used = t.used := by
  have hxlat : ∀ d, (b.xlat t d).2.used = t.used := fun d => by
    unfold Beat.xlat
    split <;> rfl
  unfold writeMove
  split
  · exact ⟨rfl, rfl⟩
  · simp only [h, Bool.false_and, Bool.not_false, Bool.true_or, if_true, Bool.false_eq_true, if_false]
    split
    · split <;> exact ⟨congrArg (List.cons m) (moves_xlat b t _), hxlat _⟩
    · exact ⟨rfl, rfl⟩

theorem writeMoves_of_unread {ms : List Move} (h : ∀ m ∈ ms, m.ready = false) :
    (ms.foldl (writeMove b) t).moves = ms.reverse ++ t.moves ∧ (ms.foldl (writeMove b) t).used = t.used := by
  induction ms generalizing t with
  | nil => exact ⟨rfl, rfl⟩
  | cons m ms ih =>
    obtain ⟨hmoves, hused⟩ := writeMove_of_unread b t m (h m List.mem_cons_self)
    obtain ⟨hmoves', hused'⟩ := ih (writeMove b t m) fun n hn => h n (List.mem_cons_of_mem m hn)
    rw [List.foldl_cons, hmoves', hused', hmoves, hused]
    simp

end

/-! ## The event of a transfer that may move -/

section
variable (busy : List (Nat × Nat)) (s : State) (x : Xfer)

theorem tickWritten_sameXfers : SameXfers s.sys (tickWritten busy s x).y := by
  unfold tickWritten
  split
  · exact List.foldlRecOn (motive := fun t : Tick => SameXfers s.sys t.y) x.moves _ (.refl _) fun t ht m _ => ht.trans (writeMove_sameXfers ..)
  · exact .refl _

theorem tickNoted_readOnly : ReadOnly (tickWritten busy s x).y (tickNoted busy s x) := by
  have hread : ReadOnly (tickWritten busy s x).y (tickRead busy s x).y :=
    List.foldlRecOn (motive := fun t : Tick => ReadOnly (tickWritten busy s x).y t.y) _ _ (.refl _) fun t ht m _ => ht.trans (readMove_readOnly ..)
  exact (hread.trans (markUsed_readOnly ..)).trans (.foldl (fun _ _ => (noteXlat_noted ..).readOnly) ..)

theorem tickNoted_sameXfers : SameXfers s.sys (tickNoted busy s x) := (tickWritten_sameXfers ..).trans (tickNoted_readOnly ..).1

theorem coreOf_moveUnits (c : Nat) : coreOf (moveUnits busy s x) c = coreOf (tickNoted busy s x) c := rfl

end

theorem xid_tickXfer (busy : List (Nat × Nat)) (s : State) (x : Xfer) : (tickXfer busy s x).xid = x.xid := by
  rw [tickXfer, xid_closed, xid_resolved]
  rfl

theorem free_iff (y : Sys) (x : Xfer) :
    x.free y = true ↔ waitMet y x.core x.shadow.toMemory x.after = true ∧ behindXinv y x = false := by
  simp [Xfer.free]

section
variable {s : State} {xid : Nat} {x : Xfer} (core : Nat)

/-- A transfer that may move makes the moves of its tick. -/
theorem moves_of_free (h : xferOf s.sys xid = some x) (hstage : x.stage < 2) (hfree : x.free s.sys = true) :
    exec (.transferDelivery core xid 0) s = .next { s with sys := moveUnits (busyBanks s x.pools) s x } ∧
      xferOf (moveUnits (busyBanks s x.pools) s x) xid = some (tickXfer (busyBanks s x.pools) s x) := by
  refine ⟨?_, ?_⟩
  · rw [exec_transferDelivery core 0 h]
    simp [transferEvent, hstage, hfree]
  · rw [moveUnits_eq]
    refine xferOf_setXfer (x := x) ?_ ((xid_tickXfer ..).trans (xid_of_xferOf h))
    rw [← h, xferOf, xferOf, ← (tickNoted_sameXfers (busyBanks s x.pools) s x).1]

/-- One that may not stays where it is. -/
theorem stays_of_not_free (h : xferOf s.sys xid = some x) (hno : x.stage < 2 → x.free s.sys = false) :
    exec (.transferDelivery core xid 0) s = .next s := by
  rw [exec_transferDelivery core 0 h]
  by_cases hstage : x.stage < 2
  · simp [transferEvent, hno hstage]
  · simp [transferEvent, hstage]

end

end Sys2Proof.Machine

/-! PROOFS. What a transfer comes to in a tick in which its words are read (R76, R171, R172). -/

namespace Sys2Proof.Machine

/-! ## The transfer at the end of its tick -/

section
variable (s : State) (x : Xfer)

theorem moves_closed : x.closed.moves = x.moves := by
  unfold Xfer.closed
  split <;> rfl

theorem idx_closed : x.closed.idx = x.idx := by
  unfold Xfer.closed
  split <;> rfl

theorem status_closed : x.closed.status = x.status := by
  unfold Xfer.closed
  split <;> rfl

theorem stage_closed_ne_zero (h : x.stage ≠ 0) : x.closed.stage ≠ 0 := by
  unfold Xfer.closed
  split
  · exact Nat.succ_ne_zero 1
  · exact h

theorem closed_of_stage (h : x.stage ≠ 1) : x.closed = x := by simp [Xfer.closed, h]

theorem stage_closed_of_nil (h : x.stage = 1) (hm : x.moves = []) : x.closed.stage = 2 := by simp [Xfer.closed, h, hm]

/-- One that knows what it moves goes on with it. -/
theorem resolved_of_stage (h : x.stage ≠ 0) : x.resolved s = x := by simp [Xfer.resolved, h]

theorem resolved_of_failed (h : x.stage = 0) (hready : ∀ m ∈ x.moves, m.ready = true) (hkind : x.kind = 3)
    (hr : (decryptSource s.sys x (x.moves.flatMap Move.words)).1 ≠ 0) :
    x.resolved s = { x with stage := 2, moves := [], status := (decryptSource s.sys x (x.moves.flatMap Move.words)).1 } := by
  have hall : x.moves.all Move.ready = true := List.all_eq_true.2 hready
  simp [Xfer.resolved, h, hall, hkind, hr]

theorem resolved_of_decrypted (h : x.stage = 0) (hready : ∀ m ∈ x.moves, m.ready = true) (hkind : x.kind = 3)
    (hr : (decryptSource s.sys x (x.moves.flatMap Move.words)).1 = 0) : x.resolved s = x.moving s.sys (destUnits x.shadow.toMemory
      (meetsHost s x.core (memDests x.shadow (x.pieces s.sys)))
      ((sideWords s.sys x.core x.shadow.toMemory x.shadow.xdst.toNat x.shadow.xcount0.toNat).zip
        ((decryptSource s.sys x (x.moves.flatMap Move.words)).2.map fun v => (0, some (v, false, 0))))) := by
  have hall : x.moves.all Move.ready = true := List.all_eq_true.2 hready
  simp [Xfer.resolved, h, hall, hkind, hr]

theorem resolved_of_indexed (h : x.stage = 0) (hready : ∀ m ∈ x.moves, m.ready = true) (hkind : x.kind ≠ 3) :
    (x.resolved s).stage = 1 ∧ (x.resolved s).idx = (x.moves.flatMap Move.words).map Prod.fst := by
  have hall : x.moves.all Move.ready = true := List.all_eq_true.2 hready
  simp [Xfer.resolved, h, hall, hkind, Xfer.moving]

end

section
variable (busy : List (Nat × Nat)) (s : State) (x : Xfer)

theorem tickXfer_of_moving (h : x.stage = 1) : tickXfer busy s x = (tickLeft busy s x).closed := by
  have hstage : (tickLeft busy s x).stage ≠ 0 := by
    show x.stage ≠ 0
    simp [h]
  rw [tickXfer, resolved_of_stage _ _ hstage]

theorem moves_tickXfer (h : x.stage = 1) : (tickXfer busy s x).moves = (tickRead busy s x).moves.reverse := by
  rw [tickXfer_of_moving busy s x h, moves_closed]
  rfl

theorem stage_tickXfer_of_nil (h : x.stage = 1) (hm : (tickRead busy s x).moves = []) : (tickXfer busy s x).stage = 2 := by
  rw [tickXfer_of_moving busy s x h]
  exact stage_closed_of_nil _ h (by simp [tickLeft, hm])

theorem tickWritten_of_stage (h : x.stage = 0) : tickWritten busy s x = tickStart s x x.moves.reverse := by simp [tickWritten, h]

/-- What a decrypt comes to is the same for the machine that the tick leaves: its keys are those before. -/
theorem decryptSource_tickLeft (ws : List (Nat × Bool × Nat)) :
    decryptSource (tickNoted busy s x) (tickLeft busy s x) ws = decryptSource s.sys x ws := by
  have hslot : ∀ c n, keySlot (tickNoted busy s x) c n = keySlot s.sys c n := fun c n => by
    rw [keySlot, keySlot, (tickNoted_sameXfers busy s x).2]
  unfold decryptSource keyStands
  simp only [hslot]
  rfl

section
variable {val : Nat → Nat × Bool × Nat} {P : Tick → Prop} {ok : Nat → Prop}

/-- Where every word is read, what is left is what the writes have left, with each word. -/
theorem moves_tickRead (h : ReadsAll (tickBeat (busyWith busy (tickWritten busy s x).used) s x) (readsMemory x) val P ok)
    (hP : P { tickWritten busy s x with used := [], moves := [] })
    (hok : ∀ m ∈ (tickWritten busy s x).moves, ∀ w ∈ m.src, w.2 = none → ok w.1) :
    (tickRead busy s x).moves.reverse = (tickWritten busy s x).moves.reverse.map (Move.fill val) := by
  have hread := readMoves_of_readsAll h (tickWritten busy s x).moves.reverse _ hP fun m hm => hok m (List.mem_reverse.1 hm)
  rw [tickRead, hread]
  simp

end

/-- Where nothing is left to be read the tick reads nothing. -/
theorem tickRead_of_ready (h : ∀ m ∈ (tickWritten busy s x).moves, m.ready = true) :
    tickRead busy s x = { tickWritten busy s x with used := [] } := by
  unfold tickRead
  dsimp only
  rw [readMoves_of_read _ _ _ fun m hm => h m (List.mem_reverse.1 hm)]
  simp

end

/-! ## A tick whose tables and links are plain -/

/-- Nothing old, removed or shut bears on what a transfer reads and writes. -/
def Plain (s : State) (x : Xfer) : Prop := x.trans = [] ∧ x.crossed = [] ∧ anyStall s.sys s.gtc = false ∧ x.after.ents = [] ∧
  ∀ t ∈ s.sys.xfers, t.kind ≠ 4

section
variable {busy : List (Nat × Nat)} {s : State} {x : Xfer}

theorem tables_of_plain (h : Plain s x) (va : Nat) : (tickBeat busy s x).tables va = s := by
  obtain ⟨-, hcrossed, -, -, hxfers⟩ := h
  refine (if_neg (by simp [tickBeat, hcrossed])).trans (if_neg ?_)
  simp only [tickBeat, Bool.and_eq_true, List.any_eq_true, beq_iff_eq]
  rintro ⟨-, t, ht, ⟨hkind, -⟩, -⟩
  exact hxfers t ht hkind

theorem tabled_tickStart (left : List Move) (h : Plain s x) : Tabled (tickBeat busy s x) (tickStart s x left) := by
  intro p hp
  rw [tickStart, h.1] at hp
  exact nomatch hp

theorem tabled_tickWritten (h : Plain s x) : Tabled (tickBeat busy s x) (tickWritten busy s x) := by
  unfold tickWritten
  split
  · exact List.foldlRecOn (motive := Tabled (tickBeat busy s x)) x.moves _ (tabled_tickStart _ h) fun t ht m _ =>
      tabled_writeMove _ t m (tables_of_plain h) ht
  · exact tabled_tickStart _ h

/-- The words that are left after the writes are words of the transfer. -/
theorem words_tickWritten {m : Move} (hm : m ∈ (tickWritten busy s x).moves) {w : Nat × Option (Nat × Bool × Nat)} (hw : w ∈ m.src) :
    ∃ n ∈ x.moves, w ∈ n.src := by
  unfold tickWritten at hm
  split at hm
  · have hall : ∀ n ∈ (x.moves.foldl (writeMove (tickBeat busy s x)) (tickStart s x [])).moves, ∀ w ∈ n.src,
        ∃ k ∈ x.moves, w ∈ k.src :=
      List.foldlRecOn (motive := fun t : Tick => ∀ n ∈ t.moves, ∀ w ∈ n.src, ∃ k ∈ x.moves, w ∈ k.src) x.moves _
        (fun n hn => nomatch hn) fun t ht m hm n hn w hw => by
          obtain hw | ⟨k, hk, hw⟩ := words_writeMove _ t m hn hw
          · exact ⟨m, hm, hw⟩
          · exact ht k hk w hw
    exact hall m hm w hw
  · exact ⟨m, List.mem_reverse.1 hm, hw⟩

theorem readsAll_tick_memory (hurgent : x.urge ≤ s.gtc) (h : Plain s x) (hmem : readsMemory x = true) : ReadsAll (tickBeat busy s x) (readsMemory x)
    (fun a => memWord s x (vdKeyOf s.sys x.core) a (pageAt s (vdKeyOf s.sys x.core) a)) (Tabled (tickBeat busy s x)) fun _ => True := by
  rw [hmem]
  exact readsAll_memory (decide_eq_true hurgent) h.2.2.1 (tables_of_plain h)

/-- An urgent transfer from memory has every word of what is left: as it was, or as the memory gives it. -/
theorem words_tickXfer_memory (hstage : x.stage = 1) (hmem : x.shadow.fromMemory = true) (hurgent : x.urge ≤ s.gtc) (h : Plain s x)
    {m : Move} (hm : m ∈ (tickXfer busy s x).moves) {w : Nat × Option (Nat × Bool × Nat)} (hw : w ∈ m.src) : ∃ r, w.2 = some r ∧
      ((∃ n ∈ x.moves, (w.1, some r) ∈ n.src) ∨
        r = memWord s x (vdKeyOf s.sys x.core) w.1 (pageAt s (vdKeyOf s.sys x.core) w.1)) := by
  have hread := readsAll_tick_memory (busy := busyWith busy (tickWritten busy s x).used) hurgent h (by simp [readsMemory, hmem, hstage])
  rw [moves_tickXfer _ _ _ hstage, moves_tickRead _ _ _ hread (tabled_tickWritten h) fun _ _ _ _ _ => trivial] at hm
  obtain ⟨n, hn, rfl⟩ := List.mem_map.1 hm
  obtain ⟨v, hv, rfl⟩ := List.mem_map.1 hw
  obtain ⟨k, hk, hvk⟩ := words_tickWritten (List.mem_reverse.1 hn) hv
  obtain ⟨a, _ | r⟩ := v
  · exact ⟨_, rfl, .inr rfl⟩
  · exact ⟨r, rfl, .inl ⟨k, hk, hvk⟩⟩

end

/-! ## Reads in idle banks -/

/-- The words that a transfer has still to read. -/
def Xfer.unread (x : Xfer) : List Nat := x.moves.flatMap fun m => (m.src.filter fun w => w.2.isNone).map Prod.fst

theorem mem_unread {x : Xfer} {m : Move} (hm : m ∈ x.moves) {w : Nat × Option (Nat × Bool × Nat)} (hw : w ∈ m.src) (hnone : w.2 = none) :
    w.1 ∈ x.unread :=
  List.mem_flatMap.2 ⟨m, hm, List.mem_map.2 ⟨w, List.mem_filter.2 ⟨hw, by rw [hnone]; rfl⟩, rfl⟩⟩

/-- The banks of some places are idle, for one line each (R76). -/
def BanksIdle (busy : List (Nat × Nat)) (ps : List Nat) : Prop := (∀ p ∈ ps, bankIdle busy p) ∧ ∀ p ∈ ps, ∀ q ∈ ps, apart p q

section
variable {busy : List (Nat × Nat)} {s : State} {x : Xfer}

theorem readsAll_tick_pool (hurgent : x.urge ≤ s.gtc) (hheld : x.after.ents = []) (hmem : readsMemory x = false)
    (hidle : BanksIdle busy x.unread) :
    ReadsAll (tickBeat busy s x) (readsMemory x) (poolWord s.sys x) (UsedFrom x.unread) (· ∈ x.unread) := by
  rw [hmem]
  exact readsAll_pool (decide_eq_true hurgent) hheld hidle.1 hidle.2

theorem tickWritten_of_unread (h : ∀ m ∈ x.moves, m.ready = false) :
    (tickWritten busy s x).moves = x.moves.reverse ∧ (tickWritten busy s x).used = [] := by
  unfold tickWritten
  split
  · have hwrite := writeMoves_of_unread (tickBeat busy s x) (tickStart s x []) h
    rwa [show (tickStart s x []).moves = [] from rfl, List.append_nil] at hwrite
  · exact ⟨rfl, rfl⟩

/-- An urgent transfer from scratchpads none of whose units can be written reads every word. -/
theorem moves_tickXfer_pool (hstage : x.stage = 1) (hmem : x.shadow.fromMemory = false) (hurgent : x.urge ≤ s.gtc)
    (hheld : x.after.ents = []) (hidle : BanksIdle busy x.unread) (h : ∀ m ∈ x.moves, m.ready = false) :
    (tickXfer busy s x).moves = x.moves.map (Move.fill (poolWord s.sys x)) := by
  obtain ⟨hmoves, hused⟩ := tickWritten_of_unread (busy := busy) (s := s) h
  have hread : ReadsAll (tickBeat (busyWith busy (tickWritten busy s x).used) s x) (readsMemory x) (poolWord s.sys x)
      (UsedFrom x.unread) (· ∈ x.unread) := by
    rw [hused]
    exact readsAll_tick_pool hurgent hheld (by simp [readsMemory, hmem]) hidle
  rw [moves_tickXfer _ _ _ hstage, moves_tickRead _ _ _ hread (fun u hu => nomatch hu), hmoves, List.reverse_reverse]
  intro m hm w hw hnone
  rw [hmoves] at hm
  exact mem_unread (List.mem_reverse.1 hm) hw hnone

/-! ## A transfer whose first words are read -/

/-- The tick of a transfer that reads its first words leaves them read. -/
theorem moves_tickLeft {val : Nat → Nat × Bool × Nat} {P : Tick → Prop} {ok : Nat → Prop} (hstage : x.stage = 0)
    (h : ReadsAll (tickBeat busy s x) (readsMemory x) val P ok) (hP : P { tickStart s x [] with used := [] })
    (hok : ∀ m ∈ x.moves, ∀ w ∈ m.src, w.2 = none → ok w.1) : (tickLeft busy s x).moves = x.moves.map (Move.fill val) := by
  have hwritten := tickWritten_of_stage busy s x hstage
  have hread := moves_tickRead busy s x (val := val) (P := P) (ok := ok) (by rw [hwritten]; exact h) (by rw [hwritten]; exact hP)
    (by rw [hwritten]; exact fun m hm => hok m (List.mem_reverse.1 hm))
  rw [hwritten] at hread
  exact hread.trans (by simp [tickStart])

/-- A gather or scatter then has its indices. -/
theorem tickXfer_of_indexed {val : Nat → Nat × Bool × Nat} (hstage : x.stage = 0) (hkind : x.kind ≠ 3)
    (hleft : (tickLeft busy s x).moves = x.moves.map (Move.fill val)) : (tickXfer busy s x).stage ≠ 0 ∧
      (tickXfer busy s x).idx = x.moves.flatMap fun m => m.src.map fun w => (w.2.getD (val w.1)).1 := by
  have hready : ∀ m ∈ (tickLeft busy s x).moves, m.ready = true := by
    rw [hleft]
    rintro _ hm
    obtain ⟨m, -, rfl⟩ := List.mem_map.1 hm
    exact ready_fill val m
  obtain ⟨hone, hidx⟩ := resolved_of_indexed { s with sys := tickNoted busy s x } (tickLeft busy s x) hstage hready hkind
  refine ⟨stage_closed_ne_zero _ (by rw [hone]; exact Nat.one_ne_zero), ?_⟩
  rw [tickXfer, idx_closed, hidx, hleft, List.flatMap_map, List.map_flatMap]
  simp only [words_fill, List.map_map]
  rfl

/-- A decrypt then has come to its plaintext, or has failed. -/
theorem tickXfer_of_decrypt {val : Nat → Nat × Bool × Nat} (hstage : x.stage = 0) (hkind : x.kind = 3)
    (hleft : (tickLeft busy s x).moves = x.moves.map (Move.fill val)) :
    let r := decryptSource s.sys x (x.moves.flatMap fun m => m.src.map fun w => w.2.getD (val w.1))
    (r.1 ≠ 0 → ((tickXfer busy s x).stage, (tickXfer busy s x).moves, (tickXfer busy s x).status) = (2, [], r.1)) ∧
      (r.1 = 0 → ∃ hostsh, tickXfer busy s x = ((tickLeft busy s x).moving (tickNoted busy s x) (destUnits x.shadow.toMemory hostsh
        ((sideWords (tickNoted busy s x) x.core x.shadow.toMemory x.shadow.xdst.toNat x.shadow.xcount0.toNat).zip
          (r.2.map fun v => (0, some (v, false, 0)))))).closed) := by
  have hready : ∀ m ∈ (tickLeft busy s x).moves, m.ready = true := by
    rw [hleft]
    rintro _ hm
    obtain ⟨m, -, rfl⟩ := List.mem_map.1 hm
    exact ready_fill val m
  have hwords : (tickLeft busy s x).moves.flatMap Move.words = x.moves.flatMap fun m => m.src.map fun w => w.2.getD (val w.1) := by
    rw [hleft, List.flatMap_map]
    simp only [words_fill]
  have hsource : decryptSource (tickNoted busy s x) (tickLeft busy s x) ((tickLeft busy s x).moves.flatMap Move.words) =
      decryptSource s.sys x (x.moves.flatMap fun m => m.src.map fun w => w.2.getD (val w.1)) := by
    rw [decryptSource_tickLeft, hwords]
  intro r
  refine ⟨fun hr => ?_, fun hr => ⟨meetsHost { s with sys := tickNoted busy s x } x.core
    (memDests x.shadow ((tickLeft busy s x).pieces (tickNoted busy s x))), ?_⟩⟩
  · rw [tickXfer, resolved_of_failed _ (tickLeft busy s x) hstage hready hkind (by rwa [hsource]), closed_of_stage _ (by decide : 2 ≠ 1), hsource]
  · rw [tickXfer, resolved_of_decrypted _ (tickLeft busy s x) hstage hready hkind (by rwa [hsource]), hsource]
    rfl

end

end Sys2Proof.Machine

/-! PROOFS. The units of a decrypt's plaintext hold its words in order (R172, R178). -/

namespace Sys2Proof.Machine

/-! ## Moves to ascending addresses -/

/-- One destination comes before another. -/
def Before (a b : Option Nat) : Prop := ∃ d e, a = some d ∧ b = some e ∧ d < e

/-- A joined move stands at the first one's place, with the words of both in order. -/
theorem join_of_before {m n k : Move} (h : Before m.dst n.dst) (hk : m.join n = some k) :
    k.dst = m.dst ∧ k.words = m.words ++ n.words ∧ m.dst.map (· / 8) = n.dst.map (· / 8) := by
  obtain ⟨d, e, hd, he, hlt⟩ := h
  simp only [Move.join, hd, he] at hk
  split at hk
  case isFalse => exact nomatch hk
  case isTrue hunit =>
    obtain rfl := Option.some.inj hk
    refine ⟨?_, ?_, ?_⟩
    · simp [hd, Nat.min_eq_left hlt.le]
    · simp [Move.words]
    · simp [hd, he, hunit.2.2.1]

/-- A move that goes behind all others is added behind them, or to the last of them. -/
theorem addMove_of_before {n : Move} {l : List Move} (hl : (l.map Move.dst).Pairwise Before) (hn : ∀ m ∈ l, Before m.dst n.dst) :
    addMove n l = l ++ [n] ∨
      ∃ l' m k, l = l' ++ [m] ∧ addMove n l = l' ++ [k] ∧ k.dst = m.dst ∧ k.words = m.words ++ n.words := by
  induction l with
  | nil => exact .inl rfl
  | cons m ms ih =>
    obtain ⟨hm, hms⟩ := List.pairwise_cons.1 hl
    cases ms with
    | nil =>
      simp only [addMove, List.any_nil, Bool.false_eq_true, if_false]
      cases hjoin : m.join n with
      | none => exact .inl rfl
      | some k =>
        obtain ⟨hdst, hwords, -⟩ := join_of_before (hn m List.mem_cons_self) hjoin
        exact .inr ⟨[], m, k, rfl, rfl, hdst, hwords⟩
    | cons m' ms =>
      have hskip : (if (m' :: ms).any fun k => k.dst.map (· / 8) == n.dst.map (· / 8) then none else m.join n) = none := by
        split
        · rfl
        case isFalse hany =>
          by_contra hjoin
          obtain ⟨k, hk⟩ := Option.ne_none_iff_exists'.1 hjoin
          obtain ⟨-, -, hunit⟩ := join_of_before (hn m List.mem_cons_self) hk
          obtain ⟨d, e, hd, he, hlt⟩ := hm m'.dst List.mem_cons_self
          obtain ⟨e', f, he', hf, hlt'⟩ := hn m' (List.mem_cons_of_mem m List.mem_cons_self)
          obtain rfl : e = e' := Option.some.inj (he.symm.trans he')
          rw [hd, hf, Option.map_some, Option.map_some, Option.some.injEq] at hunit
          apply hany
          simp only [List.any_cons, he, hf, Option.map_some, Bool.or_eq_true, beq_iff_eq, Option.some.injEq]
          exact .inl (by omega)
      have hadd : addMove n (m :: m' :: ms) = m :: addMove n (m' :: ms) := by
        rw [addMove, hskip]
      rw [hadd]
      obtain heq | ⟨l', u, k, hl', heq, hdst, hwords⟩ := ih hms fun u hu => hn u (List.mem_cons_of_mem m hu)
      · exact .inl (by rw [heq]; rfl)
      · exact .inr ⟨m :: l', u, k, by rw [hl']; rfl, by rw [heq]; rfl, hdst, hwords⟩

/-- Add one more move as the joining of moves does: a single word to the unit that it completes. -/
def joinStep (l : List Move) (m : Move) : List Move := if m.src.length = 1 then addMove m l else l ++ [m]

theorem words_foldl_joinStep {ms l : List Move} (h : ((l ++ ms).map Move.dst).Pairwise Before) :
    (ms.foldl joinStep l).flatMap Move.words = (l ++ ms).flatMap Move.words := by
  induction ms generalizing l with
  | nil => simp
  | cons m ms ih =>
    rw [List.foldl_cons]
    have hbehind : (l ++ [m]) ++ ms = l ++ m :: ms := by simp
    have happend : (ms.foldl joinStep (l ++ [m])).flatMap Move.words = (l ++ m :: ms).flatMap Move.words := by
      rw [ih (by rwa [hbehind]), hbehind]
    by_cases hsingle : m.src.length = 1
    case neg => rwa [joinStep, if_neg hsingle]
    case pos =>
      rw [joinStep, if_pos hsingle]
      rw [List.map_append, List.pairwise_append] at h
      obtain ⟨hl, hms, hcross⟩ := h
      have hm : ∀ u ∈ l, Before u.dst m.dst := fun u hu => hcross _ (List.mem_map_of_mem hu) _ List.mem_cons_self
      obtain heq | ⟨l', u, k, rfl, heq, hdst, hwords⟩ := addMove_of_before hl hm
      · rw [heq]
        exact happend
      · rw [heq, ih]
        · simp [hwords]
        · have hsame : ((l' ++ [k]) ++ ms).map Move.dst = (l' ++ [u]).map Move.dst ++ ms.map Move.dst := by simp [hdst]
          rw [hsame, List.pairwise_append]
          exact ⟨hl, (List.pairwise_cons.1 hms).2, fun a ha b hb => hcross a ha b (List.mem_cons_of_mem _ hb)⟩

theorem words_joinMoves {ms : List Move} (h : (ms.map Move.dst).Pairwise Before) : (joinMoves ms).flatMap Move.words = ms.flatMap Move.words := by
  unfold joinMoves
  split
  · rfl
  · exact words_foldl_joinStep (l := []) h

/-! ## Words that follow one another as units -/

/-- The value of a word with its destination. -/
def valueOf (p : Nat × Nat × Option (Nat × Bool × Nat)) : Option (Nat × Bool × Nat) := p.2.2

theorem words_pairUp (l : List (Nat × Nat × Option (Nat × Bool × Nat))) :
    (pairUp l).flatMap Move.words = l.filterMap valueOf := by
  induction l using pairUp.induct with
  | case1 d a e b l hunit ih =>
    rw [pairUp, if_pos hunit, List.flatMap_cons, ih]
    exact (List.filterMap_append (f := valueOf) (l := [(d, a), (e, b)])).symm
  | case2 d a e b l hunit ih =>
    rw [pairUp, if_neg hunit, List.flatMap_cons, ih]
    exact (List.filterMap_append (f := valueOf) (l := [(d, a)])).symm
  | case3 d a => exact List.append_nil _
  | case4 => rfl

theorem dsts_pairUp (l : List (Nat × Nat × Option (Nat × Bool × Nat))) : ((pairUp l).map Move.dst).Sublist (l.map fun p => some p.1) := by
  induction l using pairUp.induct with
  | case1 d a e b l hunit ih =>
    rw [pairUp, if_pos hunit]
    exact .cons_cons _ (.cons _ ih)
  | case2 d a e b l hunit ih =>
    rw [pairUp, if_neg hunit]
    exact .cons_cons _ ih
  | case3 d a => exact .refl _
  | case4 => exact .refl _

/-- Units of words to ascending addresses hold them in order. -/
theorem words_destUnits (mem hostsh : Bool) {l : List (Nat × Nat × Option (Nat × Bool × Nat))} (h : (l.map Prod.fst).Pairwise (· < ·)) :
    (destUnits mem hostsh l).flatMap Move.words = l.filterMap valueOf := by
  unfold destUnits
  split
  · split
    · exact words_pairUp l
    · rw [words_joinMoves, words_pairUp]
      refine List.Pairwise.sublist (dsts_pairUp l) ?_
      rw [List.pairwise_map] at h ⊢
      exact h.imp fun hlt => ⟨_, _, rfl, rfl, hlt⟩
  · induction l with
    | nil => rfl
    | cons p l ih =>
      rw [List.map_cons, List.flatMap_cons, ih (List.pairwise_cons.1 h).2]
      exact (List.filterMap_append (f := valueOf) (l := [p])).symm

theorem wordsFrom_ascending (a n : Nat) : (wordsFrom a n).Pairwise (· < ·) := by
  rw [wordsFrom, List.pairwise_map]
  exact List.pairwise_lt_range.imp fun h => by omega

theorem length_wordsFrom (a n : Nat) : (wordsFrom a n).length = n / 4 := by simp [wordsFrom]

/-- Values put into words from an address come out in order. -/
theorem words_destUnits_wordsFrom (mem hostsh : Bool) (a : Nat) {n : Nat} {vs : List Nat} (h : vs.length = n / 4) :
    (destUnits mem hostsh ((wordsFrom a n).zip (vs.map fun v => (0, some (v, false, 0))))).flatMap Move.words =
      vs.map fun v => (v, false, 0) := by
  have hlen : (wordsFrom a n).length = (vs.map fun v => ((0 : Nat), some (v, false, 0))).length := by
    rw [length_wordsFrom, List.length_map, h]
  rw [words_destUnits mem hostsh (by rw [List.map_fst_zip hlen.le]; exact wordsFrom_ascending a n)]
  have hsnd : valueOf = (fun q : Nat × Option (Nat × Bool × Nat) => q.2) ∘ Prod.snd := rfl
  rw [hsnd, ← List.filterMap_map, List.map_snd_zip hlen.ge, List.filterMap_map]
  exact congrFun (List.filterMap_eq_map (f := fun v : Nat => (v, false, 0))) vs

/-! ## A decrypt whose source is read -/

/-- A decrypt that succeeds has a plaintext of the length that it was asked for, and met no end that is gone. -/
theorem decryptSource_of_ok {y : Sys} {x : Xfer} {ws : List (Nat × Bool × Nat)} (h : (decryptSource y x ws).1 = 0) :
    (decryptSource y x ws).2.length = x.shadow.xcount0.toNat / 4 ∧ ∀ w ∈ ws, w.2.2 ≠ 3 := by
  unfold decryptSource at h ⊢
  dsimp only at h ⊢
  split at h
  case isTrue => exact nomatch h
  case isFalse hgone =>
    rw [if_neg hgone]
    split at h
    case isTrue => exact nomatch h
    case isFalse hunbacked =>
      rw [if_neg hunbacked]
      split at h
      case isTrue => exact nomatch h
      case isFalse hbad =>
        rw [if_neg hbad]
        split at h
        · refine ⟨by simp, fun w hw hthree => hgone (List.any_eq_true.2 ⟨w, hw, by simp [hthree]⟩)⟩
        · exact nomatch h

section
variable {busy : List (Nat × Nat)} {s : State} {x : Xfer}

theorem moves_moving (y : Sys) (ms : List Move) : (x.moving y ms).moves = ms := rfl

theorem status_moving (y : Sys) (ms : List Move) : (x.moving y ms).status = x.status := rfl

theorem tickRead_of_read (hstage : x.stage = 0) (h : ∀ m ∈ x.moves, m.ready = true) :
    tickRead busy s x = tickStart s x x.moves.reverse := by
  have hwritten := tickWritten_of_stage busy s x hstage
  rw [tickRead_of_ready, hwritten]
  · rfl
  · rw [hwritten]
    exact fun m hm => h m (List.mem_reverse.1 hm)

theorem moves_tickRead_of_read (hstage : x.stage = 0) (h : ∀ m ∈ x.moves, m.ready = true) :
    (tickRead busy s x).moves.reverse = x.moves := by
  rw [tickRead_of_read hstage h]
  exact List.reverse_reverse _

theorem moves_tickLeft_of_read (hstage : x.stage = 0) (h : ∀ m ∈ x.moves, m.ready = true) (val : Nat → Nat × Bool × Nat) :
    (tickLeft busy s x).moves = x.moves.map (Move.fill val) := by
  have hfill : x.moves.map (Move.fill val) = x.moves :=
    (List.map_congr_left fun m hm => fill_of_ready val (h m hm)).trans (List.map_id _)
  rw [hfill]
  exact moves_tickRead_of_read hstage h

/-- A decrypt whose words brought no mark of an end that is gone keeps its status. -/
theorem status_tickLeft_of_read (hstage : x.stage = 0) (h : ∀ m ∈ x.moves, m.ready = true)
    (hgone : ∀ w ∈ x.moves.flatMap Move.words, w.2.2 ≠ 3) : (tickLeft busy s x).status = x.status := by
  have hfilled : filled (readsMemory x) x.moves = false := by
    simp only [filled, Bool.and_eq_false_iff, List.any_eq_false]
    right
    intro m hm hany
    obtain ⟨w, hw, hthree⟩ := List.any_eq_true.1 hany
    exact hgone w (List.mem_flatMap.2 ⟨m, hm, hw⟩) (by simpa using hthree)
  show worse (tickRead busy s x).status (if filled (readsMemory x) (tickRead busy s x).moves.reverse then 5 else 0) = x.status
  have hleft : (tickRead busy s x).moves.reverse = x.moves := moves_tickRead_of_read hstage h
  rw [hleft, hfilled, tickRead_of_read hstage h]
  rfl

/-- It moves nothing if it fails, and its plaintext otherwise. -/
theorem tickXfer_of_source_read (hstage : x.stage = 0) (hkind : x.kind = 3) (h : ∀ m ∈ x.moves, m.ready = true) :
    let r := decryptSource s.sys x (x.moves.flatMap Move.words)
    (r.1 ≠ 0 → ((tickXfer busy s x).stage, (tickXfer busy s x).moves, (tickXfer busy s x).status) = (2, [], r.1)) ∧
      (r.1 = 0 → (tickXfer busy s x).status = x.status ∧
        (tickXfer busy s x).moves.flatMap Move.words = r.2.map fun v => (v, false, 0)) := by
  let val : Nat → Nat × Bool × Nat := fun _ => (0, false, 0)
  have hwords : (x.moves.flatMap fun m => m.src.map fun w => w.2.getD (val w.1)) = x.moves.flatMap Move.words :=
    List.flatMap_congr fun m hm => by rw [← words_fill, fill_of_ready val (h m hm)]
  obtain ⟨hfail, hok⟩ := tickXfer_of_decrypt (busy := busy) (s := s) hstage hkind (moves_tickLeft_of_read hstage h val)
  rw [hwords] at hfail hok
  refine ⟨hfail, fun hr => ?_⟩
  obtain ⟨hlen, hgone⟩ := decryptSource_of_ok hr
  obtain ⟨hostsh, heq⟩ := hok hr
  rw [heq, status_closed, moves_closed, status_moving, moves_moving, sideWords]
  exact ⟨status_tickLeft_of_read hstage h hgone, words_destUnits_wordsFrom _ _ _ hlen⟩

end

end Sys2Proof.Machine

/-! PROOFS. The writes of a transfer into pools (R76, R150, R151, R153): scratchpad words and words of ring registers. -/

namespace Sys2Proof.Machine

/-! ## Words in a pool -/

theorem ofBytes_toBytes {n x : Nat} (h : x < 256 ^ n) : ofBytes (toBytes n x) = x := by
  induction n generalizing x with
  | zero => simp [toBytes, ofBytes, Nat.lt_one_iff.1 h]
  | succ n ih =>
    have hdiv : x / 256 < 256 ^ n := Nat.div_lt_of_lt_mul (by rwa [Nat.pow_succ, Nat.mul_comm] at h)
    simp only [toBytes, ofBytes, ih hdiv, BitVec.toNat_ofNat]
    omega

theorem Mem.bytes_congr {m m' : Mem} {a n : Nat} (h : ∀ i < n, Mem.read m' (a + i) = Mem.read m (a + i)) :
    Mem.bytes m' a n = Mem.bytes m a n := List.map_congr_left fun i hi => h i (List.mem_range.1 hi)

/-- Bytes that were written read back. -/
theorem Mem.bytes_writes (m : Mem) (a : Nat) (l : List Byte) : Mem.bytes (Mem.writes m a l) a l.length = l := by
  apply List.ext_getElem
  · simp [Mem.bytes]
  · intro i hi hi'
    simp [Mem.bytes, Mem.read_writes, hi']

theorem Core.flagCause_setFlag (c : Core) (w k v : Nat) : (c.setFlag w k).flagCause v = if v = w then k else c.flagCause v := by
  by_cases hk : k = 0
  · rw [hk, flagCause_setFlag_zero]
  · have hget : (c.setFlag w k).flagCause v = ((getBy Prod.fst v (putBy Prod.fst (w, k) c.flags0)).map Prod.snd).getD 0 := by
      simp [Core.flagCause, Core.setFlag, hk, getBy]
    rw [hget]
    split
    case isTrue h => rw [h, getBy_putBy_same Prod.fst (w, k)]; rfl
    case isFalse h => rw [getBy_putBy_other _ _ _ _ h]; rfl

theorem mem_putBy_number (g h : Nat) (l : List Nat) : h ∈ putBy (fun x : Nat => x) g l ↔ h = g ∨ h ∈ l := by
  have hfind : ∀ l : List Nat, h ∈ l ↔ (getBy (fun x : Nat => x) h l).isSome = true := fun l => by
    simp [getBy, List.find?_isSome]
  rw [hfind, hfind]
  by_cases hg : h = g
  · rw [hg, getBy_putBy_same (fun x : Nat => x) g l]
    simp
  · rw [getBy_putBy_other _ _ _ _ hg]
    simp [hg]

/-! ## One word put in its place -/

/-- The value that a word has in its place: no ring register holds poison. -/
def placedValue (x : Xfer) (r : Nat × Bool × Nat) : Nat := if x.kind = 6 ∧ r.2.1 = true then 0 else r.1

/-- A core with a word put in its place, of a ring register or of the scratchpad. -/
def putPlace (x : Xfer) (done : Option Bool) (d : Nat) (r : Nat × Bool × Nat) (c : Core) : Core :=
  if x.kind = 6 then putRing c x.shadow.ring (placeOff d) r else putWord c (placeOff d) r done

/-- The scratchpad offset of a place of a core. -/
def placeSpad (c : Core) (d : Nat) : Nat := placeOff d - spadBase c.partN

section
variable (x : Xfer) (done : Option Bool) (d : Nat) (r : Nat × Bool × Nat) (c : Core)

theorem id_putPlace : (putPlace x done d r c).id = c.id := by
  unfold putPlace putRing putWord
  dsimp only
  split
  · rfl
  · split
    · rfl
    · split <;> rfl

theorem part_putPlace : (putPlace x done d r c).part = c.part := by
  unfold putPlace putRing putWord
  dsimp only
  split
  · rfl
  · split
    · rfl
    · split <;> rfl

/-- The four bytes of the word are those of its place. -/
theorem pool_putPlace (h : x.kind ≠ 6 → spadBase c.partN ≤ placeOff d) :
    (putPlace x done d r c).pool = Mem.writes c.pool (placeOff d) (toBytes 4 (placedValue x r)) := by
  unfold putPlace
  split
  case isTrue hk => simp [putRing, placedValue, hk]
  case isFalse hk =>
    have hplace : spadBase c.partN + (placeOff d - spadBase c.partN) = placeOff d := Nat.add_sub_cancel' (h hk)
    have hpool : (putWord c (placeOff d) r done).pool =
        Mem.writes c.pool (spadBase c.partN + (placeOff d - spadBase c.partN)) (toBytes 4 r.1) := by
      unfold putWord
      dsimp only
      split
      · rfl
      · split <;> rfl
    rw [hpool, hplace, placedValue, if_neg fun h => hk h.1]

theorem flagCause_putPlace (hk : x.kind ≠ 6) (w : Nat) :
    (putPlace x done d r c).flagCause w = if w = placeSpad c d / 4 then r.2.2 else c.flagCause w := by
  rw [putPlace, if_neg hk, ← Core.flagCause_setFlag c (placeSpad c d / 4) r.2.2 w]
  unfold putWord
  dsimp only
  split
  · rfl
  · split <;> rfl

/-- A word that is poisoned marks its granule; no mark goes. -/
theorem poisoned_putPlace (hk : x.kind ≠ 6) (o : Nat) :
    (putPlace x none d r c).poisoned o = ((r.2.1 && o / 64 == placeSpad c d / 64) || c.poisoned o) := by
  rw [putPlace, if_neg hk]
  unfold putWord
  dsimp only
  split
  case isTrue hp =>
    simp [Core.poisoned, Core.setPoison, Core.setFlag, Core.sput, mem_putBy_number, hp, placeSpad, Bool.or_assoc, Bool.decide_or, beq_eq_decide]
  case isFalse hp => simp [hp, Core.poisoned, Core.setFlag, Core.sput]

end

/-! ## Words at their places in the machine -/

/-- A place holds a word: its four bytes, and of a scratchpad the flag of the word and, where none of the transfer's granules is
written whole, its mark. -/
def PlaceHolds (x : Xfer) (y : Sys) (d : Nat) (r : Nat × Bool × Nat) : Prop :=
  let c := coreOf y (placeCore d)
  Mem.bytes c.pool (placeOff d) 4 = toBytes 4 (placedValue x r) ∧
    (x.kind ≠ 6 → c.flagCause (placeSpad c d / 4) = r.2.2 ∧ (x.whole = [] → r.2.1 = true → c.poisoned (placeSpad c d) = true))

/-- What a place that holds a word reads as, in a core with the partition that the transfer found. -/
theorem PlaceHolds.values {x : Xfer} {y : Sys} {d : Nat} {r : Nat × Bool × Nat} (h : PlaceHolds x y d r) (hr : r.1 < 2 ^ 32) (part : Nat)
    (hpart : (coreOf y (placeCore d)).partN = part) (hbase : x.kind ≠ 6 → spadBase part ≤ placeOff d) :
    (x.kind = 6 → Mem.nat (coreOf y (placeCore d)).pool (placeOff d) 4 = if r.2.1 then 0 else r.1) ∧
    (x.kind ≠ 6 → (coreOf y (placeCore d)).snat (placeOff d - spadBase part) 4 = r.1 ∧
      (coreOf y (placeCore d)).flagCause ((placeOff d - spadBase part) / 4) = r.2.2 ∧
      (x.whole = [] → r.2.1 = true → (coreOf y (placeCore d)).poisoned (placeOff d - spadBase part) = true)) := by
  obtain ⟨hbytes, hmarks⟩ := h
  have hnat : Mem.nat (coreOf y (placeCore d)).pool (placeOff d) 4 = placedValue x r := by
    rw [Mem.nat, hbytes, ofBytes_toBytes]
    unfold placedValue
    split <;> omega
  refine ⟨fun hk => ?_, fun hk => ?_⟩
  · rw [hnat, placedValue]
    simp [hk]
  · subst hpart
    refine ⟨?_, hmarks hk⟩
    rw [Core.snat, Nat.add_sub_cancel' (hbase hk), hnat, placedValue, if_neg fun h => hk h.1]

/-- Bytes of a pool that no place of a list holds. -/
def OffPlaces (ds : List Nat) (c b : Nat) : Prop := ∀ d ∈ ds, placeCore d = c → b < placeOff d ∨ placeOff d + 4 ≤ b

theorem place_ne {d e : Nat} (h : d ≠ e) (hcore : placeCore d = placeCore e) : placeOff d ≠ placeOff e := by
  unfold placeCore at hcore
  unfold placeOff
  omega

section
variable {x : Xfer} {y : Sys} {d : Nat} {r : Nat × Bool × Nat} {done : Option Bool}

/-- The machine with a word put in its place. -/
def storePlace (x : Xfer) (y : Sys) (done : Option Bool) (d : Nat) (r : Nat × Bool × Nat) : Sys :=
  setCore y (putPlace x done d r (coreOf y (placeCore d)))

theorem coreOf_storePlace (c : Nat) : coreOf (storePlace x y done d r) c =
    if c = placeCore d then putPlace x done d r (coreOf y c) else coreOf y c := by
  rw [storePlace, coreOf_setCore, id_putPlace, coreOf_id]
  split
  case isTrue h => rw [h]
  case isFalse => rfl

theorem part_storePlace (c : Nat) : (coreOf (storePlace x y done d r) c).part = (coreOf y c).part := by
  rw [coreOf_storePlace]
  split
  · exact part_putPlace ..
  · rfl

theorem read_storePlace (hbase : x.kind ≠ 6 → spadBase (coreOf y (placeCore d)).partN ≤ placeOff d) {c b : Nat}
    (h : c = placeCore d → b < placeOff d ∨ placeOff d + 4 ≤ b) :
    Mem.read (coreOf (storePlace x y done d r) c).pool b = Mem.read (coreOf y c).pool b := by
  rw [coreOf_storePlace]
  split
  case isTrue hc =>
    rw [hc, pool_putPlace x done d r _ hbase, Mem.read_writes, length_toBytes, if_neg]
    have := h hc
    omega
  case isFalse => rfl

theorem placeHolds_storePlace_same (hbase : x.kind ≠ 6 → spadBase (coreOf y (placeCore d)).partN ≤ placeOff d)
    (hdone : x.whole = [] → done = none) : PlaceHolds x (storePlace x y done d r) d r := by
  have hcore : coreOf (storePlace x y done d r) (placeCore d) = putPlace x done d r (coreOf y (placeCore d)) := by
    rw [coreOf_storePlace, if_pos rfl]
  have hspad : placeSpad (putPlace x done d r (coreOf y (placeCore d))) d = placeSpad (coreOf y (placeCore d)) d := by
    rw [placeSpad, placeSpad, Core.partN, part_putPlace]
    rfl
  unfold PlaceHolds
  rw [hcore]
  refine ⟨?_, fun hk => ⟨?_, fun hwhole hp => ?_⟩⟩
  · rw [pool_putPlace x done d r _ hbase]
    exact Mem.bytes_writes ..
  · rw [hspad, flagCause_putPlace x done d r _ hk, if_pos rfl]
  · rw [hspad, hdone hwhole, poisoned_putPlace x d r _ hk]
    simp [hp]

/-- A word at another place stays. -/
theorem PlaceHolds.storePlace {e : Nat} {q : Nat × Bool × Nat} (hbase : x.kind ≠ 6 → spadBase (coreOf y (placeCore d)).partN ≤ placeOff d)
    (hbase' : x.kind ≠ 6 → spadBase (coreOf y (placeCore e)).partN ≤ placeOff e) (hne : e ≠ d) (hd : d % 4 = 0) (he : e % 4 = 0)
    (hdone : x.whole = [] → done = none) (h : PlaceHolds x y e q) : PlaceHolds x (storePlace x y done d r) e q := by
  have hapart : placeCore e = placeCore d → placeOff e + 4 ≤ placeOff d ∨ placeOff d + 4 ≤ placeOff e := fun hcore => by
    have := place_ne hne hcore
    unfold placeOff at this ⊢
    omega
  obtain ⟨hbytes, hmarks⟩ := h
  have hspad : placeSpad (coreOf (Machine.storePlace x y done d r) (placeCore e)) e = placeSpad (coreOf y (placeCore e)) e := by
    rw [placeSpad, placeSpad, Core.partN, part_storePlace]
    rfl
  refine ⟨?_, fun hk => ?_⟩
  · rw [← hbytes]
    exact Mem.bytes_congr fun i hi => read_storePlace hbase fun hcore => by
      have := hapart hcore
      omega
  · obtain ⟨hflag, hpoison⟩ := hmarks hk
    rw [hspad, coreOf_storePlace]
    split
    case isFalse => exact ⟨hflag, hpoison⟩
    case isTrue hcore =>
      have hword : placeSpad (coreOf y (placeCore e)) e / 4 ≠ placeSpad (coreOf y (placeCore e)) d / 4 := by
        have := hapart hcore
        have := hbase hk
        have := hbase' hk
        rw [← hcore] at *
        unfold placeSpad
        omega
      refine ⟨?_, fun hwhole hq => ?_⟩
      · rw [flagCause_putPlace x done d r _ hk, if_neg hword, hflag]
      · rw [hdone hwhole, poisoned_putPlace x d r _ hk, hpoison hwhole hq, Bool.or_true]

end

/-! ## The tick's writes -/

/-- A word of a move with one is put in its place, its line is used. -/
theorem writePool_eq (b : Beat) (t : Tick) (d a : Nat) (r : Nat × Bool × Nat) : ∃ whole done,
    writePool b t d ⟨some d, [(a, some r)]⟩ = { t.use d with y := storePlace b.x t.y done d r, whole := whole } ∧
      (t.whole = [] → whole = [] ∧ done = none) := by
  unfold writePool
  dsimp only [Move.words, List.filterMap_cons, List.filterMap_nil]
  by_cases hk : b.x.kind = 6
  · exact ⟨t.whole, none, by simp [hk, storePlace, putPlace, Tick.use], fun h => ⟨h, rfl⟩⟩
  · refine ⟨(countDown t.whole (d / 64) 1 r.2.1).1, (countDown t.whole (d / 64) 1 r.2.1).2, by simp [hk, storePlace, putPlace], fun h => ?_⟩
    rw [h]
    exact ⟨rfl, rfl⟩

/-- A move whose bank is idle is written in its turn. -/
theorem writeMove_of_idle {b : Beat} {t : Tick} {d : Nat} {src : List (Nat × Option (Nat × Bool × Nat))} (hmem : b.x.shadow.toMemory = false)
    (hurgent : b.urgent = true) (hheld : t.held = []) (hready : (⟨some d, src⟩ : Move).ready = true) (hidle : b.idle t d = true) :
    writeMove b t ⟨some d, src⟩ = writePool b t d ⟨some d, src⟩ := by
  have hfree : ((⟨some d, src⟩ : Move).span.any t.held.contains) = false := by simp [hheld]
  simp only [writeMove, hmem, Bool.false_eq_true, if_false, hready, hfree, Bool.and_false, Bool.not_false, Bool.and_true, Beat.moves, hurgent,
    Bool.true_or, hidle, if_true]

/-- A move of one word to a place that can take it. -/
def PlaceMove (x : Xfer) (y : Sys) (m : Move) : Prop := ∃ d a r, m = ⟨some d, [(a, some r)]⟩ ∧ d % 4 = 0 ∧
  (x.kind ≠ 6 → spadBase (coreOf y (placeCore d)).partN ≤ placeOff d)

/-- The moves of a list to places in idle banks are all written. -/
theorem writeMoves_places {b : Beat} {ps : List Nat} (hmem : b.x.shadow.toMemory = false) (hurgent : b.urgent = true)
    (hidle : BanksIdle b.busy ps) {ms : List Move} {t : Tick} (hms : ∀ m ∈ ms, PlaceMove b.x t.y m) (hdst : (ms.filterMap Move.dst).Nodup)
    (hps : ∀ d ∈ ms.filterMap Move.dst, d ∈ ps) (hused : UsedFrom ps t) (hheld : t.held = []) (hwhole : b.x.whole = [] → t.whole = []) :
    let u := ms.foldl (writeMove b) t
    u.moves = t.moves ∧ (∀ c, (coreOf u.y c).part = (coreOf t.y c).part) ∧
      (∀ d a r, (⟨some d, [(a, some r)]⟩ : Move) ∈ ms → PlaceHolds b.x u.y d r) ∧
      (∀ d r, d % 4 = 0 → (b.x.kind ≠ 6 → spadBase (coreOf t.y (placeCore d)).partN ≤ placeOff d) → d ∉ ms.filterMap Move.dst →
        PlaceHolds b.x t.y d r → PlaceHolds b.x u.y d r) ∧
      ∀ c o, OffPlaces (ms.filterMap Move.dst) c o → Mem.read (coreOf u.y c).pool o = Mem.read (coreOf t.y c).pool o := by
  induction ms generalizing t with
  | nil => exact ⟨rfl, fun _ => rfl, (fun _ _ _ hm => absurd hm List.not_mem_nil), fun _ _ _ _ _ h => h, fun _ _ _ => rfl⟩
  | cons m ms ih =>
    obtain ⟨d, a, r, rfl, hd, hbase⟩ := hms m List.mem_cons_self
    have hdsts : (⟨some d, [(a, some r)]⟩ :: ms : List Move).filterMap Move.dst = d :: ms.filterMap Move.dst := rfl
    rw [hdsts] at hdst hps
    obtain ⟨hnew, hdst⟩ := List.nodup_cons.1 hdst
    have hdps : d ∈ ps := hps d List.mem_cons_self
    have hstep := writeMove_of_idle hmem hurgent hheld (rfl : (⟨some d, [(a, some r)]⟩ : Move).ready = true)
      (idle_of_usedFrom hdps (hidle.1 d hdps) hidle.2 hused)
    obtain ⟨whole, done, heq, hdone⟩ := writePool_eq b t d a r
    rw [heq] at hstep
    have hbases : ∀ c, (coreOf (storePlace b.x t.y done d r) c).partN = (coreOf t.y c).partN := fun c => by
      rw [Core.partN, part_storePlace]
      rfl
    obtain ⟨hmoves, hparts, hholds, hkeeps, hreads⟩ := ih (t := { t.use d with y := storePlace b.x t.y done d r, whole := whole })
      (fun n hn => by
        obtain ⟨e, a', q, rfl, he, hbase'⟩ := hms n (List.mem_cons_of_mem _ hn)
        exact ⟨e, a', q, rfl, he, fun hk => by rw [hbases]; exact hbase' hk⟩)
      hdst (fun e he => hps e (List.mem_cons_of_mem d he)) (usedFrom_useLine hdps hused) hheld (fun h => (hdone (hwhole h)).1)
    have hnone : b.x.whole = [] → done = none := fun h => (hdone (hwhole h)).2
    rw [List.foldl_cons, hstep]
    refine ⟨hmoves, fun c => (hparts c).trans (part_storePlace c), fun e a' q hm => ?_, fun e q he hbase' hnot h => ?_, fun c o hoff => ?_⟩
    · obtain heq | hm := List.mem_cons.1 hm
      · obtain ⟨rfl, rfl, rfl⟩ : e = d ∧ a' = a ∧ q = r := by simpa using heq
        exact hkeeps e q hd (fun hk => by rw [hbases]; exact hbase hk) hnew (placeHolds_storePlace_same hbase hnone)
      · exact hholds e a' q hm
    · rw [hdsts, List.mem_cons, not_or] at hnot
      exact hkeeps e q he (fun hk => by rw [hbases]; exact hbase' hk) hnot.2
        (h.storePlace hbase hbase' hnot.1 hd he hnone)
    · rw [hdsts] at hoff
      refine (hreads c o fun e he => hoff e (List.mem_cons_of_mem d he)).trans ?_
      exact read_storePlace hbase fun hc => hoff d List.mem_cons_self hc.symm

end Sys2Proof.Machine

/-! PROOFS. The writes of a transfer into memory (R146, R171, R190), and what the tick leaves of its writes where it reads nothing. -/

namespace Sys2Proof.Machine

/-! ## One write -/

theorem length_wordBytes (ws : List (Nat × Bool × Nat)) : (wordBytes ws).length = 4 * ws.length := by
  induction ws with
  | nil => rfl
  | cons w ws ih =>
    rw [wordBytes, List.flatMap_cons, ← wordBytes, List.length_append, ih, List.length_map, length_toBytes, List.length_cons]
    omega

theorem length_words_of_ready {m : Move} (h : m.ready = true) : m.words.length = m.src.length := by
  rw [← fill_of_ready (fun _ => (0, false, 0)) h, words_fill]
  simp [Move.fill]

theorem worse_eq_max (a b : Nat) : worse a b = max a b := by
  unfold worse
  split <;> omega

/-- What a tick with one more write to memory has come to: its post, its status; the rest but the notes and the whole lines as before. -/
def Wrote (b : Beat) (t : Tick) (d : Nat) (q : Option Xlat) (ws : List (Nat × Bool × Nat)) (f : Option Bool) (u : Tick) : Prop :=
  u.y.posts = t.y.posts ++ (writeX b.s b.vk d q (wordBytes ws) f).1 ∧ u.y.cores = t.y.cores ∧
  u.status = max t.status (writeX b.s b.vk d q (wordBytes ws) f).2 ∧ u.used = t.used ∧ u.trans = t.trans ∧ u.held = t.held ∧ u.moves = t.moves

theorem writeMem_wrote {b : Beat} {t : Tick} {d : Nat} {q : Option Xlat} {ws : List (Nat × Bool × Nat)}
    (hbad : badTables b.s b.vk d (4 * ws.length) = []) : ∃ f, Wrote b t d q ws f (writeMem b t d q ws) := by
  let f := (countDown t.whole (d / 64) ws.length (ws.any fun w => w.2.1)).2
  let r := writeX b.s b.vk d q (wordBytes ws) f
  let y := noteWindow b.s (noteHeld b.s t.y b.x.core b.x.issue d ((wordBytes ws).map RdByte.val)) b.vk (some b.x.core) b.x.issue r.1
  let z := noteDirty { y with posts := y.posts ++ r.1 } (if r.1 = [] then [] else q.toList.flatMap (dirtyX b.s b.vk))
  have hy : Noted t.y y := (noteHeld_noted ..).trans (noteWindow_noted ..)
  have hz : Noted { y with posts := y.posts ++ r.1 } z := noteDirty_noted ..
  have hwrite : (writeMem b t d q ws).y = z := by
    have hlen : (wordBytes ws).length = 4 * ws.length := length_wordBytes ws
    simp only [writeMem, hlen, hbad, List.filter_nil, List.foldl_nil]
    rfl
  have hreach : ∀ va, (t.reach va).used = t.used ∧ (t.reach va).trans = t.trans ∧ (t.reach va).held = t.held ∧
      (t.reach va).moves = t.moves := fun va => by
    unfold Tick.reach
    split <;> exact ⟨rfl, rfl, rfl, rfl⟩
  refine ⟨f, ?_, ?_, worse_eq_max .., hreach d⟩
  · obtain ⟨_, _, _, _, hy⟩ := hy
    obtain ⟨_, _, _, _, hz⟩ := hz
    rw [hwrite, hz]
    dsimp only
    rw [hy]
  · obtain ⟨_, _, _, _, hy⟩ := hy
    obtain ⟨_, _, _, _, hz⟩ := hz
    rw [hwrite, hz]
    dsimp only
    rw [hy]

/-! ## A move to memory -/

/-- The page of an address is host-shared. -/
def HostShared (s : State) (vk a : Nat) : Prop := ∃ q, pageAt s vk a = some q ∧ q.hostsh = true

theorem any_hostsh_iff (s : State) (vk a : Nat) : (pageAt s vk a).any Xlat.hostsh = true ↔ HostShared s vk a := by
  unfold HostShared
  cases pageAt s vk a <;> simp

section
variable {b : Beat} {t : Tick} {m : Move} {d : Nat}

/-- What lets a transfer write every move to memory that is read. -/
def MayWrite (b : Beat) : Prop := b.x.shadow.toMemory = true ∧ b.urgent = true ∧ b.stalls = false ∧ ∀ va, b.tables va = b.s

/-- To a page that the host does not share a move is written whole. -/
theorem writeMove_of_unshared (hb : MayWrite b) (htab : Tabled b t) (hheld : t.held = []) (hdst : m.dst = some d) (hready : m.ready = true)
    (hpage : ¬ HostShared b.s b.vk d) (hbad : badTables b.s b.vk d (4 * m.src.length) = []) :
    ∃ f, ∃ tr, Tabled b { t with trans := tr } ∧ Wrote b { t with trans := tr } d (pageAt b.s b.vk d) m.words f (writeMove b t m) := by
  obtain ⟨hmem, hurgent, hstalls, htables⟩ := hb
  obtain ⟨hq, tr, htr, htab⟩ := xlat_of_tabled htables htab d
  rw [← any_hostsh_iff, ← hq] at hpage
  rw [← length_words_of_ready hready] at hbad
  obtain ⟨f, hwrote⟩ := writeMem_wrote (t := (b.xlat t d).2) (q := (b.xlat t d).1) hbad
  have hwrite : writeMove b t m = writeMem b (b.xlat t d).2 d (b.xlat t d).1 m.words := by
    have hfree : m.span.any t.held.contains = false := by simp [hheld]
    simp [writeMove, hdst, hmem, hready, hfree, Beat.stalled, hstalls, Beat.moves, hurgent, hpage]
  rw [htr, hq] at hwrote
  rw [hwrite, htr, hq]
  exact ⟨f, tr, htab, hwrote⟩

/-- To a page that it shares the first container of the tick is written (R190). -/
theorem writeMove_of_shared {w : Nat × Option (Nat × Bool × Nat)} {ws : List (Nat × Option (Nat × Bool × Nat))} (hb : MayWrite b)
    (htab : Tabled b t) (hheld : t.held = []) (hfirst : t.hostsh = false) (hready : (⟨some d, w :: ws⟩ : Move).ready = true)
    (hpage : HostShared b.s b.vk d) (hbad : badTables b.s b.vk d 4 = []) :
    let u := writeMove b t ⟨some d, w :: ws⟩
    (∃ f, u.y.posts = t.y.posts ++ (writeX b.s b.vk d (pageAt b.s b.vk d) (wordBytes (Move.words ⟨some d, [w]⟩)) f).1) ∧ u.used = t.used ∧
      Tabled b u ∧ u.hostsh = true ∧ u.moves = if ws = [] then t.moves else ⟨some (d + 4), ws⟩ :: t.moves := by
  obtain ⟨hmem, hurgent, hstalls, htables⟩ := hb
  obtain ⟨hq, tr, htr, htab⟩ := xlat_of_tabled htables htab d
  rw [← any_hostsh_iff, ← hq] at hpage
  have hfree : (⟨some d, w :: ws⟩ : Move).span.any t.held.contains = false := by simp [hheld]
  obtain ⟨r, hr⟩ := Option.isSome_iff_exists.1 ((ready_iff _).1 hready w List.mem_cons_self)
  have htake : (⟨some d, w :: ws⟩ : Move).words.take 1 = Move.words ⟨some d, [w]⟩ := by simp [Move.words, hr]
  obtain ⟨f, hposts, -, -, hused, htrans, -, hmoves⟩ := writeMem_wrote (b := b) (t := (b.xlat t d).2) (d := d) (q := (b.xlat t d).1)
    (ws := Move.words ⟨some d, [w]⟩) (by simpa [Move.words, hr] using hbad)
  let v := writeMem b (b.xlat t d).2 d (b.xlat t d).1 (Move.words ⟨some d, [w]⟩)
  have hturn : (b.xlat t d).2.hostsh = false := by rw [htr]; exact hfirst
  have hwrite : writeMove b t ⟨some d, w :: ws⟩ =
      if ws = [] then { v with hostsh := true } else { v.keep ⟨some (d + 4), ws⟩ with hostsh := true } := by
    simp only [writeMove, hmem, if_true, hready, hfree, Bool.and_false, Bool.not_false, Bool.and_true, Beat.stalled, hstalls, Bool.false_and,
      Beat.moves, hurgent, Bool.true_or, hpage, Bool.not_true, hturn, Bool.or_self, Bool.false_eq_true, if_false, htake, List.drop_succ_cons,
      List.drop_zero]
    cases ws <;> rfl
  obtain ⟨hy', hused', htrans', hmoves'⟩ : (b.xlat t d).2.y = t.y ∧ (b.xlat t d).2.used = t.used ∧ (b.xlat t d).2.trans = tr ∧
      (b.xlat t d).2.moves = t.moves := by
    rw [htr]
    exact ⟨rfl, rfl, rfl, rfl⟩
  have hput : v.y.posts = t.y.posts ++ (writeX b.s b.vk d (pageAt b.s b.vk d) (wordBytes (Move.words ⟨some d, [w]⟩)) f).1 := by
    rw [← hy', ← hq]
    exact hposts
  have htabled : Tabled b v := fun p hp => htab p (htrans.trans htrans' ▸ hp)
  rw [hwrite]
  by_cases hws : ws = []
  · rw [if_pos hws, if_pos hws]
    exact ⟨⟨f, hput⟩, hused.trans hused', htabled, rfl, hmoves.trans hmoves'⟩
  · rw [if_neg hws, if_neg hws]
    exact ⟨⟨f, hput⟩, hused.trans hused', htabled, rfl, congrArg (List.cons _) (hmoves.trans hmoves')⟩

/-- After it the others wait. -/
theorem writeMove_of_later (hb : MayWrite b) (htab : Tabled b t) (hlater : t.hostsh = true) (hdst : m.dst = some d)
    (hpage : HostShared b.s b.vk d) :
    let u := writeMove b t m
    u.y = t.y ∧ u.used = t.used ∧ Tabled b u ∧ u.hostsh = true ∧ u.moves = m :: t.moves := by
  obtain ⟨hmem, hurgent, hstalls, htables⟩ := hb
  obtain ⟨hq, tr, htr, htab⟩ := xlat_of_tabled htables htab d
  rw [← any_hostsh_iff, ← hq] at hpage
  have hturn : (b.xlat t d).2.hostsh = true := by rw [htr]; exact hlater
  have hwrite : writeMove b t m = { (b.xlat t d).2.keep m with hostsh := true } := by
    simp only [writeMove, hdst, hmem, if_true, hpage, hturn, Bool.or_true]
  rw [hwrite, htr]
  exact ⟨rfl, rfl, htab, rfl, rfl⟩

end

/-! ## The writes of a tick to memory -/

section
variable {b : Beat}

/-- The posts and the status of a move to memory, given whether a whole line is done. -/
def putMove (b : Beat) (m : Move) (f : Option Bool) : List Post × Nat :=
  writeX b.s b.vk (m.dst.getD 0) (pageAt b.s b.vk (m.dst.getD 0)) (wordBytes m.words) f

/-- Moves to pages that the host does not share are all written in a tick. -/
theorem writeMoves_unshared (hb : MayWrite b) {ms : List Move} {t : Tick} (htab : Tabled b t) (hheld : t.held = [])
    (hms : ∀ m ∈ ms, m.ready = true ∧ ∃ d, m.dst = some d ∧ ¬ HostShared b.s b.vk d ∧ badTables b.s b.vk d (4 * m.src.length) = []) :
    let u := ms.foldl (writeMove b) t
    u.moves = t.moves ∧ u.used = t.used ∧ u.y.cores = t.y.cores ∧ ∃ fs : List (Option Bool), fs.length = ms.length ∧
      u.y.posts = t.y.posts ++ (ms.zip fs).flatMap (fun p => (putMove b p.1 p.2).1) ∧
      u.status = (ms.zip fs).foldl (fun st p => max st (putMove b p.1 p.2).2) t.status := by
  induction ms generalizing t with
  | nil => exact ⟨rfl, rfl, rfl, [], rfl, by simp, rfl⟩
  | cons m ms ih =>
    obtain ⟨hready, d, hdst, hpage, hbad⟩ := hms m List.mem_cons_self
    obtain ⟨f, tr, htabled, hposts, hcores, hstatus, hused, htrans, hheld', hmoves⟩ :=
      writeMove_of_unshared hb htab hheld hdst hready hpage hbad
    obtain ⟨hmoves', hused', hcores', fs, hlen, hposts', hstatus'⟩ := ih (t := writeMove b t m) (fun p hp => htabled p (htrans ▸ hp))
      (hheld'.trans hheld) fun n hn => hms n (List.mem_cons_of_mem m hn)
    have hput : putMove b m f = writeX b.s b.vk d (pageAt b.s b.vk d) (wordBytes m.words) f := by rw [putMove, hdst]; rfl
    refine ⟨hmoves'.trans hmoves, hused'.trans hused, hcores'.trans hcores, f :: fs, by simp [hlen], ?_, ?_⟩
    · rw [List.foldl_cons, hposts', hposts, List.zip_cons_cons, List.flatMap_cons, hput, List.append_assoc]
    · rw [List.foldl_cons, hstatus', hstatus, List.zip_cons_cons, List.foldl_cons, hput]

/-- After the first container of a tick the other moves to shared pages wait. -/
theorem writeMoves_later (hb : MayWrite b) {ms : List Move} {t : Tick} (htab : Tabled b t) (hlater : t.hostsh = true)
    (hms : ∀ m ∈ ms, ∃ d, m.dst = some d ∧ HostShared b.s b.vk d) :
    let u := ms.foldl (writeMove b) t
    u.y = t.y ∧ u.used = t.used ∧ u.moves = ms.reverse ++ t.moves := by
  induction ms generalizing t with
  | nil => exact ⟨rfl, rfl, rfl⟩
  | cons m ms ih =>
    obtain ⟨d, hdst, hpage⟩ := hms m List.mem_cons_self
    obtain ⟨hy, hused, htabled, hturn, hmoves⟩ := writeMove_of_later hb htab hlater hdst hpage
    obtain ⟨hy', hused', hmoves'⟩ := ih htabled hturn fun n hn => hms n (List.mem_cons_of_mem m hn)
    refine ⟨hy'.trans hy, hused'.trans hused, ?_⟩
    rw [List.foldl_cons, hmoves', hmoves]
    simp

end

/-! ## Lines that a walk meets -/

theorem placeEvents_eq_nil_iff (s : State) (vk : Nat) (ps : List (Nat × Nat × Nat)) :
    placeEvents s vk ps = [] ↔ ∀ p ∈ ps, lineEvent s vk p.1 p.2.1 p.2.2 = none := by
  have hkeep : ∀ (ps : List (Nat × Nat × Nat)) (l : List LineEvent), ps.foldl (fun l p => match lineEvent s vk p.1 p.2.1 p.2.2 with
      | some e => if l.contains e then l else l ++ [e]
      | none => l) l = [] ↔ l = [] ∧ ∀ p ∈ ps, lineEvent s vk p.1 p.2.1 p.2.2 = none := by
    intro ps
    induction ps with
    | nil => simp
    | cons p ps ih =>
      intro l
      rw [List.foldl_cons, ih, List.forall_mem_cons]
      cases lineEvent s vk p.1 p.2.1 p.2.2 with
      | none => simp
      | some e =>
        dsimp only
        split
        case isTrue hin =>
          have hne : l ≠ [] := by
            rintro rfl
            exact absurd hin (by simp)
          simp [hne]
        case isFalse => simp
  exact (hkeep ps []).trans (and_iff_right rfl)

theorem badTables_sub {s : State} {vk d n : Nat} (hn : 4 ≤ n) (h : badTables s vk d n = []) : badTables s vk d 4 = [] := by
  rw [badTables, placeEvents_eq_nil_iff] at h ⊢
  intro p hp
  obtain ⟨i, hi, hp⟩ := List.mem_flatMap.1 hp
  refine h p (List.mem_flatMap.2 ⟨i, ?_, ?_⟩)
  · simp only [List.mem_range, ceilDiv] at hi ⊢
    omega
  · dsimp only at hp ⊢
    generalize (if i = 0 then d else (d / 65536 + i) * 65536) = a at hp ⊢
    split at hp
    · exact nomatch hp
    case isFalse hin =>
      rw [if_neg (by omega)]
      exact hp

end Sys2Proof.Machine

/-! PROOFS. What a transfer and the machine come to in a tick in which its units are written (R76, R146, R150, R171, R190), and in one in
which an earlier entry of its channel holds its writes up. -/

namespace Sys2Proof.Machine

/-! ## The marks of the lines that were used -/

theorem coreOf_markUsed (y : Sys) (g : Nat) (used : List (Nat × Nat)) (c : Nat) :
    ∃ u, coreOf (markUsed y g used) c = { coreOf y c with xused := u } := by
  refine List.foldlRecOn (motive := fun z : Sys => ∃ u, coreOf z c = { coreOf y c with xused := u }) used _ ⟨(coreOf y c).xused, rfl⟩
    fun z ⟨u, hu⟩ p _ => ?_
  let v : Core := { coreOf z p.1 with xused := (g, setBit (if (coreOf z p.1).xused.1 = g then (coreOf z p.1).xused.2 else 0) (p.2 % 64)) }
  have hid : v.id = p.1 := coreOf_id z p.1
  show ∃ u, coreOf (setCore z v) c = _
  rw [coreOf_setCore, hid]
  by_cases hc : c = p.1
  · refine ⟨v.xused, ?_⟩
    rw [if_pos hc]
    show { coreOf z p.1 with xused := v.xused } = _
    rw [← hc, hu]
  · exact ⟨u, by rw [if_neg hc, hu]⟩

section
variable {busy : List (Nat × Nat)} {s : State} {x : Xfer}

/-- Where nothing is left to be read the machine is that of the writes, with marks and notes. -/
theorem tickNoted_of_ready (h : ∀ m ∈ (tickWritten busy s x).moves, m.ready = true) :
    Noted (markUsed (tickWritten busy s x).y s.gtc (tickWritten busy s x).used) (tickNoted busy s x) := by
  unfold tickNoted
  rw [tickRead_of_ready _ _ _ h]
  dsimp only
  rw [List.append_nil]
  exact .foldl (fun _ _ => noteXlat_noted ..) _ _

theorem coreOf_tickNoted_of_ready (h : ∀ m ∈ (tickWritten busy s x).moves, m.ready = true) (c : Nat) :
    ∃ u, coreOf (tickNoted busy s x) c = { coreOf (tickWritten busy s x).y c with xused := u } := by
  obtain ⟨_, _, _, _, hnoted⟩ := tickNoted_of_ready h
  rw [hnoted]
  exact coreOf_markUsed ..

theorem tickNoted_of_unused (h : ∀ m ∈ (tickWritten busy s x).moves, m.ready = true) (hused : (tickWritten busy s x).used = []) :
    Noted (tickWritten busy s x).y (tickNoted busy s x) := by
  have hnoted := tickNoted_of_ready h
  rwa [hused] at hnoted

theorem moves_tickXfer_of_ready (hstage : x.stage = 1) (h : ∀ m ∈ (tickWritten busy s x).moves, m.ready = true) :
    (tickXfer busy s x).moves = (tickWritten busy s x).moves.reverse := by
  rw [moves_tickXfer _ _ _ hstage, tickRead_of_ready _ _ _ h]

/-- Where all is written the transfer is, with the status of its writes. -/
theorem tickXfer_of_written (hstage : x.stage = 1) (h : (tickWritten busy s x).moves = []) : (tickXfer busy s x).stage = 2 ∧
    (tickXfer busy s x).moves = [] ∧ (tickXfer busy s x).status = (tickWritten busy s x).status := by
  have hready : ∀ m ∈ (tickWritten busy s x).moves, m.ready = true := fun m hm => nomatch h ▸ hm
  have hread := tickRead_of_ready busy s x hready
  have hnil : (tickRead busy s x).moves = [] := by rw [hread]; exact h
  refine ⟨stage_tickXfer_of_nil _ _ _ hstage hnil, ?_, ?_⟩
  · rw [moves_tickXfer_of_ready hstage hready, h]
    rfl
  · rw [tickXfer_of_moving _ _ _ hstage, status_closed]
    show worse (tickRead busy s x).status (if filled (readsMemory x) (tickRead busy s x).moves.reverse then 5 else 0) = _
    have hfilled : filled (readsMemory x) (tickRead busy s x).moves.reverse = false := by simp [hnil, filled]
    rw [hfilled, hread]
    rfl

/-! ## Behind an earlier entry of the channel -/

theorem tickWritten_of_busy (h : channelBusy s.sys x 2 = true) : tickWritten busy s x = tickStart s x x.moves.reverse := by
  simp [tickWritten, h]

theorem dsts_tickXfer_of_busy (hstage : x.stage = 1) (h : channelBusy s.sys x 2 = true) :
    (tickXfer busy s x).moves.map Move.dst = x.moves.map Move.dst := by
  rw [moves_tickXfer _ _ _ hstage, List.map_reverse, tickRead, tickWritten_of_busy h, dsts_readMoves]
  simp [tickStart]

/-- No scratchpad byte changes. -/
theorem sbyte_moveUnits_of_busy (h : channelBusy s.sys x 2 = true) (c o : Nat) :
    (coreOf (moveUnits busy s x) c).sbyte o = (coreOf s.sys c).sbyte o := by
  have hread := tickNoted_readOnly busy s x
  rw [tickWritten_of_busy h] at hread
  obtain ⟨hpool, hpart⟩ := hread.2 c
  rw [coreOf_moveUnits, Core.sbyte, Core.sbyte, Core.partN, hpool, hpart]
  rfl

/-! ## After all earlier ones -/

theorem tickWritten_of_free (hstage : x.stage = 1) (h : channelBusy s.sys x 2 = false) :
    tickWritten busy s x = x.moves.foldl (writeMove (tickBeat busy s x)) (tickStart s x []) := by
  simp [tickWritten, hstage, h]

/-- Into pools: every place holds its word, every other byte what it held. -/
theorem written_pools (hstage : x.stage = 1) (hchan : channelBusy s.sys x 2 = false) (hurgent : x.urge ≤ s.gtc)
    (hmem : x.shadow.toMemory = false) (hnodup : (x.moves.filterMap Move.dst).Nodup) (hidle : BanksIdle busy (x.moves.filterMap Move.dst))
    (hmoves : ∀ m ∈ x.moves, PlaceMove x s.sys m) : (tickXfer busy s x).stage = 2 ∧ (tickXfer busy s x).moves = [] ∧
      (∀ c, (coreOf (moveUnits busy s x) c).part = (coreOf s.sys c).part) ∧
      (∀ d a r, (⟨some d, [(a, some r)]⟩ : Move) ∈ x.moves → PlaceHolds x (moveUnits busy s x) d r) ∧
      ∀ c o, OffPlaces (x.moves.filterMap Move.dst) c o →
        Mem.read (coreOf (moveUnits busy s x) c).pool o = Mem.read (coreOf s.sys c).pool o := by
  obtain ⟨hnil, hparts, hholds, -, hreads⟩ := writeMoves_places (b := tickBeat busy s x) (t := tickStart s x []) hmem
    (decide_eq_true hurgent) hidle hmoves hnodup (fun d hd => hd) (fun u hu => nomatch hu) rfl fun h => h
  rw [← tickWritten_of_free hstage hchan] at hnil hparts hholds hreads
  obtain ⟨htwo, hleft, -⟩ := tickXfer_of_written hstage hnil
  have hcores := coreOf_tickNoted_of_ready (busy := busy) (s := s) (x := x) fun m hm => nomatch hnil ▸ hm
  refine ⟨htwo, hleft, fun c => ?_, fun d a r hm => ?_, fun c o hoff => ?_⟩
  · obtain ⟨u, hu⟩ := hcores c
    rw [coreOf_moveUnits, hu]
    exact hparts c
  · have hold := hholds d a r hm
    obtain ⟨u, hu⟩ := hcores (placeCore d)
    unfold PlaceHolds at hold ⊢
    rw [coreOf_moveUnits, hu]
    exact hold
  · obtain ⟨u, hu⟩ := hcores c
    rw [coreOf_moveUnits, hu]
    exact hreads c o hoff

theorem mayWrite_tick (hmem : x.shadow.toMemory = true) (hurgent : x.urge ≤ s.gtc) (h : Plain s x) : MayWrite (tickBeat busy s x) :=
  ⟨hmem, decide_eq_true hurgent, h.2.2.1, tables_of_plain h⟩

/-- Into memory that the host does not share: the posts and the status of every move. -/
theorem written_memory (hstage : x.stage = 1) (hchan : channelBusy s.sys x 2 = false) (hurgent : x.urge ≤ s.gtc)
    (hmem : x.shadow.toMemory = true) (h : Plain s x) (hmoves : ∀ m ∈ x.moves, m.ready = true ∧ ∃ d, m.dst = some d ∧
      ¬ HostShared s (vdKeyOf s.sys x.core) d ∧ badTables s (vdKeyOf s.sys x.core) d (4 * m.src.length) = []) :
    (tickXfer busy s x).stage = 2 ∧ (tickXfer busy s x).moves = [] ∧ (moveUnits busy s x).cores = s.sys.cores ∧
      ∃ fs : List (Option Bool), fs.length = x.moves.length ∧
        (moveUnits busy s x).posts = s.sys.posts ++ (x.moves.zip fs).flatMap (fun p => (putMove (tickBeat busy s x) p.1 p.2).1) ∧
        (tickXfer busy s x).status = (x.moves.zip fs).foldl (fun st p => max st (putMove (tickBeat busy s x) p.1 p.2).2) x.status := by
  obtain ⟨hnil, hused, hcores, fs, hlen, hposts, hstatus⟩ := writeMoves_unshared (mayWrite_tick (busy := busy) hmem hurgent h)
    (tabled_tickStart [] h) rfl hmoves
  rw [← tickWritten_of_free hstage hchan] at hnil hused hcores hposts hstatus
  obtain ⟨htwo, hleft, hend⟩ := tickXfer_of_written hstage hnil
  obtain ⟨_, _, _, _, hnoted⟩ := tickNoted_of_unused (busy := busy) (s := s) (x := x) (fun m hm => nomatch hnil ▸ hm) hused
  refine ⟨htwo, hleft, ?_, fs, hlen, ?_, hend.trans hstatus⟩
  · rw [moveUnits_eq, hnoted]
    exact hcores
  · rw [moveUnits_eq, hnoted]
    exact hposts

/-- Into memory that it shares: the first container alone. -/
theorem written_container {d : Nat} {w : Nat × Option (Nat × Bool × Nat)} {ws : List (Nat × Option (Nat × Bool × Nat))} {rest : List Move}
    (hstage : x.stage = 1) (hchan : channelBusy s.sys x 2 = false) (hurgent : x.urge ≤ s.gtc)
    (hmem : x.shadow.toMemory = true) (h : Plain s x) (hmoves : x.moves = ⟨some d, w :: ws⟩ :: rest) (hready : ∀ m ∈ x.moves, m.ready = true)
    (hshared : ∀ m ∈ x.moves, ∃ d, m.dst = some d ∧ HostShared s (vdKeyOf s.sys x.core) d)
    (hbad : badTables s (vdKeyOf s.sys x.core) d 4 = []) :
    (∃ f, (moveUnits busy s x).posts = s.sys.posts ++ (putMove (tickBeat busy s x) ⟨some d, [w]⟩ f).1) ∧
      (tickXfer busy s x).moves = if ws = [] then rest else ⟨some (d + 4), ws⟩ :: rest := by
  have hb := mayWrite_tick (busy := busy) hmem hurgent h
  have hfirst : (⟨some d, w :: ws⟩ : Move) ∈ x.moves := hmoves ▸ List.mem_cons_self
  obtain ⟨d', hd', hpage⟩ := hshared _ hfirst
  obtain rfl : d = d' := Option.some.inj hd'
  obtain ⟨⟨f, hposts⟩, hused, htab, hturn, hleft⟩ := writeMove_of_shared (t := tickStart s x []) hb (tabled_tickStart [] h) rfl rfl
    (hready _ hfirst) hpage hbad
  obtain ⟨hy, hused', hleft'⟩ := writeMoves_later hb htab hturn (ms := rest) fun m hm => hshared m (hmoves ▸ List.mem_cons_of_mem _ hm)
  have hwritten : tickWritten busy s x =
      rest.foldl (writeMove (tickBeat busy s x)) (writeMove (tickBeat busy s x) (tickStart s x []) ⟨some d, w :: ws⟩) := by
    rw [tickWritten_of_free hstage hchan, hmoves]
    rfl
  rw [← hwritten] at hy hused' hleft'
  have hall : (tickWritten busy s x).moves.reverse = if ws = [] then rest else ⟨some (d + 4), ws⟩ :: rest := by
    rw [hleft', hleft]
    split <;> simp [tickStart]
  have hleftReady : ∀ m ∈ (tickWritten busy s x).moves, m.ready = true := by
    intro m hm
    have hrest : ∀ m ∈ rest, m.ready = true := fun m hm => hready m (hmoves ▸ List.mem_cons_of_mem _ hm)
    have hm : m ∈ (tickWritten busy s x).moves.reverse := List.mem_reverse.2 hm
    rw [hall] at hm
    split at hm
    · exact hrest m hm
    · obtain rfl | hm := List.mem_cons.1 hm
      · exact (ready_iff _).2 fun v hv => (ready_iff _).1 (hready _ hfirst) v (List.mem_cons_of_mem w hv)
      · exact hrest m hm
  refine ⟨⟨f, ?_⟩, by rw [moves_tickXfer_of_ready hstage hleftReady, hall]⟩
  obtain ⟨_, _, _, _, hnoted⟩ := tickNoted_of_unused hleftReady (hused'.trans hused)
  rw [moveUnits_eq, hnoted]
  show (tickWritten busy s x).y.posts = _
  rw [hy]
  exact hposts

end

end Sys2Proof.Machine

/-! PROOFS. The beginning of a transfer's tick, the tag of an xtag, and the two stages of an invalidation (R147, R150, R171, R174, R175,
R188). -/

namespace Sys2Proof.Machine

/-! ## Tags (R149, R150, R173) -/

theorem slotTag_setTag (c : Core) (k v j : Nat) : (c.setTag k v).slotTag j = if j = k then v else c.slotTag j := by
  unfold Core.slotTag Core.setTag
  by_cases hv : v = 0
  · simp only [hv, if_true, List.find?_filter]
    by_cases hj : j = k
    · rw [if_pos hj, List.find?_eq_none.2 fun p _ => by simp [hj]]
      rfl
    · have hsame : (fun p : Nat × Nat => decide ((p.1 != k) = true ∧ (p.1 == j) = true)) = fun p => p.1 == j := by
        funext p
        rw [Bool.eq_iff_iff]
        simp only [bne_iff_ne, beq_iff_eq, decide_eq_true_eq]
        omega
      rw [if_neg hj, hsame]
  · simp only [hv, if_false]
    have hget : ∀ l : List (Nat × Nat), l.find? (fun p => p.1 == j) = getBy Prod.fst j l := fun _ => rfl
    rw [hget, hget]
    by_cases hj : j = k
    · rw [if_pos hj, hj, getBy_putBy_same Prod.fst (k, v)]
      rfl
    · rw [if_neg hj, getBy_putBy_other _ _ _ _ hj]

/-- The core with one tag of a transfer set. -/
def tagCore (x : Xfer) (k : Nat) (c : Core) : Core :=
  if x.kind = 6 then { c with ringTags := c.ringTags.setIfInBounds k (BitVec.ofNat 16 x.shadow.tag) } else c.setTag k x.shadow.tag

/-- A transfer sets a tag. -/
def setOneTag (x : Xfer) (y : Sys) (p : Nat × Nat) : Sys := setCore y (tagCore x p.2 (coreOf y p.1))

/-- A tag of a transfer stands. -/
def TagStands (x : Xfer) (y : Sys) (p : Nat × Nat) : Prop := (x.kind ≠ 6 → (coreOf y p.1).slotTag p.2 = x.shadow.tag) ∧
  (x.kind = 6 → p.2 < 8 → (coreOf y p.1).ringTags[p.2]? = some (BitVec.ofNat 16 x.shadow.tag))

theorem coreOf_setOneTag (x : Xfer) (y : Sys) (q : Nat × Nat) (c : Nat) :
    coreOf (setOneTag x y q) c = if c = q.1 then tagCore x q.2 (coreOf y c) else coreOf y c := by
  have hid : (tagCore x q.2 (coreOf y q.1)).id = q.1 := by
    unfold tagCore
    split <;> exact coreOf_id y q.1
  rw [setOneTag, coreOf_setCore, hid]
  split
  case isTrue h => rw [h]
  case isFalse => rfl

/-- It stands once it is set, and stays while the transfer sets others. -/
theorem tagStands_setOneTag {x : Xfer} {y : Sys} {p : Nat × Nat} (q : Nat × Nat) (h : TagStands x y p ∨ p = q) :
    TagStands x (setOneTag x y q) p := by
  unfold TagStands
  rw [coreOf_setOneTag]
  by_cases hcore : p.1 = q.1
  case neg =>
    rw [if_neg hcore]
    obtain h | rfl := h
    · exact h
    · exact absurd rfl hcore
  case pos =>
    rw [if_pos hcore, tagCore]
    refine ⟨fun hk => ?_, fun hk h8 => ?_⟩
    · rw [if_neg hk, slotTag_setTag]
      split
      · rfl
      case isFalse hslot =>
        obtain h | rfl := h
        · exact h.1 hk
        · exact absurd rfl hslot
    · rw [if_pos hk]
      dsimp only
      by_cases hslot : q.2 = p.2
      · rw [hslot]
        simp [h8]
      · obtain h | rfl := h
        · rw [Vector.getElem?_setIfInBounds, if_neg hslot]
          exact h.2 hk h8
        · exact absurd rfl hslot

theorem tagStands_foldl_setOneTag {x : Xfer} {p : Nat × Nat} (ps : List (Nat × Nat)) (y : Sys) (h : TagStands x y p ∨ p ∈ ps) :
    TagStands x (ps.foldl (setOneTag x) y) p := by
  induction ps generalizing y with
  | nil =>
    obtain h | h := h
    · exact h
    · exact nomatch h
  | cons q ps ih =>
    apply ih
    obtain h | h := h
    · exact .inl (tagStands_setOneTag q (.inl h))
    · obtain rfl | h := List.mem_cons.1 h
      · exact .inl (tagStands_setOneTag p (.inr rfl))
      · exact .inr h

/-! ## The beginning of a tick -/

/-- All that a transfer writes into the core of a tag is written. -/
def TagDue (x : Xfer) (p : Nat × Nat) : Prop := x.stage ≠ 0 ∧ ∀ m ∈ x.moves, ∀ d, m.dst = some d → placeCore d ≠ p.1

theorem tagStands_deliverTags (y : Sys) {x : Xfer} {p : Nat × Nat} (hp : p ∈ x.tags) (h : TagDue x p) : TagStands x (deliverTags y x).1 p := by
  obtain ⟨hstage, hmoves⟩ := h
  have hunder : (decide (x.stage = 0) || x.moves.any fun m => m.dst.any fun d => placeCore d == p.1) = false := by
    simp only [Bool.or_eq_false_iff, decide_eq_false_iff_not, List.any_eq_false, Bool.not_eq_true, Option.any_eq_false, beq_eq_false_iff_ne]
    exact ⟨hstage, hmoves⟩
  refine tagStands_foldl_setOneTag (x.tags.filter fun p => !(decide (x.stage = 0) || x.moves.any fun m => m.dst.any fun d => placeCore d == p.1)) y
    (.inr (List.mem_filter.2 ⟨hp, by rw [hunder]; rfl⟩))

theorem deliverTags_of_nil (y : Sys) {x : Xfer} (h : x.tags = []) : deliverTags y x = (y, x) := by
  obtain ⟨⟩ := x
  obtain rfl := h
  rfl

/-- Leaving its channel or going on, a transfer leaves the tags. -/
theorem TagStands.of_tags {x : Xfer} {y z : Sys} {p : Nat × Nat} (hcore : (coreOf z p.1).tags = (coreOf y p.1).tags ∧
    (coreOf z p.1).ringTags = (coreOf y p.1).ringTags) (h : TagStands x y p) : TagStands x z p := by
  unfold TagStands Core.slotTag at *
  rwa [hcore.1, hcore.2]

theorem tags_leaveChannel (y : Sys) (x : Xfer) (c : Nat) : (coreOf (leaveChannel y x) c).tags = (coreOf y c).tags ∧
    (coreOf (leaveChannel y x) c).ringTags = (coreOf y c).ringTags := by
  unfold leaveChannel
  dsimp only
  split
  · exact ⟨rfl, rfl⟩
  · rw [coreOf_setCore]
    split
    case isTrue hc =>
      rw [hc]
      simp only [Core.setChan, coreOf_id]
      exact ⟨rfl, rfl⟩
    case isFalse => exact ⟨rfl, rfl⟩

theorem tagStands_settleXfer (s : State) {x : Xfer} {p : Nat × Nat} (hp : p ∈ x.tags) (h : TagDue x p) : TagStands x (settleXfer s x) p := by
  have hstands := tagStands_deliverTags s.sys hp h
  unfold settleXfer
  dsimp only
  split
  · exact hstands.of_tags (tags_leaveChannel ..)
  · split <;> exact hstands

/-! ## The end of a transfer (R171, R175) -/

/-- The machine without a transfer. -/
def withoutXfer (y : Sys) (xid : Nat) : Sys := { y with xfers := y.xfers.filter fun t => t.xid != xid }

theorem settleXfer_of_done (s : State) {x : Xfer} (htags : x.tags = []) (hstage : x.stage = 2) (hchan : channelBusy s.sys x 3 = false) :
    settleXfer s x = leaveChannel s.sys x := by
  simp [settleXfer, deliverTags_of_nil s.sys htags, hstage, hchan]

theorem leaveChannel_of_ok (y : Sys) {x : Xfer} (h : x.status = 0) : leaveChannel y x = withoutXfer y x.xid := by
  simp [leaveChannel, h, withoutXfer]

theorem xfers_leaveChannel (y : Sys) (x : Xfer) : (leaveChannel y x).xfers = (withoutXfer y x.xid).xfers := by
  unfold leaveChannel
  dsimp only
  split <;> rfl

theorem chanAt_setChan (c : Core) {ch : Nat} (h : ch < 8) (v : Chan) : (c.setChan ch v).chanAt ch = v := by
  simp [Core.chanAt, Core.setChan, h]

theorem errors_leaveChannel (y : Sys) {x : Xfer} (h : x.status ≠ 0) (hch : x.chan < 8) :
    ((coreOf (leaveChannel y x) x.core).chanAt x.chan).errors = recordError ((coreOf y x.core).chanAt x.chan).errors x.id x.status := by
  unfold leaveChannel
  dsimp only
  rw [if_neg h, coreOf_setCore, if_pos (by simp [Core.setChan]), chanAt_setChan _ hch]
  rfl

theorem recordError_of_room {l : List (Nat × Nat)} (id st : Nat) (h : ∀ r ∈ l, r.2 ≠ 15) (hlen : l.length < 16) :
    recordError l id st = l ++ [(id, st)] := by
  have hover : (l.any fun r => r.2 == 15) = false := by simpa using h
  simp [recordError, hover, hlen]

theorem recordError_of_overflow {l : List (Nat × Nat)} (id st : Nat) (h : ∃ r ∈ l, r.2 = 15) : recordError l id st = l := by
  have hover : (l.any fun r => r.2 == 15) = true := by simpa using h
  simp [recordError, hover]

/-! ## A transfer that goes on -/

theorem setXfer_of_unique {y : Sys} {x : Xfer} (h : y.xfers.map (fun t => if t.xid = x.xid then x else t) = y.xfers) : setXfer y x = y := by
  simp [setXfer, h]

theorem settleXfer_of_going (s : State) {x : Xfer} (htags : x.tags = []) (hgo : x.stage < 2 ∨ channelBusy s.sys x 3 = true)
    (hsame : setXfer s.sys x = s.sys) : settleXfer s x =
      { s.sys with sched := s.sys.sched ++
        [(s.gtc + 1, .transferDelivery x.core x.xid 1,
          { noMsg with party := (domOfCore s.sys x.core).indexOf x.core * 2 ^ 64 + x.xid })] ++
        if x.stage < 2 then [(s.gtc, .transferDelivery x.core x.xid 0, { noMsg with party := x.xid })] else [] } := by
  have hdone : (decide (x.stage = 2) && !channelBusy s.sys x 3) = false := by
    obtain h | h := hgo
    · simp [Nat.ne_of_lt h]
    · simp [h]
  simp only [settleXfer, deliverTags_of_nil s.sys htags, hdone, Bool.false_eq_true, if_false, hsame]
  by_cases hstage : x.stage < 2
  · simp [hstage, deliverAt, settleAt, schedule]
  · simp [hstage, settleAt, schedule]

/-! ## The events of an xtag and of an invalidation (R147, R174, R188) -/

section
variable {s : State} {core xid : Nat} {x : Xfer}

theorem exec_settle (h : xferOf s.sys xid = some x) (hstage : x.stage < 3) :
    exec (.transferDelivery core xid 1) s = .next { s with sys := settleXfer s x } := by
  rw [exec_transferDelivery core 1 h]
  simp [transferEvent, hstage]

theorem exec_deliverTag (h : xferOf s.sys xid = some x) {c b : Nat} (ha : spAddr s.sys x.core x.shadow.xdst.toNat = some (c, b)) :
    exec (.transferDelivery core xid 3) s = .next { s with
      sys := setCore (withoutXfer s.sys xid) ((coreOf s.sys c).setTag (b / 4096) x.shadow.tag) } := by
  rw [exec_transferDelivery core 3 h]
  simp [transferEvent, deliverTag, ha, withoutXfer, xid_of_xferOf h]

theorem exec_answerTag (h : xferOf s.sys xid = some x) {c b : Nat} (ha : spAddr s.sys x.core x.shadow.xdst.toNat = some (c, b)) :
    exec (.transferDelivery core xid 4) s = .next { s with
      sys := { s.sys with answers := s.sys.answers ++ [⟨x.id, s.gtc, (coreOf s.sys c).slotTag (b / 4096), 0, none⟩] } } := by
  rw [exec_transferDelivery core 4 h]
  simp [transferEvent, answerTag, ha]

/-- The invalidation looks again a tick later. -/
def xinvAgain (s : State) (x : Xfer) (xid : Nat) (y : Sys) : Sys :=
  schedule y (s.gtc + 1) (.xinvComplete x.core xid) { noMsg with party := xid }

/-- What the invalidation comes to in a tick. -/
def xinvStep (s : State) (x : Xfer) (xid : Nat) : Sys :=
  let vk := vdKeyOf s.sys x.core
  let a := x.shadow.xsrc.toNat
  let n := x.shadow.xcount0.toNat
  if x.stage = 0 then
    if channelBusy s.sys x 3 || !waitMet s.sys x.core true x.after then xinvAgain s x xid s.sys
    else xinvAgain s x xid (dropCached (setXfer s.sys { x with stage := 1 }) vk false a n)
  else if usesOld s vk false a n then xinvAgain s x xid s.sys
  else withoutXfer s.sys xid

theorem exec_xinvComplete (h : xferOf s.sys xid = some x) : exec (.xinvComplete core xid) s = .next { s with sys := xinvStep s x xid } := by
  show execXinvComplete core xid s = _
  unfold execXinvComplete
  exact lift_of_eq (by simp only [h]; rfl)

theorem xinvStep_of_clear (hzero : x.stage = 0) (hchan : channelBusy s.sys x 3 = false) (hwait : waitMet s.sys x.core true x.after = true) :
    xinvStep s x xid = xinvAgain s x xid (dropCached (setXfer s.sys { x with stage := 1 }) (vdKeyOf s.sys x.core) false
      x.shadow.xsrc.toNat x.shadow.xcount0.toNat) := by simp [xinvStep, hzero, hchan, hwait]

theorem xinvStep_of_held (hzero : x.stage = 0) (h : channelBusy s.sys x 3 = true ∨ waitMet s.sys x.core true x.after = false) :
    xinvStep s x xid = xinvAgain s x xid s.sys := by
  obtain h | h := h <;> simp [xinvStep, hzero, h]

theorem xinvStep_of_used (hone : x.stage ≠ 0)
    (h : usesOld s (vdKeyOf s.sys x.core) false x.shadow.xsrc.toNat x.shadow.xcount0.toNat = true) :
    xinvStep s x xid = xinvAgain s x xid s.sys := by simp [xinvStep, hone, h]

theorem xinvStep_of_unused (hone : x.stage ≠ 0)
    (h : usesOld s (vdKeyOf s.sys x.core) false x.shadow.xsrc.toNat x.shadow.xcount0.toNat = false) :
    xinvStep s x xid = withoutXfer s.sys xid := by simp [xinvStep, hone, h]

end

theorem mem_cached_dropCached (y : Sys) (vk : Nat) (st2 : Bool) (a n : Nat) (c : Cached) : c ∈ (dropCached y vk st2 a n).cached ↔
    c ∈ y.cached ∧ ¬ (c.vd = vk ∧ c.st2 = st2 ∧ (n = 0 ∨ (a / 65536 ≤ c.page ∧ c.page < a / 65536 + n))) := by
  rw [dropCached, List.mem_filter]
  refine and_congr_right fun _ => ?_
  rw [Bool.not_eq_true', ← Bool.not_eq_true]
  exact not_congr (by simp [and_assoc])

end Sys2Proof.Machine

/-! PROOFS. The statement about transfers and invalidations. -/

namespace Sys2Proof.Machine

/-- The words of a transfer are all read. -/
theorem ready_of_allRead {x : Xfer} (h : ∀ m ∈ x.moves, ∀ w ∈ m.src, w.2.isSome = true) : ∀ m ∈ x.moves, m.ready = true :=
  fun m hm => (ready_iff m).2 (h m hm)

/-- Settles O39, clause by clause: the frames of a tick's reads and writes give the machine, its stages the transfer. -/
theorem transfersAndInvalidations : Obligations.TransfersAndInvalidations := by
  unfold Obligations.TransfersAndInvalidations
  refine ⟨fun s core xid x hx hthree hunique => ?_, fun s core xid x hx => ?_⟩
  case refine_1 =>
    obtain rfl := xid_of_xferOf hx
    let busy := busyBanks s x.pools
    intro vk tagDue free off page bank idle unread allRead plain urgent moves
    have hgo : free → x.stage < 2 → moves { s with sys := moveUnits busy s x } (tickXfer busy s x) := fun hfree hstage =>
      moves_of_free core hx hstage ((free_iff ..).2 hfree)
    have hidle : ∀ ps, idle ps → BanksIdle busy ps := fun ps h => ⟨fun p hp => bankIdle_busyBanks _ (h.1 p hp), h.2⟩
    refine ⟨fun p hp hdue => ?_, fun htags htwo hchan => ?_, fun htags hstage => ?_, fun hno => ?_, fun hurgent hplain hone hmem => ?_,
      fun hurgent hplain hzero hkind hmem _ => ?_, fun hurgent hheld hone hmem hbanks hunread => ?_, fun hurgent hheld hzero hkind hbanks => ?_,
      fun hzero hkind hfree hread => ?_, fun hone hchan => ?_, fun hone hchan hurgent hdst hread => ⟨fun hmem hnodup hbanks hplaces => ?_,
      fun hmem hplain hbad => ?_⟩, fun c b ha => ?_⟩
    · exact ⟨_, exec_settle hx hthree, tagStands_settleXfer s hp hdue⟩
    · rw [exec_settle hx hthree, settleXfer_of_done s htags htwo hchan]
      refine ⟨fun hok => by rw [leaveChannel_of_ok _ hok]; rfl, fun hbad hch => ⟨_, rfl, xfers_leaveChannel .., ?_⟩⟩
      have herrors := errors_leaveChannel s.sys hbad hch
      exact ⟨fun hclean hroom => herrors.trans (recordError_of_room _ _ hclean hroom),
        fun hover => herrors.trans (recordError_of_overflow _ _ hover)⟩
    · rw [exec_settle hx hthree, settleXfer_of_going s htags hstage (setXfer_of_unique hunique)]
    · refine stays_of_not_free core hx fun hstage => Bool.eq_false_iff.2 fun hfree => ?_
      obtain hno | htwo := hno
      · exact hno ((free_iff ..).1 hfree)
      · omega
    · exact ⟨_, _, hgo hurgent.1 (by omega), fun m hm w hw => words_tickXfer_memory hone hmem hurgent.2 hplain hm hw⟩
    · have hleft : (tickLeft busy s x).moves = _ := moves_tickLeft hzero
        (readsAll_tick_memory hurgent.2 hplain (by simp [readsMemory, hmem, hkind])) (tabled_tickStart [] hplain) fun _ _ _ _ _ => trivial
      obtain ⟨hfail, hok⟩ := tickXfer_of_decrypt hzero hkind hleft
      refine ⟨_, _, hgo hurgent.1 (by omega), hfail, fun hr => ?_⟩
      obtain ⟨hostsh, heq⟩ := hok hr
      rw [heq]
      exact stage_closed_ne_zero _ Nat.one_ne_zero
    · have hnone : ∀ m ∈ x.moves, m.ready = false := fun m hm => by
        obtain ⟨w, hw, hnone⟩ := hunread m hm
        exact Bool.eq_false_iff.2 fun hready => by simpa [hnone] using (ready_iff m).1 hready w hw
      have hmoves := moves_tickXfer_pool (busy := busy) hone hmem hurgent.2 hheld (hidle _ hbanks) hnone
      refine ⟨_, _, hgo hurgent.1 (by omega), ?_, fun m hm w hw => ?_⟩
      · rw [hmoves, List.map_map]
        rfl
      · rw [hmoves] at hm
        obtain ⟨n, hn, rfl⟩ := List.mem_map.1 hm
        obtain ⟨⟨a, _ | r⟩, hv, rfl⟩ := List.mem_map.1 hw
        · exact ⟨_, rfl, .inr rfl⟩
        · exact ⟨r, rfl, .inl ⟨n, hn, hv⟩⟩
    · have hnot : x.kind ≠ 3 := by omega
      have hleft : (tickLeft busy s x).moves = _ := moves_tickLeft hzero
        (readsAll_tick_pool hurgent.2 hheld (by simp [readsMemory, hzero, hnot]) (hidle _ hbanks)) (fun u hu => nomatch hu)
        fun m hm w hw hnone => mem_unread hm hw hnone
      exact ⟨_, _, hgo hurgent.1 (by omega), tickXfer_of_indexed hzero hnot hleft⟩
    · obtain ⟨hfail, hok⟩ := tickXfer_of_source_read (busy := busy) (s := s) hzero hkind (ready_of_allRead hread)
      exact ⟨_, _, hgo hfree (by omega), hfail, hok⟩
    · by_cases hfree : free
      · exact ⟨_, _, hgo hfree (by omega), dsts_tickXfer_of_busy hone hchan, sbyte_moveUnits_of_busy hchan⟩
      · refine ⟨s, x, ⟨stays_of_not_free core hx fun _ => ?_, hx⟩, rfl, fun _ _ => rfl⟩
        exact Bool.eq_false_iff.2 fun h => hfree ((free_iff ..).1 h)
    · obtain ⟨htwo, hnil, hparts, hholds, hreads⟩ := written_pools hone hchan hurgent.2 hmem hnodup (hidle _ hbanks) fun m hm => by
        obtain ⟨d, a, r, rfl, hd, -, hbase⟩ := hplaces m hm
        exact ⟨d, a, r, rfl, hd, hbase⟩
      refine ⟨_, _, hgo hurgent.1 (by omega), htwo, hnil, fun d a r hm => ?_, fun c b hoff => hreads c b fun d hd => hoff d ?_⟩
      · obtain ⟨d', a', r', heq, -, hr, hbase⟩ := hplaces _ hm
        obtain ⟨rfl, rfl, rfl⟩ : d = d' ∧ a = a' ∧ r = r' := by simpa using heq
        exact (hholds d a r hm).values hr _ (congrArg BitVec.toNat (hparts _)) hbase
      · obtain ⟨m, hm, hmd⟩ := List.mem_filterMap.1 hd
        exact List.mem_map.2 ⟨m, hm, hmd⟩
    · intro put hostsh
      have hready := ready_of_allRead hread
      refine ⟨fun hunshared => ?_, fun d w ws rest hmoves hshared => ?_⟩
      · obtain ⟨htwo, hnil, hcores, fs, hlen, hposts, hstatus⟩ := written_memory (busy := busy) hone hchan hurgent.2 hmem hplain fun m hm => by
          obtain ⟨d, hd⟩ := Option.isSome_iff_exists.1 (hdst m hm)
          refine ⟨hready m hm, d, hd, fun hpage => hunshared m hm ?_, hbad m hm d hd⟩
          show HostShared s vk (m.dst.getD 0)
          rw [hd]
          exact hpage
        exact ⟨_, _, fs, hgo hurgent.1 (by omega), htwo, hnil, hlen, hcores, hposts, hstatus⟩
      · have hfirst : (⟨some d, w :: ws⟩ : Move) ∈ x.moves := hmoves ▸ List.mem_cons_self
        obtain ⟨⟨f, hposts⟩, hleft⟩ := written_container (busy := busy) hone hchan hurgent.2 hmem hplain hmoves hready (fun m hm => by
          obtain ⟨e, he⟩ := Option.isSome_iff_exists.1 (hdst m hm)
          have hpage : HostShared s vk (m.dst.getD 0) := hshared m hm
          rw [he] at hpage
          exact ⟨e, he, hpage⟩) (badTables_sub (by simp) (hbad _ hfirst d rfl))
        exact ⟨_, _, f, hgo hurgent.1 (by omega), hposts, hleft⟩
    · refine ⟨⟨_, exec_deliverTag hx ha, ?_, rfl⟩, exec_answerTag hx ha⟩
      have hput := coreOf_setCore_same (withoutXfer s.sys x.xid) ((coreOf s.sys c).setTag (b / 4096) x.shadow.tag)
      rw [show ((coreOf s.sys c).setTag (b / 4096) x.shadow.tag).id = c from coreOf_id s.sys c] at hput
      rw [hput, slotTag_setTag, if_pos rfl]
  case refine_2 =>
    obtain rfl := xid_of_xferOf hx
    intro vk wide
    rw [exec_xinvComplete hx]
    refine ⟨fun hzero hchan hwait => ?_, fun hzero hheld => ?_, fun hone hused => ?_, fun hone hfree => ?_⟩
    · rw [xinvStep_of_clear hzero hchan hwait]
      refine ⟨_, rfl, rfl, fun c => ?_⟩
      have hall : x.shadow.xcount0 = 0 ↔ x.shadow.xcount0.toNat = 0 := BitVec.toNat_inj (y := 0).symm
      rw [hall]
      exact mem_cached_dropCached ..
    · rw [xinvStep_of_held hzero hheld]
      rfl
    · rw [xinvStep_of_used hone hused]
      rfl
    · rw [xinvStep_of_unused hone hfree]
      rfl

end Sys2Proof.Machine

/-! PROOFS. The scalar operations of the front end (R111 to R113): what each writes, and the words that name them. -/

namespace Sys2Proof.Machine

/-! ## Values -/

theorem d64_b01 (p : Prop) [Decidable p] : d64 (b01 (decide p)) = if p then 1 else 0 := by
  by_cases h : p <;> simp [b01, d64, h]

theorem d64_b01_slt (x y : Dword) : d64 (b01 (x.slt y)) = if x.toInt < y.toInt then 1 else 0 := d64_b01 _

theorem d64_b01_ult (x y : Dword) : d64 (b01 (x.ult y)) = if x.toNat < y.toNat then 1 else 0 := d64_b01 _

/-- Shift amounts are bits [5:0] of the register. -/
theorem toNat_mod_64 (y : Dword) : y.toNat % 64 = (y &&& 63).toNat := by
  rw [BitVec.toNat_and]
  exact (Nat.and_two_pow_sub_one_eq_mod y.toNat 6).symm

/-- A choice by the signed order may take equal values either way. -/
theorem ite_slt {x y u v : Dword} (h : x = y → u = v) : (if x.slt y then u else v) = if x.toInt ≤ y.toInt then u else v := by
  simp only [BitVec.slt_eq_decide, decide_eq_true_eq]
  by_cases heq : x.toInt = y.toInt
  · rw [h (BitVec.eq_of_toInt_eq heq), ite_self, ite_self]
  · exact if_congr (by omega) rfl rfl

/-- The upper half of a 128-bit integer. -/
theorem extractLsb'_ofInt_high (z : Int) : (BitVec.ofInt 128 z).extractLsb' 64 64 = BitVec.ofInt 64 (z / (2 ^ 64 : Nat)) := by
  apply BitVec.eq_of_toNat_eq
  rw [BitVec.extractLsb'_toNat, BitVec.toNat_ofInt, BitVec.toNat_ofInt, Nat.shiftRight_eq_div_pow]
  omega

theorem mulhR_eq (x y : Dword) : mulhR x y = (x.signExtend 128 * y.signExtend 128).extractLsb' 64 64 := by
  rw [mulhR, BitVec.signExtend, BitVec.signExtend, ← BitVec.ofInt_mul, extractLsb'_ofInt_high]

theorem sdivR_eq (x y : Dword) :
    sdivR x y = if y = 0 then 0xFFFFFFFFFFFFFFFF else BitVec.ofInt 64 (x.toInt.tdiv y.toInt) := by
  refine if_congr Iff.rfl rfl (BitVec.eq_of_toInt_eq ?_)
  rw [BitVec.toInt_sdiv, BitVec.toInt_ofInt]

theorem sremR_eq (x y : Dword) : sremR x y = if y = 0 then x else BitVec.ofInt 64 (x.toInt.tmod y.toInt) := by
  rw [← BitVec.toInt_srem, BitVec.ofInt_toInt]
  rfl

theorem d64_clz (x : Dword) : d64 (clz 64 x.toNat) = if x = 0 then 64 else BitVec.ofNat 64 (63 - Nat.log2 x.toNat) := by
  have hzero : x.toNat = 0 ↔ x = 0 := BitVec.toNat_inj (y := 0)
  rw [clz_eq 64 _ x.isLt, d64, apply_ite (BitVec.ofNat 64)]
  exact if_congr hzero rfl rfl

theorem d64_popcount (x : Dword) :
    d64 (popcount 64 x.toNat) = BitVec.ofNat 64 ((List.range 64).countP fun i => x.getLsbD i) := by
  rw [popcount_eq]
  rfl

/-! ## Words -/

/-- A word other than zero that is the word of a well-formed instruction decodes to it. -/
theorem decodeNat_words {l : List (Nat × Instr)} {word : Nat → Nat}
    (h : ∀ p ∈ l, wf p.2 = true ∧ encode p.2 = word p.1 ∧ 0 < word p.1) : ∀ p ∈ l, decodeNat (word p.1) = .ok p.2 := by
  intro p hp
  obtain ⟨hwf, hword, hpos⟩ := h p hp
  rw [← hword]
  exact decodeNat_encode hwf (by omega)

/-! ## The statements -/

/-- An instruction whose meaning is a scalar operation writes its value once its sources are there. -/
theorem exec_alu {i : Instr} {s : State} {d : Nat} {ns : List Nat} {f : RoleSt → Dword} {v : Dword} (h : s.readable ns)
    (m : State → Result) (hi : exec i s = m s) (hm : m = alu d ns f) (hv : f (me s.sys) = v) :
    exec i s = .next (s.wrote d v) := by
  rw [hi, hm, alu_next f h, hv]

/-- Settles O1: each operation by the value that it computes, each word by its encoding. -/
theorem registerOperations : Obligations.RegisterOperations := by
  unfold Obligations.RegisterOperations
  intro s d a b h x y
  have ha : s.readable [a] := fun n hn => h n (List.mem_cons.2 (.inl (List.mem_singleton.1 hn)))
  refine ⟨exec_alu h (execAdd d a b) rfl rfl rfl, exec_alu h (execSub d a b) rfl rfl rfl, exec_alu h (execAnd d a b) rfl rfl rfl,
    exec_alu h (execOr d a b) rfl rfl rfl, exec_alu h (execXor d a b) rfl rfl rfl, exec_alu h (execSll d a b) rfl rfl ?sll,
    exec_alu h (execSrl d a b) rfl rfl ?srl, exec_alu h (execSra d a b) rfl rfl ?sra, exec_alu h (execMul d a b) rfl rfl rfl,
    exec_alu h (execMulh d a b) rfl rfl (mulhR_eq x y), exec_alu h (execDiv d a b) rfl rfl (sdivR_eq x y),
    exec_alu h (execRem d a b) rfl rfl (sremR_eq x y), exec_alu h (execSlt d a b) rfl rfl (d64_b01_slt x y),
    exec_alu h (execSltu d a b) rfl rfl (d64_b01_ult x y), exec_alu h (execMin d a b) rfl rfl (ite_slt id),
    exec_alu h (execMax d a b) rfl rfl (ite_slt Eq.symm), exec_alu ha (execClz d a) rfl rfl (d64_clz x),
    exec_alu ha (execPopc d a) rfl rfl (d64_popcount x), fun hd hsa hsb => ⟨?two, ?one⟩⟩
  case sll | srl | sra => exact congrArg _ (toNat_mod_64 y)
  case two =>
    refine decodeNat_words (word := fun fn => 0x04000000 + 0x100000 * d + 0x8000 * a + 0x400 * b + fn) ?_
    simp only [List.forall_mem_cons, List.not_mem_nil, false_imp_iff, implies_true, and_true]
    simp [wf, encode, hd, hsa, hsb]
    omega
  case one =>
    refine decodeNat_words (word := fun fn => 0x04000000 + 0x100000 * d + 0x8000 * a + fn) ?_
    simp only [List.forall_mem_cons, List.not_mem_nil, false_imp_iff, implies_true, and_true]
    simp [wf, encode, hd, hsa]
    omega

/-- Settles O2: each operation by the value that it computes from its immediate, each word by its encoding. -/
theorem immediateOperations : Obligations.ImmediateOperations := by
  unfold Obligations.ImmediateOperations
  intro s d a i hi h x p imm raw
  have himm : imm15s i = imm := d64_sx 15 i (by decide)
  have hraw : imm15z i = raw := imm15z_eq hi
  have hnone : s.readable [] := List.forall_mem_nil _
  refine ⟨exec_alu h (execAddi d a i) rfl rfl (congrArg (x + ·) himm), exec_alu h (execAndi d a i) rfl rfl (congrArg (x &&& ·) hraw),
    exec_alu h (execOri d a i) rfl rfl (congrArg (x ||| ·) hraw), exec_alu h (execXori d a i) rfl rfl (congrArg (x ^^^ ·) hraw),
    exec_alu h (execSlli d a i) rfl rfl rfl, exec_alu h (execSrli d a i) rfl rfl rfl, exec_alu h (execSrai d a i) rfl rfl rfl,
    exec_alu h (execSlti d a i) rfl rfl (himm ▸ d64_b01_slt x _), exec_alu hnone (execLui d i) rfl rfl (d64_lui 15 i (by decide)),
    exec_alu hnone (execPcrel d i) rfl rfl (congrArg (p + ·) (d64_4sx 15 i (by decide))), fun hd ha => ⟨?plain, ?shift, ?one⟩⟩
  case plain =>
    refine decodeNat_words (word := fun op => 0x2000000 * op + 0x100000 * d + 0x8000 * a + i) ?_
    simp only [List.forall_mem_cons, List.not_mem_nil, false_imp_iff, implies_true, and_true]
    simp [wf, encode, hd, ha, hi]
    omega
  case shift =>
    refine decodeNat_words (word := fun op => 0x2000000 * op + 0x100000 * d + 0x8000 * a + i % 64) ?_
    simp only [List.forall_mem_cons, List.not_mem_nil, false_imp_iff, implies_true, and_true]
    simp [wf, encode, hd, ha, Nat.mod_lt]
    omega
  case one =>
    refine decodeNat_words (word := fun op => 0x2000000 * op + 0x100000 * d + i) ?_
    simp only [List.forall_mem_cons, List.not_mem_nil, false_imp_iff, implies_true, and_true]
    simp [wf, encode, hd, hi]
    omega

end Sys2Proof.Machine

/-! PROOFS. What a scalar write leaves alone (R11, R111), and that an instruction waits for its scalar sources (R12). -/

namespace Sys2Proof.Machine

/-! ## Waiting -/

theorem jalr_wait {s : State} {a : Nat} (d i : Nat) (h : s.sys.waits a = true) : execJalr d a i s = .next s := by
  simp only [execJalr, lift, h, if_true]

theorem softTrap_wait {s : State} {a : Nat} (k : Nat) (h : s.sys.waits a = true) : softTrap k a s = .next s := by
  simp only [softTrap, lift, h, if_true]

theorem ttsync_wait {s : State} {a : Nat} (i : Nat) (h : s.sys.waits a = true) : execTtsync a i s = .next s := by
  simp only [execTtsync, lift, h, if_true]

theorem scalarAccess_wait_address {s : State} {a : Nat} (l : Bool) (w d o : Nat) (h : s.sys.waits a = true) :
    scalarAccess l w d a o s = .next s := scalarAccess_wait (by simp [h])

/-- A store waits for its data too, a load for its address alone. -/
theorem scalarStore_wait_data {s : State} {d : Nat} (w a o : Nat) (h : s.sys.waits d = true) :
    scalarAccess false w d a o s = .next s := scalarAccess_wait (by simp [h])

theorem csrOp_wait_source {s : State} {a : Nat} (d c : Nat) (g : Dword → RoleSt → Option Dword) (h : s.sys.waits a = true) :
    csrOp d [a] c g s = .next s := csrOp_wait g (by simp [h])

/-! ## A write and its frame -/

theorem me_withMe {s : State} (v : RoleSt) (h : s.hasRole) : me (s.withMe v).sys = v := me_setMe _ _ h

theorem roleOf_withMe {s : State} {c r : Nat} (v : RoleSt) (h : s.hasRole) (hr : r < 3)
    (hother : c ≠ s.sys.curCore ∨ r ≠ s.sys.curRole) : roleOf (s.withMe v).sys c r = roleOf s.sys c r := roleOf_setRole_other _ _ _ _ _ _ h hr hother

theorem coreOf_withMe (s : State) (v : RoleSt) (c : Nat) :
    coreOf (s.withMe v).sys c = if c = s.sys.curCore then s.myCore.setRole s.sys.curRole v else coreOf s.sys c := coreOf_setRole ..

/-- Settles O3: a write is one of the acting role, by the frame of that; each instruction is its shared operation, which waits. -/
theorem scalarFrameAndWaits : Obligations.ScalarFrameAndWaits := by
  unfold Obligations.ScalarFrameAndWaits
  refine ⟨?frame, ?waits⟩
  case frame =>
    intro s d v hrole hd t
    let r : RoleSt := { (me s.sys).setS d v with pc := (me s.sys).pc + 4 }
    have hme : me t.sys = r := me_withMe r hrole
    have hcore : t.myCore = s.myCore.setRole s.sys.curRole r := (coreOf_withMe s r _).trans (if_pos rfl)
    rw [hme, hcore]
    refine ⟨fun n => RoleSt.s_setS _ d n v hd, rfl, ?_, fun c q hq hother => roleOf_withMe r hrole hq hother,
      fun c hc => (coreOf_withMe s r c).trans (if_neg hc), rfl, rfl, rfl, rfl⟩
    obtain ⟨_, hset⟩ := setS_frame (me s.sys) d v
    simp only [r, hset]
  case waits =>
    intro s a h _ d b i o c
    have hfirst : ∀ ns, (a :: ns).any s.sys.waits = true := fun ns => by simp [h]
    have hsecond : [b, a].any s.sys.waits = true := by simp [h]
    simp only [List.forall_mem_cons, List.not_mem_nil, false_imp_iff, implies_true, and_true]
    simp only [exec]
    simp only [execAdd, execSub, execAnd, execOr, execXor, execSll, execSrl, execSra, execMul, execMulh, execDiv, execRem, execSlt,
      execSltu, execMin, execMax, execClz, execPopc, execAddi, execAndi, execOri, execXori, execSlli, execSrli, execSrai, execSlti,
      execSlb, execSlh, execSlw, execSld, execSsb, execSsh, execSsw, execSsd, execBeq, execBne, execBlt, execBge, execBltu, execBgeu,
      execCsrw, execCsrs, execCsrc, execTrap, execSvc]
    simp only [alu_wait _ (hfirst _), alu_wait _ hsecond, branch_wait _ (hfirst _), scalarAccess_wait_address _ _ _ _ h,
      scalarStore_wait_data _ _ _ h, csrOp_wait_source _ _ _ h, jalr_wait _ _ h, softTrap_wait _ h, ttsync_wait _ h, and_self]

end Sys2Proof.Machine

/-! PROOFS. Branches and jumps (R117, R118). -/

namespace Sys2Proof.Machine

/-! ## Targets -/

theorem branchTarget_eq (p : Dword) (o : Nat) : branchTarget p o = p + 4 * (BitVec.ofNat 17 o).signExtend 64 :=
  congrArg (p + ·) (d64_4sx 17 o (by decide))

/-- A branch with its sources there goes to its target where its condition holds. -/
theorem exec_branch {i : Instr} {s : State} {ns : List Nat} {o : Nat} {c : RoleSt → Bool} {p : Prop} [Decidable p]
    (h : s.readable ns) (m : State → Result) (hi : exec i s = m s) (hm : m = branch ns o c) (hc : c (me s.sys) = true ↔ p) :
    exec i s = .next (s.goneTo (if p then (me s.sys).pc + 4 * (BitVec.ofNat 17 o).signExtend 64 else (me s.sys).pc + 4)) := by
  rw [hi, hm, branch_next c h, branchTarget_eq]
  simp only [hc]

/-! ## Conditions -/

theorem not_slt_iff (x y : Dword) : (!x.slt y) = true ↔ y.toInt ≤ x.toInt := by simp [BitVec.slt_eq_decide]

theorem not_ult_iff (x y : Dword) : (!x.ult y) = true ↔ y.toNat ≤ x.toNat := by simp [BitVec.ult_eq_decide]

/-! ## Words -/

/-- The word of an unsigned branch needs an even sa, which names a pair of registers (R57 reason 6). -/
theorem decodeNat_unsigned_branch {a o q : Nat} (ha : a < 32) (ho : o < 131072) {i : Instr}
    (hq : ∀ w, FieldsB w 16 a q o → decodeNat w = if a % 2 = 1 then .error 6 else .ok i) (hlt : q < 8) :
    decodeNat (0x20000000 + 0x100000 * a + 0x20000 * q + o) = if a % 2 = 0 then .ok i else .error 6 := by
  rw [hq _ ⟨by omega, by omega, by omega, by omega⟩]
  obtain heven | hodd := Nat.mod_two_eq_zero_or_one a
  · rw [if_neg (by omega), if_pos heven]
  · rw [if_pos hodd, if_neg (by omega)]

/-! ## Jumps -/

theorem exec_jal (s : State) (o : Nat) : exec (.jal o) s = .next (s.withMe { (me s.sys).setS 31 ((me s.sys).pc + 4) with
    pc := (me s.sys).pc + 4 * (BitVec.ofNat 17 o).signExtend 64 }) := by
  rw [← branchTarget_eq]
  rfl

theorem exec_jalr_of_readable {s : State} {a : Nat} (d i : Nat) (h : s.readable [a]) :
    exec (.jalr d a i) s = .next (
      let r := me s.sys
      let target := r.s a + 4 * (BitVec.ofNat 15 i).signExtend 64
      if target.toNat % 4 ≠ 0 then s.raises (frontCause 9 0 r.pc)
      else s.withMe { r.setS d (r.pc + 4) with pc := target }) := by
  show execJalr d a i s = _
  simp only [execJalr, lift_eq, h a (List.mem_singleton.2 rfl), Bool.false_eq_true, if_false, d64_4sx 15 i (by decide)]
  split <;> rfl

/-- Settles O4: each branch by its condition, each jump by its target; the words by their encodings, or by the reason of an odd sa. -/
theorem branchesAndJumps : Obligations.BranchesAndJumps := by
  unfold Obligations.BranchesAndJumps
  refine ⟨⟨?branch, ?word⟩, ?jump⟩
  case branch =>
    intro s a o _ h x p target
    refine ⟨exec_branch h (execBeq a o) rfl rfl beq_iff_eq, exec_branch h (execBne a o) rfl rfl bne_iff_ne,
      exec_branch h (execBlt a o) rfl rfl (BitVec.slt_iff_toInt_lt), exec_branch h (execBge a o) rfl rfl (not_slt_iff x 0), ?_⟩
    intro h' y
    have hpair : s.readable [a, a + 1] := List.forall_mem_cons.2 ⟨h a (List.mem_singleton.2 rfl), h'⟩
    exact ⟨exec_branch hpair (execBltu a o) rfl rfl BitVec.ult_iff_toNat_lt, exec_branch hpair (execBgeu a o) rfl rfl (not_ult_iff x y)⟩
  case word =>
    intro a o ha ho
    constructor
    · refine decodeNat_words (word := fun q => 0x20000000 + 0x100000 * a + 0x20000 * q + o) ?_
      simp only [List.forall_mem_cons, List.not_mem_nil, false_imp_iff, implies_true, and_true]
      simp [wf, encode, ha, ho]
      omega
    · simp only [List.forall_mem_cons, List.not_mem_nil, false_imp_iff, implies_true, and_true]
      constructor <;> refine decodeNat_unsigned_branch ha ho (fun w hw => ?_) (by decide) <;>
        simp [decodeNat_op10 hw.op_eq, decodeOp10, hw.a_eq, hw.cond_eq, hw.o_eq]
  case jump =>
    intro s d a i o _ _ h r target
    have hjalr := exec_jalr_of_readable d i h
    exact ⟨exec_jal s o, fun haligned => hjalr.trans (congrArg _ (if_neg (not_not.2 haligned))),
      fun hodd => hjalr.trans (congrArg _ (if_pos hodd))⟩

end Sys2Proof.Machine

/-! PROOFS. Control registers (R6, R120 to R125). -/

namespace Sys2Proof.Machine

/-! ## A control register written -/

/-- The state after a write to control register n of the acting role. -/
def State.putCsr (s : State) (n : Nat) (v : Dword) : State :=
  { s with sys := setCore s.sys (writeCsr s.myCore s.sys.curRole n v) }

theorem writeVstart_id (c : Core) (role v : Nat) : (writeVstart c role v).id = c.id := by
  unfold writeVstart
  split <;> rfl

theorem writeCsr_id (c : Core) (role n : Nat) (v : Dword) : (writeCsr c role n v).id = c.id := by
  unfold writeCsr
  split
  · split
    · exact writeVstart_id ..
    · rfl
  · repeat' split
    all_goals rfl

theorem coreOf_putCsr (s : State) (n : Nat) (v : Dword) :
    coreOf (s.putCsr n v).sys s.sys.curCore = writeCsr s.myCore s.sys.curRole n v := by
  have hid : (writeCsr s.myCore s.sys.curRole n v).id = s.sys.curCore := (writeCsr_id ..).trans (coreOf_id ..)
  exact (coreOf_setCore ..).trans (if_pos hid.symm)

/-! ## What is read of it -/

/-- A write that no register takes leaves the core as it was. -/
theorem readCsr_putCsr_of_same {s : State} {n : Nat} {v : Dword} (h : writeCsr s.myCore s.sys.curRole n v = s.myCore) (k : Nat) :
    readCsr (s.putCsr n v) s.sys.curCore s.sys.curRole k = readCsr s s.sys.curCore s.sys.curRole k := by
  have hcore : coreOf (s.putCsr n v).sys s.sys.curCore = coreOf s.sys s.sys.curCore := (coreOf_putCsr s n v).trans h
  have hdom : domOfCore (s.putCsr n v).sys s.sys.curCore = domOfCore s.sys s.sys.curCore := by
    rw [domOfCore, hcore]
    rfl
  simp only [readCsr, hcore, hdom]
  rfl

/-- The read-only registers (R123) take no write. -/
theorem writeCsr_readOnly {c : Core} {role n : Nat} (h : role < 3) (hn : n ∈ [0x002, 0x008, 0x009, 0x020, 0x022, 0x040, 0x044,
    0x045, 0x047, 0x048, 0x049, 0x060, 0x061, 0x062]) (v : Dword) : writeCsr c role n v = c := by
  have hself := Core.setRole_self c h
  simp only [List.mem_cons, List.not_mem_nil, or_false] at hn
  obtain rfl | rfl | rfl | rfl | rfl | rfl | rfl | rfl | rfl | rfl | rfl | rfl | rfl | rfl := hn
  all_goals exact hself

theorem slicesOf_eq (v : Dword) : slicesOf v = if v.toNat % 8 < 3 then 3 else v.toNat % 8 := by
  rw [slicesOf]
  split <;> omega

/-- Settles O6: the four instructions by what they have in common, each register by its place in the state before and after a write. -/
theorem controlRegisters : Obligations.ControlRegisters := by
  unfold Obligations.ControlRegisters
  refine ⟨?complete, ?waits, ?reads, ?writes⟩
  case complete =>
    intro s d a c _ hc x put
    refine ⟨csrOp_next (fun _ _ => none) (List.forall_mem_nil _) hc, fun ha => ⟨?_, ?_, ?_⟩⟩
    · exact csrOp_next (fun _ r => some (r.s a)) ha hc
    · exact csrOp_next (fun x r => some (x ||| r.s a)) ha hc
    · exact csrOp_next (fun x r => some (x &&& ~~~(r.s a))) ha hc
  case waits =>
    intro s d a c hc
    have hwait : ∀ ns g, csrOp d ns c g s = .next s := fun ns g => csrOp_wait g (by rw [hc, Bool.or_true])
    simp only [List.forall_mem_cons, List.not_mem_nil, false_imp_iff, implies_true, and_true]
    exact ⟨hwait [] fun _ _ => none, hwait [a] fun _ r => some (r.s a), hwait [a] fun x r => some (x ||| r.s a),
      hwait [a] fun x r => some (x &&& ~~~(r.s a))⟩
  case reads =>
    intro s _ r c
    simp only [List.forall_mem_cons, List.not_mem_nil, false_imp_iff, implies_true, and_true]
    and_intros <;> rfl
  case writes =>
    intro s v hrole core role after reads
    have hcore : ∀ n, coreOf (after n).sys core = writeCsr s.myCore role n v := fun n => coreOf_putCsr s n v
    have hown : ∀ r, (s.myCore.setRole role r).role role = r := fun r => Core.role_setRole_same _ _ _ hrole
    refine ⟨?same, ?vl, ?vtype, ?binbase, ?xchan, ?dirtya, ?streamend, ?cfg, ?trappc,
      fun n hn k => readCsr_putCsr_of_same (writeCsr_readOnly hrole hn v) k⟩
    case same =>
      simp only [List.forall_mem_cons, List.not_mem_nil, false_imp_iff, implies_true, and_true]
      simp [reads, readCsr, hcore, writeCsr, RoleSt.putCsrs, hown, Shadow.put, Shadow.get]
    case vl | vtype | binbase | xchan =>
      simp [reads, readCsr, hcore, writeCsr, RoleSt.putCsrs, hown, Shadow.put, Shadow.get, d64, slicesOf_eq]
    case dirtya | streamend | cfg => simp [reads, readCsr, hcore, writeCsr]
    case trappc =>
      have hme : s.myCore.role role = me s.sys := rfl
      simp [reads, readCsr, hcore, writeCsr, RoleSt.putCsrs, hown, hme, apply_ite RoleSt.trappc]

end Sys2Proof.Machine

/-! PROOFS. trap, svc and the entry into handler mode (R89, R91, R126 to R132). -/

namespace Sys2Proof.Machine

/-! ## The domain of a core -/

/-- What is read of a core beside its roles is as before when a role was put back. -/
theorem coreOf_setRole_read {α : Type} (f : Core → α) (y : Sys) (c r : Nat) (v : RoleSt) (x : Nat)
    (hf : ∀ k rs, f { k with roles := rs } = f k := by intro _ _; rfl) : f (coreOf (setRole y c r v) x) = f (coreOf y x) := by
  rw [coreOf_setRole]
  split
  case isTrue hx =>
    rw [hx]
    exact hf _ _
  case isFalse => rfl

theorem dom_coreOf_setRole (y : Sys) (c r : Nat) (v : RoleSt) (x : Nat) : (coreOf (setRole y c r v) x).dom = (coreOf y x).dom :=
  coreOf_setRole_read Core.dom y c r v x

@[simp] theorem domOfCore_setRole (y : Sys) (c r : Nat) (v : RoleSt) (x : Nat) : domOfCore (setRole y c r v) x = domOfCore y x := by
  rw [domOfCore, dom_coreOf_setRole]
  rfl

/-- The domain that was put back under the number of a core's domain is the core's. -/
theorem domOfCore_setDom {y : Sys} {core : Nat} {d : Domain} (h : (coreOf y core).dom = d.id) : domOfCore (setDom y d) core = d := by
  rw [domOfCore, show (coreOf (setDom y d) core).dom = d.id from h, domAt_setDom_same]
  rfl

/-- The number of a core's domain, where there is one. -/
theorem dom_eq_id {s : State} (h : domAt s.sys s.myCore.dom = some s.myDom) : s.myCore.dom = s.myDom.id := (domAt_id h).symm

/-! ## The end of a launch -/

/-- A domain that ends with a status (R89, R311). -/
theorem domAt_endDomain (s : State) (y : Sys) {d : Domain} (status : Nat) (h : d.st ≠ .ended) :
    domAt (endDomain s y d status) d.id = some { d with st := .ended, endStatus := status, f := d.ttc s.gtc } := by
  have hput : domAt (setDom y { d with st := .ended, endStatus := status, f := d.ttc s.gtc }) d.id = some _ := domAt_setDom_same y _
  rw [endDomain, if_neg h]
  dsimp only
  split
  · exact hput
  · rw [domAt_of_sameRun (launchEnd_sameRun ..), hput]

/-- A role that entered its handler at an earlier tick ends its launch at a cause (R91). -/
theorem raises_of_handler {s : State} {x : Aside} (k : Cause) (h : (me s.sys).aside = some x) (htick : x.tick ≠ s.gtc) :
    s.raises k = { s with sys := endDomain s s.sys s.myDom 3 } := by
  have haside : (roleOf s.sys s.sys.curCore s.sys.curRole).aside = some x := h
  simp only [State.raises, raise, haside, if_neg htick]
  rfl

/-! ## Entry into handler mode -/

theorem raises_of_program {s : State} (k : Cause) (h : (me s.sys).aside = none) :
    s.raises k = { s with sys := takeCause s.sys s.gtc s.sys.curCore s.sys.curRole k } :=
  congrArg (fun y => { s with sys := y }) (raise_takes s s.sys _ _ k h)

/-- The role outside handler mode that takes a cause (R128, R131). -/
theorem enter_of_program {r : RoleSt} (g : Nat) (k : Cause) (h : r.aside = none) : r.enter g k = { r with
    aside := some {
      pc := if k.front then k.pc else r.pc, stop := r.pc
      sregs := r.sregs, p := r.p, d := r.d, mode := r.mode, csrs := r.csrs
      armed := r.armed, halted := r.halted, front := k.front, tick := g, rank := k.rank, lastSf := r.lastSf }
    handler := true, armed := false, halted := false, vrest := false, hop := none, sacc := none
    trapcause := k.code, trappc := k.pc, trapelem := k.trapelem
    pc := r.textBase } := by
  rw [RoleSt.enter, h]

/-- A running domain freezes in the cycle of a cause (R82, R89). -/
theorem freezeAt_of_run {d : Domain} (c : Nat) (k : Cause) (h : d.st = .run) :
    d.freezeAt c k = { d with st := .frozen, f := c, faulted := d.faulted || k.code == 4 } := by
  simp only [Domain.freezeAt, h]
  rfl

theorem trapelem_frontCause {code elem : Nat} (pc : Dword) (h : elem < 65536) : (frontCause code elem pc).trapelem =
    if code = 5 ∨ code = 6 then BitVec.ofNat 64 elem else BitVec.ofNat 64 (0xFF * 65536 + elem) := by
  show (if code = 5 ∨ code = 6 then d64 elem else d64 (255 * 65536 + elem % 65536)) = _
  rw [Nat.mod_eq_of_lt h]
  rfl

/-- The domain of a running core whose role takes a cause. -/
theorem domOfCore_takeCause {y : Sys} {g core role : Nat} {k : Cause} (h : (domOfCore y core).id = (coreOf y core).dom) :
    domOfCore (takeCause y g core role k) core = (domOfCore y core).freezeAt ((domOfCore y core).ttc g) k := by
  have hid : ∀ d : Domain, (d.freezeAt (d.ttc g) k).id = d.id := fun d => by
    unfold Domain.freezeAt
    dsimp only
    split <;> rfl
  rw [takeCause, domOfCore_setRole, domOfCore_setDom ((hid _).trans h).symm]

/-- Settles O9: trap and svc by the cause that they raise; the role and its domain by what a cause does to each. -/
theorem trapsTaken : Obligations.TrapsTaken := by
  unfold Obligations.TrapsTaken
  refine ⟨?soft, ?entry⟩
  case soft =>
    intro s a hread r
    have ha : s.sys.waits a = false := hread a (List.mem_singleton.2 rfl)
    have htrap : exec (.trap a) s = _ := softTrap_next (k := 5) ha
    have hsvc : exec (.svc a) s = _ := softTrap_next (k := 6) ha
    refine ⟨htrap, hsvc, fun x hx htick hst => ?_⟩
    have hend : ∀ k, domAt (s.raises k).sys s.myDom.id = some { s.myDom with st := .ended, endStatus := 3, f := s.ttc } := fun k => by
      rw [raises_of_handler k hx htick]
      exact domAt_endDomain s s.sys 3 hst
    simp only [List.forall_mem_cons, List.not_mem_nil, false_imp_iff, implies_true, and_true]
    exact ⟨⟨_, htrap, hend _⟩, ⟨_, hsvc, hend _⟩⟩
  case entry =>
    intro s code elem pc hrole haside helem hdom hrun r t
    let k := frontCause code elem pc
    have ht : t.sys = takeCause s.sys s.gtc s.sys.curCore s.sys.curRole k := congrArg State.sys (raises_of_program k haside)
    have hme : me t.sys = (me s.sys).enter s.gtc k := by
      rw [ht]
      exact takeCause_role s.sys s.gtc _ _ k hrole
    have hmyDom : t.myDom = s.myDom.freezeAt s.ttc k := by
      rw [State.myDom, ht]
      exact domOfCore_takeCause (dom_eq_id hdom).symm
    rw [hme, hmyDom, enter_of_program s.gtc k haside, freezeAt_of_run s.ttc k hrun]
    refine ⟨rfl, rfl, rfl, trapelem_frontCause pc helem, rfl, rfl, rfl, ⟨_, rfl, rfl, rfl, rfl, rfl, rfl⟩, rfl, rfl, rfl, ?_, rfl,
      rfl⟩
    intro c q hq hother
    rw [ht]
    exact takeCause_other _ _ _ _ _ _ _ hrole hq hother

end Sys2Proof.Machine

/-! PROOFS. tret, the resume it leads to, and halt (R71, R89, R91, R129 to R131). -/

namespace Sys2Proof.Machine

/-! ## Resuming (R89) -/

theorem clearOfCauses_iff {y : Sys} {d : Domain} (hp : d.preempt = []) (ht : d.thermal = false) (hs : d.stopHold = false)
    (hc : d.cancel = false) : d.clearOfCauses y = true ↔ ∀ c ∈ d.cores, ∀ q < 3, (roleOf y c q).handler = false := by
  simp [Domain.clearOfCauses, hp, ht, hs, hc]

/-- After its acting role has left handler mode, a domain is held by its other roles alone. -/
theorem clearOfCauses_setMe_iff {s : State} {d : Domain} {v : RoleSt} (hrole : s.hasRole) (hv : v.handler = false)
    (hp : d.preempt = []) (ht : d.thermal = false) (hs : d.stopHold = false) (hc : d.cancel = false) :
    d.clearOfCauses (setMe s.sys v) = true ↔
      ∀ c ∈ d.cores, ∀ q < 3, (c ≠ s.sys.curCore ∨ q ≠ s.sys.curRole) → (roleOf s.sys c q).handler = false := by
  have hother : ∀ c q, q < 3 → (c ≠ s.sys.curCore ∨ q ≠ s.sys.curRole) → roleOf (setMe s.sys v) c q = roleOf s.sys c q :=
    fun c q hq hne => roleOf_withMe v hrole hq hne
  rw [clearOfCauses_iff hp ht hs hc]
  refine ⟨fun h c hcore q hq hne => hother c q hq hne ▸ h c hcore q hq, fun h c hcore q hq => ?_⟩
  by_cases hne : c ≠ s.sys.curCore ∨ q ≠ s.sys.curRole
  · rw [hother c q hq hne]
    exact h c hcore q hq hne
  · obtain ⟨rfl, rfl⟩ : c = s.sys.curCore ∧ q = s.sys.curRole := by simpa using hne
    exact (congrArg RoleSt.handler (me_setMe s.sys v hrole)).trans hv

theorem tryResume_of_clear {y : Sys} {g dom : Nat} {d : Domain} (hd : domAt y dom = some d) (hst : d.st = .frozen)
    (hclear : d.clearOfCauses y = true) : tryResume y g dom =
      schedule (setDom { y with free := y.free + 1 } { d with st := .resuming }) (g + 1 + Config.resumeDelay y.free)
        (.domainResume dom) noMsg := by
  simp only [tryResume, hd, hst, hclear]
  rfl

theorem tryResume_of_held {y : Sys} {g dom : Nat} {d : Domain} (hd : domAt y dom = some d) (hheld : d.clearOfCauses y = false) :
    tryResume y g dom = y := by
  simp only [tryResume, hd, hheld, Bool.and_false, Bool.false_eq_true, if_false]

/-- A resume changes domains, the schedule and the counter of free values at most. -/
theorem tryResume_frame (y : Sys) (g dom : Nat) : ∃ ds q n, tryResume y g dom = { y with doms := ds, sched := q, free := n } := by
  unfold tryResume
  split
  · split <;> exact ⟨_, _, _, rfl⟩
  · exact ⟨_, _, _, rfl⟩

theorem me_tryResume (y : Sys) (g dom : Nat) : me (tryResume y g dom) = me y := by
  obtain ⟨_, _, _, h⟩ := tryResume_frame y g dom
  rw [h]
  rfl

/-! ## tret (R129) -/

/-- The acting role after it has returned from its handler: at TRAPPC after a cause of the front end or the push point, at the PC set
aside otherwise. -/
def State.left (s : State) (a : Aside) : RoleSt := (me s.sys).leave a (if a.front then (me s.sys).trappc else a.pc)

/-- The machine after a return: the role's cause is gone, a pre-emption from its core. -/
def State.returned (s : State) (a : Aside) : Sys :=
  if (me s.sys).trapcause = 7 then
    setDom (setMe s.sys (s.left a)) { s.myDom with preempt := s.myDom.preempt.filter fun i => i != s.myDom.indexOf s.sys.curCore }
  else setMe s.sys (s.left a)

theorem me_returned {s : State} (a : Aside) (h : s.hasRole) : me (s.returned a) = s.left a := by
  unfold State.returned
  split <;> exact me_setMe _ _ h

theorem exec_tret_of_program {s : State} (h : (me s.sys).aside = none) :
    exec .tret s = .next (s.raises (frontCause 12 0 (me s.sys).pc)) := by
  show execTret s = _
  simp only [execTret, lift_eq, h]
  rfl

section
variable {s : State} {a : Aside} (h : (me s.sys).aside = some a)
include h

theorem exec_tret_of_unfinished (hop : (me s.sys).hop.isSome = true) : exec .tret s = .next s := by
  show execTret s = _
  simp only [execTret, lift_eq, h, hop, if_true]

theorem exec_tret_of_fault (hop : (me s.sys).hop = none) (hcause : (me s.sys).trapcause = 4) :
    exec .tret s = .next { s with sys := endDomain s s.sys s.myDom 3 } := by
  show execTret s = _
  simp only [execTret, lift_eq, h, hop, hcause]
  rfl

/-- After another cause the set-aside state returns, and the domain resumes if nothing else holds it. -/
theorem exec_tret_of_return (hop : (me s.sys).hop = none) (hcause : (me s.sys).trapcause ≠ 4)
    (hpre : (me s.sys).trapcause = 7 ∨ s.sys.curRole ≠ 0 ∨ s.myDom.preempt = []) :
    exec .tret s = .next { s with sys := tryResume (s.returned a) s.gtc s.myDom.id } := by
  show execTret s = _
  simp only [execTret, lift_eq, h, hop, Option.isSome_none, Bool.false_eq_true, if_false]
  refine congrArg (fun y => Host.Outcome.next { s with sys := y }) ((if_neg hcause).trans ?_)
  by_cases hseven : (me s.sys).trapcause = 7
  · rw [State.returned, if_pos hseven]
    exact if_pos hseven
  · have hkeep : ¬ (decide (s.sys.curRole = 0) && s.myDom.preempt.contains (s.myDom.indexOf s.sys.curCore)) = true := by
      obtain h7 | h0 | hnil := hpre
      · exact absurd h7 hseven
      · simp [h0]
      · simp [hnil]
    rw [State.returned, if_neg hseven]
    exact (if_neg hseven).trans (if_neg hkeep)

end

/-! ## halt (R71, R130, R131) -/

theorem countHalt_of_done {y : Sys} {g core role : Nat} (hhalted : (roleOf y core role).halted = true)
    (hh : (roleOf y core role).handler = false) (hcounted : (roleOf y core role).counted = false)
    (hq : (roleOf y core role).queue = []) (hc : (domOfCore y core).control = false) : countHalt y g core role =
      schedule (setRole y core role { roleOf y core role with counted := true }) g
        (.counterCompletion (domOfCore y core).launch.counter (3 * (domOfCore y core).indexOf core + role)) noMsg := by
  simp only [countHalt, hhalted, hh, hcounted, hq, hc]
  rfl

theorem countHalt_of_not {y : Sys} {g core role : Nat} (h : (roleOf y core role).counted = true ∨ (roleOf y core role).queue ≠ []) :
    countHalt y g core role = y := by
  refine if_neg ?_
  obtain hcounted | hq := h
  · simp [hcounted]
  · simp [hq]

/-- Of its role the count of a completion changes that it is counted at most. -/
theorem roleOf_countHalt (y : Sys) (g core : Nat) {role : Nat} (hr : role < 3) :
    ∃ b, roleOf (countHalt y g core role) core role = { roleOf y core role with counted := b } := by
  have hcounted := roleOf_setRole_same y core role { roleOf y core role with counted := true } hr
  unfold countHalt
  dsimp only
  split
  · split
    · split <;> exact ⟨true, hcounted⟩
    · exact ⟨true, hcounted⟩
  · exact ⟨_, rfl⟩

/-- The count of a completion changes cores, domains and the schedule at most. -/
theorem countHalt_frame (y : Sys) (g core role : Nat) :
    ∃ cs ds q, countHalt y g core role = { y with cores := cs, doms := ds, sched := q } := by
  unfold countHalt
  dsimp only
  split
  · split
    · split <;> exact ⟨_, _, _, rfl⟩
    · exact ⟨_, _, _, rfl⟩
  · exact ⟨_, _, _, rfl⟩

theorem me_countHalt (y : Sys) (g : Nat) (h : y.curRole < 3) :
    ∃ b, me (countHalt y g y.curCore y.curRole) = { me y with counted := b } := by
  obtain ⟨_, _, _, hframe⟩ := countHalt_frame y g y.curCore y.curRole
  have hme : me (countHalt y g y.curCore y.curRole) = roleOf (countHalt y g y.curCore y.curRole) y.curCore y.curRole := by
    rw [hframe]
    rfl
  rw [hme]
  exact roleOf_countHalt y g y.curCore h

/-- The machine whose acting role has stopped its front end (R71). -/
def State.stopped (s : State) : Sys := setMe s.sys { me s.sys with halted := true, armed := false, pc := (me s.sys).pc + 4 }

theorem me_stopped {s : State} (h : s.hasRole) :
    me s.stopped = { me s.sys with halted := true, armed := false, pc := (me s.sys).pc + 4 } := me_setMe _ _ h

/-- A role whose queue is empty is counted as it stops (R71, R131). -/
theorem countHalt_stopped_of_done {s : State} (h : s.hasRole) (hh : (me s.sys).handler = false) (hcounted : (me s.sys).counted = false)
    (hq : (me s.sys).queue = []) (hc : s.myDom.control = false) : countHalt s.stopped s.gtc s.sys.curCore s.sys.curRole =
      schedule (setMe s.stopped { me s.stopped with counted := true }) s.gtc
        (.counterCompletion s.myDom.launch.counter (3 * s.myDom.indexOf s.sys.curCore + s.sys.curRole)) noMsg := by
  have hme := me_stopped h
  have hdom : domOfCore s.stopped s.sys.curCore = s.myDom := domOfCore_setRole ..
  have hdone := countHalt_of_done (y := s.stopped) (g := s.gtc) (core := s.sys.curCore) (role := s.sys.curRole)
    (congrArg RoleSt.halted hme) ((congrArg RoleSt.handler hme).trans hh) ((congrArg RoleSt.counted hme).trans hcounted)
    ((congrArg RoleSt.queue hme).trans hq) ((congrArg Domain.control hdom).trans hc)
  rw [hdom] at hdone
  exact hdone

theorem exec_halt_of_program {s : State} (h : (me s.sys).aside = none) :
    exec .halt s = .next { s with sys := countHalt s.stopped s.gtc s.sys.curCore s.sys.curRole } := by
  show execHalt s = _
  simp only [execHalt, lift_eq, h, State.stopped]

/-- The machine whose PREEMPT handler has reported its core's save (R130). -/
def State.reported (s : State) : Sys :=
  setDom (setMe s.sys { me s.sys with halted := true, pc := (me s.sys).pc + 4 })
    { s.myDom with saved := putBy (fun x : Nat => x) (s.myDom.indexOf s.sys.curCore) s.myDom.saved }

theorem myDom_reported {s : State} (h : domAt s.sys s.myCore.dom = some s.myDom) :
    domOfCore s.reported s.sys.curCore =
      { s.myDom with saved := putBy (fun x : Nat => x) (s.myDom.indexOf s.sys.curCore) s.myDom.saved } :=
  domOfCore_setDom (y := setMe s.sys _) ((dom_coreOf_setRole ..).trans (dom_eq_id h))

theorem exec_halt_of_preempt {s : State} {a : Aside} (h : (me s.sys).aside = some a) (hcause : (me s.sys).trapcause = 7) :
    exec .halt s = .next { s with sys := s.reported } := by
  show execHalt s = _
  simp only [execHalt, lift_eq, h, hcause, State.reported]
  rfl

theorem exec_halt_of_handler {s : State} {a : Aside} (h : (me s.sys).aside = some a) (hcause : (me s.sys).trapcause ≠ 7) :
    exec .halt s = .next { s with sys := endDomain s s.sys s.myDom 3 } := by
  show execHalt s = _
  simp only [execHalt, lift_eq, h]
  exact congrArg (fun y => Host.Outcome.next { s with sys := y }) (if_neg hcause)

/-! ## The statement -/

/-- Settles O10: tret and halt by their outcomes; the domain of a return by whether another role holds it. -/
theorem trapReturnAndHalt : Obligations.TrapReturnAndHalt := by
  unfold Obligations.TrapReturnAndHalt
  refine ⟨?tret, ?resume, ?halt⟩
  case tret =>
    intro s hrole r
    refine ⟨exec_tret_of_program, fun a ha => ⟨exec_tret_of_unfinished ha, fun hop hcause hst => ?_, fun hop hcause hpre => ?_⟩⟩
    · exact ⟨_, exec_tret_of_fault ha hop hcause, domAt_endDomain s s.sys 3 hst⟩
    · refine ⟨_, exec_tret_of_return ha hop hcause hpre, ?_⟩
      dsimp only
      rw [me_tryResume, me_returned a hrole]
      exact ⟨rfl, rfl, rfl, rfl, rfl, rfl, rfl⟩
  case resume =>
    intro s a hrole _ ha hop hfault hpreempt hdom hst hp ht hs hc
    have hexec := exec_tret_of_return ha hop hfault (.inr (.inr hp))
    rw [State.returned, if_neg hpreempt] at hexec
    have hid : s.myCore.dom = s.myDom.id := dom_eq_id hdom
    have hat : domAt (setMe s.sys (s.left a)) s.myDom.id = some s.myDom := hid ▸ hdom
    have hclear := clearOfCauses_setMe_iff (v := s.left a) hrole rfl hp ht hs hc
    refine ⟨_, hexec, fun hfree => ?_, fun ⟨c, hcore, q, hq, hne, hheld⟩ => ?_⟩
    · have hput := domOfCore_setDom (y := setMe s.sys (s.left a)) (d := { s.myDom with st := .resuming })
        ((dom_coreOf_setRole ..).trans hid)
      rw [tryResume_of_clear hat hst (hclear.2 hfree)]
      exact ⟨hput, _, rfl⟩
    · have hnot : s.myDom.clearOfCauses (setMe s.sys (s.left a)) = false :=
        Bool.eq_false_iff.2 fun hall => absurd ((hclear.1 hall c hcore q hq hne).symm.trans hheld) (by decide)
      rw [tryResume_of_held hat hnot]
      exact ⟨domOfCore_setRole .., rfl⟩
  case halt =>
    intro s hrole r
    refine ⟨fun ha hh => ?_, fun a ha hcause hdom => ?_, fun a ha hcause hst => ?_⟩
    · obtain ⟨b, hcount⟩ := me_countHalt s.stopped s.gtc hrole
      rw [me_stopped hrole] at hcount
      refine ⟨_, exec_halt_of_program ha, congrArg RoleSt.halted hcount, congrArg RoleSt.armed hcount, congrArg RoleSt.pc hcount,
        (congrArg RoleSt.sregs hcount).trans rfl, (congrArg RoleSt.queue hcount).trans rfl, fun hcounted hq hc => ?_, fun hnot => ?_⟩
      · rw [countHalt_stopped_of_done hrole hh hcounted hq hc]
        exact ⟨congrArg RoleSt.counted (me_setMe s.stopped _ hrole), rfl⟩
      · have hkept : (me s.stopped).counted = true ∨ (me s.stopped).queue ≠ [] := me_stopped hrole ▸ hnot
        exact (congrArg Sys.sched (countHalt_of_not hkept)).trans rfl
    · refine ⟨_, exec_halt_of_preempt ha hcause, congrArg RoleSt.halted (me_setMe s.sys _ hrole), ?_⟩
      rw [show State.myDom { s with sys := s.reported } = _ from myDom_reported hdom]
      exact (mem_putBy_number ..).2 (.inl rfl)
    · exact ⟨_, exec_halt_of_handler ha hcause, domAt_endDomain s s.sys 3 hst⟩

end Sys2Proof.Machine

/-! PROOFS. Scalar access to the scratchpad (R114, R115, R378). -/

namespace Sys2Proof.Machine

/-! ## The checks of an access (R114) -/

theorem scalarAddr_eq (r : RoleSt) (a off : Nat) : scalarAddr r a off = (r.s a + (BitVec.ofNat 13 off).signExtend 64).toNat := by
  rw [scalarAddr, d64_sx 13 off (by decide)]

section
variable {y : Sys} {core addr w : Nat} {l : Bool}

theorem scalarPlace_of_bad (h : 2 ^ 32 ≤ addr ∨ spAddr y core addr = none) : scalarPlace y core addr w l = .error causeSpaddr := by
  obtain hbig | hnone := h
  · exact if_pos hbig
  · rw [scalarPlace, hnone]
    exact ite_self _

variable {t o : Nat} (hlt : addr < 2 ^ 32) (hat : spAddr y core addr = some (t, o))
include hlt hat

/-- An address that is good: the alignment, then of a load the poison. -/
theorem scalarPlace_of_place : scalarPlace y core addr w l =
    if o % 2 ^ w ≠ 0 then .error causeAlign
    else if l && (coreOf y t).poisoned o then .error causePoison else .ok (t, o) := by
  rw [scalarPlace, if_neg (by omega), hat]

end

/-- The bytes of an aligned access lie in one granule. -/
theorem poisoned_of_aligned (c : Core) {o w j : Nat} (hw : w < 4) (ho : o % 2 ^ w = 0) (hj : j < 2 ^ w) :
    c.poisoned (o + j) = c.poisoned o := by
  have hgranule : (o + j) / 64 = o / 64 := by
    obtain rfl | rfl | rfl | rfl : w = 0 ∨ w = 1 ∨ w = 2 ∨ w = 3 := by omega
    all_goals omega
  rw [Core.poisoned, Core.poisoned, hgranule]

/-! ## The access waits, or traps -/

theorem markScalar_of_poison {y : Sys} {core addr t o : Nat} (g w : Nat) (hat : spAddr y core addr = some (t, o)) :
    markScalar y g core addr w causePoison = markStruck y g t o (2 ^ w) := by
  rw [markScalar, if_pos rfl, hat]

/-- The loads and stores, each with its width code. -/
theorem exec_scalarAccess (s : State) (d a off : Nat) : ∀ p ∈ [(Instr.slb d a off, true, 0), (.slh d a off, true, 1),
    (.slw d a off, true, 2), (.sld d a off, true, 3), (.ssb d a off, false, 0), (.ssh d a off, false, 1), (.ssw d a off, false, 2),
    (.ssd d a off, false, 3)], exec p.1 s = scalarAccess p.2.1 p.2.2 d a off s ∧ p.2.2 < 4 := by
  simp only [List.forall_mem_cons, List.not_mem_nil, false_imp_iff, implies_true, and_true]
  exact ⟨⟨rfl, by decide⟩, ⟨rfl, by decide⟩, ⟨rfl, by decide⟩, ⟨rfl, by decide⟩, ⟨rfl, by decide⟩, ⟨rfl, by decide⟩, ⟨rfl, by decide⟩,
    ⟨rfl, by decide⟩⟩

section
variable {s : State} {l : Bool} {w d a off : Nat} (hidle : (me s.sys).sacc = none) (h : s.readable (if l then [a] else [d, a]))
include hidle h

theorem scalarAccess_not_waiting : ((me s.sys).sacc.isSome || s.sys.waits a || (!l && s.sys.waits d)) = false := by
  cases l <;> simp_all [State.readable]

theorem scalarAccess_of_error {k : Nat} (hk : scalarPlace s.sys s.sys.curCore (scalarAddr (me s.sys) a off) w l = .error k) :
    scalarAccess l w d a off s = .next { s with
      sys := raise s (markScalar s.sys s.gtc s.sys.curCore (scalarAddr (me s.sys) a off) w k) s.sys.curCore s.sys.curRole
        (frontCause k 0 (me s.sys).pc) } := by
  simp only [scalarAccess, lift_eq, scalarAccess_not_waiting hidle h, hk]
  rfl

theorem scalarAccess_of_ok {t o : Nat} (hk : scalarPlace s.sys s.sys.curCore (scalarAddr (me s.sys) a off) w l = .ok (t, o)) :
    scalarAccess l w d a off s = .next (s.withMe { me s.sys with sacc := some {
      isLoad := l, wd := w, core := t, off := o, rd := d, data := ((me s.sys).s d).toNat % 256 ^ 2 ^ w
      after := s.ttc + 1 + crossDelay s.sys.curCore t / 2 } }) := by
  simp only [scalarAccess, lift_eq, scalarAccess_not_waiting hidle h, hk]
  rfl

end

/-! ## The bytes of an access -/

theorem snat_eq (c : Core) (off n : Nat) : c.snat off n = ofBytes ((List.range n).map fun j => c.sbyte (off + j)) := by
  simp only [Core.snat, Mem.nat, Mem.bytes, Core.sbyte, Nat.add_assoc]

theorem sbyte_sput (c : Core) (off n x b : Nat) : (c.sput off (toBytes n x)).sbyte b =
    if off ≤ b ∧ b < off + n then BitVec.ofNat 8 (x / 256 ^ (b - off)) else c.sbyte b := by
  show Mem.read (Mem.writes c.pool (spadBase c.partN + off) (toBytes n x)) (spadBase c.partN + b) = _
  rw [Mem.read_writes, length_toBytes]
  by_cases h : off ≤ b ∧ b < off + n
  · rw [if_pos h, if_pos (by omega), show spadBase c.partN + b - (spadBase c.partN + off) = b - off by omega,
      getElem?_toBytes x (by omega)]
    rfl
  · rw [if_neg h, if_neg (by omega)]
    rfl

theorem countSoft_frame (y : Sys) (core off n : Nat) : ∃ c, countSoft y core off n = { y with corrected := c } :=
  List.foldlRecOn (motive := fun z => ∃ c, z = { y with corrected := c }) _ _ ⟨_, rfl⟩ fun z ⟨_, hz⟩ p _ => by
    rw [hz]
    exact ⟨_, rfl⟩

/-! ## Service (R115) -/

/-- The role that goes on after its scalar access. -/
def RoleSt.accessed (r : RoleSt) : RoleSt := { r with sacc := none, pc := r.pc + 4 }

/-- The data that a load finds, lowest byte first, sign-extended. -/
def ScalarAccess.loaded (x : ScalarAccess) (c : Core) : Dword :=
  (BitVec.ofNat (8 * 2 ^ x.wd) (ofBytes ((List.range (2 ^ x.wd)).map fun j => c.sbyte (x.off + j)))).signExtend 64

/-- The machine in which a store of a role has been made. -/
def madeStore (y : Sys) (core role : Nat) (x : ScalarAccess) : Sys :=
  let z := setRole y core role (roleOf y core role).accessed
  setCore z ((coreOf z x.core).sput x.off (toBytes (2 ^ x.wd) x.data))

theorem s_setS_of_lt (r : RoleSt) {n : Nat} (m : Nat) (v : Dword) (h : n < 32) :
    (r.setS n v).s m = if m ≠ 0 ∧ m = n then v else r.s m := by
  rw [RoleSt.s_setS r n m v h]
  by_cases h0 : m = 0
  · rw [if_pos h0, if_neg (by simp [h0]), h0, RoleSt.s_zero]
  · rw [if_neg h0]
    exact if_congr (by simp [h0]) rfl rfl

section
variable {tab : Instr → Option Back} {s : State} {core role : Nat} {x : ScalarAccess} (hs : s.clearCycle core)
  (hx : (roleOf s.sys core role).sacc = some x) (hafter : x.after ≤ (domOfCore s.sys core).ttc s.gtc)
  (hfree : takenBanks tab s (domOfCore s.sys core) ((domOfCore s.sys core).ttc s.gtc) x.core &&& banksOf x.off (2 ^ x.wd) = 0)
include hs hx hafter hfree

theorem serveScalar_of_due : serveScalar tab s core role =
    let y := setRole s.sys core role (roleOf s.sys core role).accessed
    if x.isLoad then
      let z := countSoft y x.core x.off (2 ^ x.wd)
      setRole z core role ((roleOf z core role).setS x.rd (d64 (wrap 64 (sx (8 * 2 ^ x.wd) ((coreOf y x.core).snat x.off (2 ^ x.wd))))))
    else madeStore s.sys core role x := by
  have hgo : x.mayGo (domOfCore s.sys core) ((domOfCore s.sys core).ttc s.gtc) (roleOf s.sys core role).handler = true := by
    simp [ScalarAccess.mayGo, domOfCore_run_of_clearCycle hs, hafter]
  simp only [serveScalar, guarded_of_clearCycle hs, hx, hgo, hfree]
  rfl

theorem serveScalar_of_store (hl : x.isLoad = false) : serveScalar tab s core role = madeStore s.sys core role x := by
  rw [serveScalar_of_due hs hx hafter hfree, hl]
  rfl

/-- A load that is served gives its role the data, and changes the cores beside their roles in no way. -/
theorem serveScalar_of_load (hl : x.isLoad = true) (hrole : role < 3) :
    roleOf (serveScalar tab s core role) core role = (roleOf s.sys core role).accessed.setS x.rd (x.loaded (coreOf s.sys x.core)) ∧
    ∀ {α : Type} (f : Core → α), (∀ k rs, f { k with roles := rs } = f k) →
      ∀ c, f (coreOf (serveScalar tab s core role) c) = f (coreOf s.sys c) := by
  rw [serveScalar_of_due hs hx hafter hfree, hl, if_pos rfl]
  let y := setRole s.sys core role (roleOf s.sys core role).accessed
  obtain ⟨n, hsoft⟩ := countSoft_frame y x.core x.off (2 ^ x.wd)
  have hdata : d64 (wrap 64 (sx (8 * 2 ^ x.wd) ((coreOf y x.core).snat x.off (2 ^ x.wd)))) = x.loaded (coreOf s.sys x.core) := by
    rw [coreOf_setRole_read (fun k => k.snat x.off (2 ^ x.wd)), snat_eq]
    exact d64_sx _ _ (by positivity)
  have haccessed : roleOf { y with corrected := n } core role = (roleOf s.sys core role).accessed := roleOf_setRole_same _ _ _ _ hrole
  dsimp only
  rw [hdata, hsoft, haccessed]
  refine ⟨roleOf_setRole_same _ _ _ _ hrole, fun f hf c => ?_⟩
  rw [coreOf_setRole_read f _ _ _ _ _ hf]
  exact coreOf_setRole_read f _ _ _ _ _ hf

end

section
variable (y : Sys) (core role : Nat) (x : ScalarAccess)

theorem coreOf_madeStore (c : Nat) : coreOf (madeStore y core role x) c =
    let k := coreOf (setRole y core role (roleOf y core role).accessed) c
    if c = x.core then k.sput x.off (toBytes (2 ^ x.wd) x.data) else k := by
  unfold madeStore
  dsimp only
  rw [coreOf_setCore, show ((coreOf (setRole y core role (roleOf y core role).accessed) x.core).sput x.off
    (toBytes (2 ^ x.wd) x.data)).id = x.core from coreOf_id _ _]
  split
  case isTrue hc => rw [hc]
  case isFalse => rfl

/-- A store changes the cores beside their roles in their pools alone. -/
theorem coreOf_madeStore_read {α : Type} (f : Core → α) (c : Nat) (hrole : ∀ k rs, f { k with roles := rs } = f k)
    (hpool : ∀ k p, f { k with pool := p } = f k) : f (coreOf (madeStore y core role x) c) = f (coreOf y c) := by
  rw [coreOf_madeStore]
  dsimp only
  split
  · exact (hpool _ _).trans (coreOf_setRole_read f _ _ _ _ _ hrole)
  · exact coreOf_setRole_read f _ _ _ _ _ hrole

theorem roleOf_madeStore (h : role < 3) : roleOf (madeStore y core role x) core role = (roleOf y core role).accessed := by
  have hput := roleOf_setRole_same y core role (roleOf y core role).accessed h
  rw [roleOf, coreOf_madeStore]
  dsimp only
  split <;> exact hput

theorem pool_madeStore {c : Nat} (hc : c ≠ x.core) : (coreOf (madeStore y core role x) c).pool = (coreOf y c).pool := by
  rw [coreOf_madeStore]
  dsimp only
  rw [if_neg hc, coreOf_setRole_read Core.pool]

theorem sbyte_madeStore (b : Nat) : (coreOf (madeStore y core role x) x.core).sbyte b =
    if x.off ≤ b ∧ b < x.off + 2 ^ x.wd then BitVec.ofNat 8 (x.data / 256 ^ (b - x.off)) else (coreOf y x.core).sbyte b := by
  rw [coreOf_madeStore]
  dsimp only
  rw [if_pos rfl, sbyte_sput, coreOf_setRole_read fun k => k.sbyte b]

end

/-! ## The statement -/

/-- Settles O5: an access by the first check that it fails, or its wait; its service by the load or the store that it makes. -/
theorem scalarAccesses : Obligations.ScalarAccesses := by
  unfold Obligations.ScalarAccesses
  refine ⟨?access, ?service⟩
  case access =>
    intro s d a off _ hidle r addr p hp n hread
    obtain ⟨hexec, hw⟩ := exec_scalarAccess s d a off p hp
    obtain ⟨i, l, w⟩ := p
    have haddr : scalarAddr r a off = addr := scalarAddr_eq r a off
    have herror : ∀ k, scalarPlace s.sys s.sys.curCore addr w l = .error k → _ := fun k hk =>
      hexec.trans (scalarAccess_of_error (k := k) hidle hread (haddr ▸ hk))
    refine ⟨fun hbad => herror _ (scalarPlace_of_bad hbad), fun t o hlt hat => ?_⟩
    have hplace := scalarPlace_of_place (w := w) (l := l) hlt hat
    refine ⟨fun hodd => herror _ (hplace.trans (if_pos hodd)), fun ho hl hpoison => ?_, fun ho hclean => ?_⟩
    · obtain ⟨j, hj, hstruck⟩ := hpoison
      rw [poisoned_of_aligned _ hw ho hj] at hstruck
      have hstop := (hplace.trans (if_neg (not_not.2 ho))).trans (if_pos (by rw [hstruck, Bool.and_true]; exact hl))
      rw [herror causePoison hstop, haddr, markScalar_of_poison _ _ hat]
      rfl
    · have hpass : (l && (coreOf s.sys t).poisoned o) = false := by
        cases l
        · rfl
        · exact hclean rfl 0 (Nat.two_pow_pos w)
      refine hexec.trans (scalarAccess_of_ok hidle hread (haddr ▸ hplace.trans ?_))
      rw [if_neg (not_not.2 ho), if_neg (by simp [hpass])]
  case service =>
    intro s core role x hrole hrd hx hs d r n hafter hfree
    refine ⟨{ s with sys := serveScalar backOf s core role }, rfl, ?_⟩
    dsimp only
    obtain hl | hl := Bool.eq_false_or_eq_true x.isLoad
    · obtain ⟨hme, hread⟩ := serveScalar_of_load hs hx hafter hfree hl hrole
      obtain ⟨_, hset⟩ := setS_frame (roleOf s.sys core role).accessed x.rd (x.loaded (coreOf s.sys x.core))
      refine ⟨(congrArg RoleSt.sacc (hme.trans hset)).trans rfl, (congrArg RoleSt.pc hme).trans (RoleSt.setS_pc ..),
        fun _ => ⟨fun k => ?_, hread Core.pool fun _ _ => rfl⟩, fun h => absurd (hl.symm.trans h) (by decide),
        fun c => ⟨hread Core.flags0 (fun _ _ => rfl) c, hread Core.tags (fun _ _ => rfl) c, hread Core.poison (fun _ _ => rfl) c,
          hread Core.masks (fun _ _ => rfl) c⟩, rfl, rfl⟩
      rw [hme, s_setS_of_lt _ k _ hrd]
      rfl
    · rw [serveScalar_of_store hs hx hafter hfree hl, roleOf_madeStore _ _ _ _ hrole]
      refine ⟨rfl, rfl, fun h => absurd (hl.symm.trans h) (by decide),
        fun _ => ⟨fun _ => rfl, sbyte_madeStore _ _ _ _, fun c hc => pool_madeStore _ _ _ _ hc⟩,
        fun c => ⟨?_, ?_, ?_, ?_⟩, rfl, rfl⟩
      · exact coreOf_madeStore_read _ _ _ _ Core.flags0 c (fun _ _ => rfl) (fun _ _ => rfl)
      · exact coreOf_madeStore_read _ _ _ _ Core.tags c (fun _ _ => rfl) (fun _ _ => rfl)
      · exact coreOf_madeStore_read _ _ _ _ Core.poison c (fun _ _ => rfl) (fun _ _ => rfl)
      · exact coreOf_madeStore_read _ _ _ _ Core.masks c (fun _ _ => rfl) (fun _ _ => rfl)

end Sys2Proof.Machine

/-! PROOFS. Reads of old values (R144, R147, R187): an entry of a run, a translation that a cache still holds, and a unit that is torn for
the core that reads it, with the notes of the writes that it may read. -/

namespace Sys2Proof.Machine

/-! ## Runs and cached translations (R144, R147) -/

/-- Of a run of entries, a translation takes the one that is free, or where that is no leaf the addressed one. -/
theorem runLeaf_cases (rd : Nat → Option Nat) (st2 : Bool) (pick w table i e : Nat) :
    runLeaf rd st2 pick w table i e = e ∨ ∃ k < 2 ^ field e 14 12,
      rd (table + 8 * (i / 2 ^ field e 14 12 * 2 ^ field e 14 12 + k)) = some (runLeaf rd st2 pick w table i e) ∧
      leafOk st2 w (runLeaf rd st2 pick w table i e) = true := by
  unfold runLeaf
  dsimp only
  split
  case isTrue => exact .inl rfl
  case isFalse =>
    split
    case h_1 f hread =>
      split
      case isTrue hleaf => exact .inr ⟨_, Nat.mod_lt _ (Nat.two_pow_pos _), hread, hleaf⟩
      case isFalse => exact .inl rfl
    case h_2 => exact .inl rfl

/-- An entry of a nonempty list, or for lack of one its head: the head or one of those behind it. -/
theorem getD_getElem?_cons {α : Type} (a : α) (l : List α) (n : Nat) : ((a :: l)[n]?).getD a = a ∨ ((a :: l)[n]?).getD a ∈ l := by
  cases n with
  | zero => exact .inl rfl
  | succ n =>
    rw [List.getElem?_cons_succ]
    cases hget : l[n]? with
    | none => exact .inl rfl
    | some b => exact .inr (List.mem_of_getElem? hget)

/-- A stage gives what its tables give, or the old value that is picked among those cached for the page. -/
theorem nowOrOld_cases (s : State) (vk : Nat) (st2 : Bool) (a : Nat) (now : Option (Nat × Nat)) :
    nowOrOld s vk st2 a now = now ∨ ∃ c ∈ s.sys.cached, c.vd = vk ∧ c.st2 = st2 ∧ c.page = a / 65536 ∧
      nowOrOld s vk st2 a now = some (c.out + a % 65536, c.leaf) := by
  unfold nowOrOld
  dsimp only
  split
  case h_1 => exact .inl rfl
  case h_2 o os holds =>
    refine (getD_getElem?_cons ..).imp_right fun hmem => ?_
    rw [← holds] at hmem
    obtain ⟨c, hc, hout⟩ := List.mem_map.1 (List.mem_filter.1 hmem).1
    simp only [List.mem_filter, Bool.and_eq_true, beq_iff_eq] at hc
    obtain ⟨hcached, ⟨hvd, hst⟩, hpage⟩ := hc
    exact ⟨c, hcached, hvd, hst, hpage, holds ▸ hout.symm⟩

/-! ## Torn units, read (R187) -/

section
variable {s : State} {core issue : Nat}

theorem tornByte_of_not_torn (h : ∀ t ∈ s.sys.torn, ∀ r, t.reader = some r → r.1 = core → issue < r.2) (key : Nat) (b : Byte) :
    tornByte s core issue key b = b := by
  have hnone : (s.sys.torn.find? fun t => t.unit == key / 8 && t.reader.any fun r => r.1 == core && decide (r.2 ≤ issue)) = none := by
    refine List.find?_eq_none.2 fun t ht htorn => ?_
    simp only [Bool.and_eq_true, Option.any_eq_true, beq_iff_eq, decide_eq_true_eq] at htorn
    obtain ⟨_, r, hreader, hcore, hle⟩ := htorn
    exact absurd (h t ht r hreader hcore) (Nat.not_lt.2 hle)
  rw [tornByte, hnone]

/-- The unit that is noted first, torn for the core: the value is the one that is free for the unit, whatever the byte of it. -/
theorem tornByte_of_torn {u g : Nat} {t : TornUnit} (ht : getBy TornUnit.unit u s.sys.torn = some t) (hreader : t.reader = some (core, g))
    (hg : g ≤ issue) {key : Nat} (hkey : key / 8 = u) (b : Byte) :
    tornByte s core issue key b = (((t.vals[Config.tornPick s.sys.free u % t.vals.length]?).getD [])[key % 8]?).getD b := by
  have hfind : (s.sys.torn.find? fun t => t.unit == u && t.reader.any fun r => r.1 == core && decide (r.2 ≤ issue)) = some t := by
    obtain ⟨hunit, before, later, hsplit, hother⟩ := List.find?_eq_some_iff_append.1 ht
    refine List.find?_eq_some_iff_append.2 ⟨by simp [hunit, hreader, hg], before, later, hsplit, fun x hx => ?_⟩
    rw [Bool.not_and, hother x hx, Bool.true_or]
  rw [tornByte, hkey, hfind]

theorem readVaFor_of_not_torn (h : ∀ t ∈ s.sys.torn, ∀ r, t.reader = some r → r.1 = core → issue < r.2) (vk va : Nat) :
    readVaFor s core issue vk va = readX (some core) s vk va (xlate s vk va) := by
  unfold readVaFor readXFor
  dsimp only
  split
  case isTrue => rfl
  case isFalse =>
    split
    case h_1 => rw [tornByte_of_not_torn h]
    case h_2 => rfl

theorem readVaFor_of_xlate {vk va : Nat} {x : Xlat} (htorn : s.sys.torn ≠ []) (hva : inFabric va = false) (hx : xlate s vk va = some x)
    (hgood : (readX (some core) s vk va (some x)).cause = 0) :
    readVaFor s core issue vk va = { readX (some core) s vk va (some x) with
      val := tornByte s core issue (storeKey s vk x.pa) (readX (some core) s vk va (some x)).val } := by
  rw [readVaFor, hx, readXFor]
  exact if_neg (by simp [htorn, hva, hgood])

/-- All bytes of a torn unit are read from one of its values. -/
theorem readVaFor_of_torn {u g : Nat} {t : TornUnit} (ht : getBy TornUnit.unit u s.sys.torn = some t) (hvals : t.vals ≠ [])
    (hreader : t.reader = some (core, g)) (hg : g ≤ issue) (vk : Nat) :
    ∃ w ∈ t.vals, ∀ va x, inFabric va = false → xlate s vk va = some x → storeKey s vk x.pa / 8 = u →
      (readX (some core) s vk va (some x)).cause = 0 → readVaFor s core issue vk va = { readX (some core) s vk va (some x) with
        val := (w[storeKey s vk x.pa % 8]?).getD (readX (some core) s vk va (some x)).val } := by
  have hpick : Config.tornPick s.sys.free u % t.vals.length < t.vals.length := Nat.mod_lt _ (List.length_pos_iff.2 hvals)
  refine ⟨_, List.getElem_mem hpick, fun va x hva hx hkey hgood => ?_⟩
  have htorn : s.sys.torn ≠ [] := List.ne_nil_of_mem (List.mem_of_find?_eq_some ht)
  rw [readVaFor_of_xlate htorn hva hx hgood, tornByte_of_torn ht hreader hg hkey, List.getElem?_eq_getElem hpick, Option.getD_some]

end

/-! ## Torn units, noted (R187) -/

/-- What memory holds in a unit. -/
def presentUnit (s : State) (u : Nat) : List Byte := (List.range 8).map fun i => Mem.read s.mem.bytes (8 * u + i)

/-- A unit's bytes with the bytes of a write put in. -/
def putInto (ws : List (Nat × Byte)) (b : List Byte) : List Byte := ws.foldl (fun b w => b.set w.1 w.2) b

theorem tornAt_key {y : Sys} {h u : Nat} {t : TornUnit} (ht : tornAt y h u = some t) : t.obj = h ∧ t.unit = u := by
  simpa using List.find?_some ht

theorem tornAt_keepTorn (y : Sys) {t : TornUnit} {h u : Nat} (hkey : t.obj = h ∧ t.unit = u) : tornAt (keepTorn y t) h u = some t := by
  obtain ⟨rfl, rfl⟩ := hkey
  have hgone : ∀ x ∈ y.torn.filter fun x => !(x.obj == t.obj && x.unit == t.unit), ¬ (x.obj == t.obj && x.unit == t.unit) = true :=
    fun _ hx => Bool.eq_false_iff.1 ((Bool.not_eq_true' _).mp (List.mem_filter.1 hx).2)
  rw [tornAt, keepTorn, List.find?_append, List.find?_eq_none.2 hgone, Option.none_or]
  exact List.find?_cons_of_pos (by simp)

section
variable (s : State) {y : Sys} {o : Obj} {u : Nat} (l : Lock) (core va : Nat) (ws : List (Nat × Byte))

/-- The first write to a unit in a tenure. -/
theorem tornAt_noteUnit_of_new (h : tornAt y o.key u = none) (late : Bool) : tornAt (noteUnit s y o l late core va u ws) o.key u =
    some ⟨u, o.key, [va], [presentUnit s u, putInto ws (presentUnit s u)], if late then some (l.hcore, l.since) else none⟩ := by
  rw [noteUnit, h]
  exact tornAt_keepTorn _ ⟨rfl, rfl⟩

variable {t : TornUnit} (h : tornAt y o.key u = some t)
include h

/-- A further write of the holder. -/
theorem tornAt_noteUnit_of_holder (hreader : t.reader = none) : tornAt (noteUnit s y o l false core va u ws) o.key u =
    some { t with
      vas := if t.vas.contains va then t.vas else va :: t.vas
      vals := t.vals ++ [putInto ws (t.vals.getLast?.getD (presentUnit s u))] } := by
  simp only [noteUnit, h, hreader]
  have hkey := tornAt_key h
  exact tornAt_keepTorn _ hkey

/-- A late write to a unit that is not torn. -/
theorem tornAt_noteUnit_of_late (hreader : t.reader = none) : tornAt (noteUnit s y o l true core va u ws) o.key u = some t := by
  simp only [noteUnit, h, hreader]
  exact h

variable {r : Nat × Nat} (hreader : t.reader = some r)
include hreader

/-- A write of the new holder to a torn unit. -/
theorem tornAt_noteUnit_of_repair : tornAt (noteUnit s y o l false core va u ws) o.key u =
    some { t with
      vas := [va]
      reader := none
      vals := [if r.1 = core then t.vals.headD (presentUnit s u) else presentUnit s u, putInto ws (presentUnit s u)] } := by
  simp only [noteUnit, h, hreader]
  have hkey := tornAt_key h
  exact tornAt_keepTorn _ hkey

/-- A late write of the abandoned holder to a torn unit. -/
theorem tornAt_noteUnit_of_torn_late : tornAt (noteUnit s y o l true core va u ws) o.key u =
    some { t with vals := t.vals ++ [putInto ws (presentUnit s u)] } := by
  simp only [noteUnit, h, hreader]
  have hkey := tornAt_key h
  exact tornAt_keepTorn _ hkey

end

/-! ## The statement -/

/-- Settles O40: what each choice can be, the value of a torn unit among them, and the unit that each write leaves noted. -/
theorem oldValuesRead : Obligations.OldValuesRead := by
  unfold Obligations.OldValuesRead
  refine ⟨runLeaf_cases, nowOrOld_cases, fun s core issue vk u => ⟨fun h va => readVaFor_of_not_torn h vk va, ?torn⟩,
    fun s y o l core va u ws => ⟨fun hnew => ?new, fun t ht => ⟨fun r hr => ?repair, fun r hr => ?tornLate, fun hr => ?held⟩⟩⟩
  case torn =>
    rintro t ht hvals ⟨g, hg, hreader⟩
    exact readVaFor_of_torn ht hvals hreader hg vk
  case new => exact ⟨tornAt_noteUnit_of_new s l core va ws hnew false, tornAt_noteUnit_of_new s l core va ws hnew true⟩
  case repair =>
    refine ⟨_, tornAt_noteUnit_of_repair s l core va ws ht hr, fun hcore hvals => ?_, fun hcore => if_neg hcore⟩
    rw [if_pos hcore, List.headD_eq_head?_getD, List.head?_eq_some_head hvals, Option.getD_some]
  case tornLate => exact tornAt_noteUnit_of_torn_late s l core va ws ht hr
  case held =>
    refine ⟨tornAt_noteUnit_of_late s l core va ws ht hr, _, ?_, fun a ha => ?_, tornAt_noteUnit_of_holder s l core va ws ht hr⟩
    · split
      case isTrue hin => exact List.contains_iff_mem.1 hin
      case isFalse => exact List.mem_cons_self
    · split
      case isTrue => exact ha
      case isFalse => exact List.mem_cons_of_mem _ ha

end Sys2Proof.Machine

/-! PROOFS. What the transfer unit decides about an xgo, and the entry that it admits (R76, R170, R171, R177). -/

namespace Sys2Proof.Machine

/-! ## The decision (R170, R171) -/

/-- Adding to a number does not make it smaller. -/
theorem le_foldl_add {α : Type} (f : α → Nat) (l : List α) (a : Nat) : a ≤ l.foldl (fun n x => n + f x) a :=
  List.foldlRecOn (motive := fun n => a ≤ n) l _ (Nat.le_refl a) fun _ h _ _ => Nat.le_add_right_of_le h

section
variable {v : Env} {e : Entry} {due : Nat}

theorem eight_le_xferNeed : 8 ≤ (xferNeed v e).2 := (Nat.le_add_right 8 _).trans (le_foldl_add (bankSpan _ <| · + _) _ _)

theorem decideXgo_eq_ok (h : decideXgo v e = .ok due) :
    due = xdueOf v e ∧ (outstanding v.s.sys v.core (e.shadow.xchan.toNat % 8)).length < 127 ∧ (e.op 0 = 0 ∨ due ≤ e.op 0) := by
  unfold decideXgo at h
  dsimp only at h
  split at h
  · cases h
  split at h
  · cases h
  split at h
  · cases h
  split at h
  · cases h
  split at h
  · cases h
  case isFalse.isFalse hroom hlate =>
    cases h
    simp only [ne_eq, Bool.and_eq_true, decide_eq_true_eq] at hlate
    exact ⟨rfl, by omega, by omega⟩

/-- XDUE lies after what the transfer waits for, with the time that it needs from there. -/
theorem xferClear_add_le (h : decideXgo v e = .ok due) : xferClear v e + (xferNeed v e).2 ≤ due := by
  rw [(decideXgo_eq_ok h).1]
  exact Nat.le_add_right ..

theorem le_xferClear : v.s.gtc ≤ xferClear v e ∧ (v.c.chanAt (e.shadow.xchan.toNat % 8)).lastDue ≤ xferClear v e :=
  ⟨(Nat.le_max_left ..).trans (Nat.le_max_left ..), (Nat.le_max_right ..).trans (Nat.le_max_left ..)⟩

end

/-! ## Units of which no word is read (R178) -/

/-- No word of these moves is read. -/
def Unmoved (ms : List Move) : Prop := ∀ m ∈ ms, ∀ w ∈ m.src, w.2 = none

theorem unmoved_nil : Unmoved [] := fun _ h => absurd h List.not_mem_nil

theorem unmoved_cons {m : Move} {ms : List Move} : Unmoved (m :: ms) ↔ (∀ w ∈ m.src, w.2 = none) ∧ Unmoved ms := List.forall_mem_cons

theorem unmoved_append {ms ns : List Move} : Unmoved (ms ++ ns) ↔ Unmoved ms ∧ Unmoved ns := List.forall_mem_append

theorem unmoved_pairUp {l : List (Nat × Nat × Option (Nat × Bool × Nat))} (h : ∀ p ∈ l, p.2.2 = none) : Unmoved (pairUp l) := by
  induction l using pairUp.induct with
  | case1 d a e b l hunit ih =>
    obtain ⟨ha, hb, hl⟩ := by simpa only [List.forall_mem_cons] using h
    rw [pairUp, if_pos hunit, unmoved_cons]
    exact ⟨by simp [ha, hb], ih hl⟩
  | case2 d a e b l hunit ih =>
    obtain ⟨ha, hl⟩ := List.forall_mem_cons.1 h
    rw [pairUp, if_neg hunit, unmoved_cons]
    exact ⟨by simpa using ha, ih hl⟩
  | case3 d a => exact unmoved_cons.2 ⟨by simpa using h, unmoved_nil⟩
  | case4 => exact unmoved_nil

theorem unmoved_join {m n k : Move} (h : m.join n = some k) (hm : ∀ w ∈ m.src, w.2 = none) (hn : ∀ w ∈ n.src, w.2 = none) :
    ∀ w ∈ k.src, w.2 = none := by
  unfold Move.join at h
  split at h
  · split at h
    · cases h
      dsimp only
      split
      · exact List.forall_mem_append.2 ⟨hm, hn⟩
      · exact List.forall_mem_append.2 ⟨hn, hm⟩
    · cases h
  · cases h

theorem unmoved_addMove {n : Move} {ms : List Move} (hn : ∀ w ∈ n.src, w.2 = none) (h : Unmoved ms) : Unmoved (addMove n ms) := by
  induction ms with
  | nil => exact unmoved_cons.2 ⟨hn, h⟩
  | cons m ms ih =>
    obtain ⟨hm, hms⟩ := unmoved_cons.1 h
    rw [addMove]
    split
    case h_1 k hk =>
      split at hk
      · cases hk
      · exact unmoved_cons.2 ⟨unmoved_join hk hm hn, hms⟩
    case h_2 => exact unmoved_cons.2 ⟨hm, ih hms⟩

theorem unmoved_joinMoves {ms : List Move} (h : Unmoved ms) : Unmoved (joinMoves ms) := by
  unfold joinMoves
  split
  · exact h
  · refine List.foldlRecOn (motive := Unmoved) ms _ unmoved_nil fun l hl m hm => ?_
    split
    · exact unmoved_addMove (h m hm) hl
    · exact unmoved_append.2 ⟨hl, unmoved_cons.2 ⟨h m hm, unmoved_nil⟩⟩

theorem unmoved_destUnits {mem hostsh : Bool} {l : List (Nat × Nat × Option (Nat × Bool × Nat))} (h : ∀ p ∈ l, p.2.2 = none) :
    Unmoved (destUnits mem hostsh l) := by
  unfold destUnits
  split
  · split
    · exact unmoved_pairUp h
    · exact unmoved_joinMoves (unmoved_pairUp h)
  · exact List.forall_mem_map.2 fun p hp w hw => (List.mem_singleton.1 hw) ▸ h p hp

theorem unmoved_copyMoves (y : Sys) (core : Nat) (x : Shadow) (hostsh : Bool) (ps : List Piece) :
    Unmoved (copyMoves y core x hostsh ps) := by
  refine unmoved_destUnits fun q hq => ?_
  obtain ⟨p, -, hq⟩ := List.mem_flatMap.1 hq
  obtain ⟨a, -, hunread⟩ := List.mem_map.1 (List.of_mem_zip hq).2
  exact hunread ▸ rfl

theorem unmoved_gangMoves (y : Sys) (core vl : Nat) (x : Shadow) : Unmoved (gangMoves y core vl x) := by
  intro m hm w hw
  obtain ⟨t, -, hm⟩ := List.mem_flatMap.1 hm
  obtain ⟨p, -, rfl⟩ := List.mem_map.1 hm
  exact List.mem_singleton.1 hw ▸ rfl

/-! ## The entry (R170, R171) -/

/-- What an admitted transfer knows of its units: a copy or a gang delivery moves, another reads first; nothing is read yet. -/
theorem started_eq (s : State) (x : Xfer) : ∃ ms d w t, Unmoved ms ∧ x.started s = { x with
      stage := if x.kind = 0 ∨ x.kind = 6 then 1 else x.stage, moves := ms, dups := d, whole := w, tags := t } := by
  have hfirst : ∀ l : List Nat, Unmoved (l.map fun a => ⟨none, [unread a]⟩) := fun l =>
    List.forall_mem_map.2 fun a _ => by simp [unread]
  by_cases h6 : x.kind = 6
  · rw [Xfer.started, if_pos h6, if_pos (.inr h6)]
    exact ⟨_, _, _, _, unmoved_gangMoves _ _ _ _, rfl⟩
  by_cases h0 : x.kind = 0
  · rw [Xfer.started, if_neg h6, if_pos h0, if_pos (.inl h0)]
    exact ⟨_, _, _, _, unmoved_copyMoves _ _ _ _ _, rfl⟩
  rw [Xfer.started, if_neg h6, if_neg h0, if_neg (not_or.2 ⟨h0, h6⟩)]
  split
  · exact ⟨_, _, _, _, hfirst _, rfl⟩
  · exact ⟨_, _, _, _, hfirst _, rfl⟩

/-- A channel of a core is put back: its domain stays. -/
theorem domOfCore_setChan (y : Sys) (core ch : Nat) (h : Chan) :
    domOfCore (setCore y ((coreOf y core).setChan ch h)) core = domOfCore y core := by
  rw [domOfCore, coreOf_setCore, if_pos (by simp [Core.setChan])]
  rfl

/-- An admitted transfer is the last of its machine's entries, and acts at the next tick. -/
theorem admitXfer_enters (v : Env) (e : Entry) (kind due : Nat) (y : Sys) :
    let ch := e.shadow.xchan.toNat % 8
    ∃ q, (admitXfer v e kind due y).xfers = y.xfers ++ [q] ∧
      (admitXfer v e kind due y).sched = y.sched ++ [(v.s.gtc + 1, .transferDelivery v.core q.xid 1,
        { noMsg with party := (domOfCore y v.core).indexOf v.core * 2 ^ 64 + q.xid })] ∧
      (q.core, q.role, q.chan, q.id, q.issue, q.due, q.status, q.shadow) =
        (v.core, v.role, ch, ch * 2 ^ 13 + ((coreOf y v.core).chanAt ch).nextId, v.s.gtc, due, 0, e.shadow) ∧
      q.urge = due - (xferNeed v e).2 ∧ q.kind = kind ∧ q.stage = (if kind = 0 ∨ kind = 6 then 1 else 0) ∧ Unmoved q.moves := by
  obtain ⟨ms, d, w, t, hms, hq⟩ := started_eq { v.s with sys := y }
    { Xfer.admitted v kind (e.shadow.xchan.toNat % 8) (e.shadow.xchan.toNat % 8 * 8192 +
        ((coreOf y v.core).chanAt (e.shadow.xchan.toNat % 8)).nextId) due y.nextXid e.shadow e.vl with
      urge := due - (xferNeed v e).2, load := (xferNeed v e).1 }
  refine ⟨_, rfl, ?_, ?_⟩
  · show _ ++ [(_, _, _)] = _
    rw [hq]
    have hdom := domOfCore_setChan y v.core (e.shadow.xchan.toNat % 8)
    exact congrArg (fun n => y.sched ++ [(v.s.gtc + 1, Instr.transferDelivery v.core y.nextXid 1,
      { noMsg with party := n * 2 ^ 64 + y.nextXid })]) (congrArg (Domain.indexOf · v.core) (hdom _))
  · rw [hq]
    exact ⟨rfl, rfl, rfl, rfl, hms⟩

section
variable {v : Env} {e : Entry} (d a : Nat)

theorem fire_backXgo_of_refused {k : Nat} (h : decideXgo v e = .error k) :
    (((backXgo d a).op v e).fire v.s.sys) = countXgo v.s.sys v.core := by
  simp only [backXgo, h]

/-- Admitted, an xgo enters its transfer after it is counted; of a decrypt it also marks the counter of its key as used. -/
theorem fire_backXgo_of_admitted {due : Nat} (h : decideXgo v e = .ok due) :
    let y := admitXfer v e (kindOf e.shadow) due (countXgo v.s.sys v.core)
    ∃ ks, ((backXgo d a).op v e).fire v.s.sys = { y with keys := ks } := by
  simp only [backXgo, h]
  split
  · exact ⟨_, rfl⟩
  · exact ⟨_, rfl⟩

end

end Sys2Proof.Machine

/-! PROOFS. What xdrain reports of its channels (R175). -/

namespace Sys2Proof.Machine

/-! ## The report (R175) -/

/-- A byte for each number below n: f's where p holds, else zero. -/
def bytesWhere (p : Nat → Bool) (f : Nat → Nat) (n : Nat) : Nat :=
  (List.range n).foldl (fun a c => if p c then a + 256 ^ c * f c else a) 0

section
variable {p : Nat → Bool} {f : Nat → Nat}

theorem bytesWhere_succ (n : Nat) : bytesWhere p f (n + 1) = bytesWhere p f n + 256 ^ n * (if p n then f n else 0) := by
  rw [bytesWhere, List.range_succ, List.foldl_append]
  show (if p n then bytesWhere p f n + _ else bytesWhere p f n) = _
  split <;> simp

variable (hf : ∀ c, f c < 256)
include hf

theorem bytesWhere_lt (n : Nat) : bytesWhere p f n < 256 ^ n := by
  induction n with
  | zero => exact Nat.one_pos
  | succ n ih =>
    have hbyte : (if p n then f n else 0) ≤ 255 := by
      have := hf n
      split <;> omega
    calc bytesWhere p f (n + 1) = bytesWhere p f n + 256 ^ n * (if p n then f n else 0) := bytesWhere_succ n
      _ < 256 ^ n + 256 ^ n * 255 := Nat.add_lt_add_of_lt_of_le ih (Nat.mul_le_mul_left _ hbyte)
      _ = 256 ^ (n + 1) := by rw [Nat.pow_succ]; omega

/-- Byte c of them. -/
theorem byte_bytesWhere (n c : Nat) : bytesWhere p f n / 256 ^ c % 256 = if c < n ∧ p c = true then f c else 0 := by
  induction n with
  | zero => simp [bytesWhere]
  | succ n ih =>
    rw [bytesWhere_succ]
    obtain hlt | rfl | hgt := lt_trichotomy c n
    · obtain ⟨k, rfl⟩ := Nat.exists_eq_add_of_lt hlt
      have hshift : 256 ^ (c + k + 1) * (if p (c + k + 1) then f (c + k + 1) else 0) =
          256 ^ c * (256 * (256 ^ k * (if p (c + k + 1) then f (c + k + 1) else 0))) := by ring
      rw [hshift, Nat.add_mul_div_left _ _ (Nat.pow_pos (by decide)), Nat.add_mul_mod_self_left, ih]
      simp [hlt, Nat.lt_succ_of_lt hlt]
    · rw [Nat.add_mul_div_left _ _ (Nat.pow_pos (by decide)), Nat.div_eq_of_lt (bytesWhere_lt hf c), Nat.zero_add]
      have := hf c
      simp only [Nat.lt_succ_self, true_and]
      split <;> omega
    · have hsmall : bytesWhere p f (n + 1) < 256 ^ c := (bytesWhere_lt hf _).trans_le (Nat.pow_le_pow_right (by decide) hgt)
      rw [← bytesWhere_succ, Nat.div_eq_of_lt hsmall, if_neg (by omega)]

end

/-- What the report says of a channel: how many entries issued earlier remain, and whether it holds an error. -/
def channelReport (v : Env) (c : Nat) : Nat :=
  ((outstanding v.s.sys v.core c).filter fun x => x.issue < v.s.gtc).length % 128 + (if (v.c.chanAt c).errors = [] then 0 else 128)

theorem channelReport_lt (v : Env) (c : Nat) : channelReport v c < 256 := by
  unfold channelReport
  split <;> omega

theorem drainReport_eq (v : Env) (mask : Nat) : drainReport v mask = bytesWhere mask.testBit (channelReport v) 8 := by
  simp only [drainReport, bytesWhere, channelReport, beq_iff_eq]

/-- The selector's low byte names the masked channels. -/
theorem testBit_mod_256 (sel c : Nat) : (sel % 256).testBit c = true ↔ c < 8 ∧ sel.testBit c = true := by
  rw [show 256 = 2 ^ 8 from rfl, Nat.testBit_mod_two_pow, Bool.and_eq_true, decide_eq_true_eq]

theorem byte_drainReport (v : Env) (sel c : Nat) :
    drainReport v (sel % 256) / 256 ^ c % 256 = if c < 8 ∧ sel.testBit c = true then channelReport v c else 0 := by
  rw [drainReport_eq, byte_bytesWhere (channelReport_lt v)]
  exact if_congr (by rw [testBit_mod_256]; exact ⟨And.right, fun h => ⟨h.1, h⟩⟩) rfl rfl

/-! ## The oldest error (R175) -/

/-- The first number below n for which there is something. -/
theorem findSome?_range_of_first {α : Type} {f : Nat → Option α} {n c : Nat} {b : α} (hc : c < n) (hf : f c = some b)
    (hfirst : ∀ k < c, f k = none) : (List.range n).findSome? f = some b := by
  obtain ⟨k, rfl⟩ := Nat.exists_eq_add_of_lt hc
  rw [Nat.add_right_comm, List.range_add, List.findSome?_append, List.range_succ, List.findSome?_append,
    List.findSome?_eq_none_iff.2 fun k hk => hfirst k (List.mem_range.1 hk)]
  simp [hf]

section
variable {c : Core} {sel : Nat}

theorem oldestError_of_none (h : ∀ k, k < 8 ∧ sel.testBit k = true → (c.chanAt k).errors = []) : oldestError c (sel % 256) = none := by
  refine List.findSome?_eq_none_iff.2 fun k _ => ?_
  split
  case isTrue hk => rw [h k ((testBit_mod_256 sel k).1 hk)]; rfl
  case isFalse => rfl

theorem oldestError_of_first {ch id st : Nat} {rest : List (Nat × Nat)} (hch : ch < 8 ∧ sel.testBit ch = true)
    (herr : (c.chanAt ch).errors = (id, st) :: rest) (hfirst : ∀ k < ch, k < 8 ∧ sel.testBit k = true → (c.chanAt k).errors = []) :
    oldestError c (sel % 256) = some (ch, id, st) := by
  refine findSome?_range_of_first hch.1 ?_ fun k hk => ?_
  · rw [if_pos ((testBit_mod_256 sel ch).2 hch), herr]
    rfl
  · split
    case isTrue hm => rw [hfirst k hk ((testBit_mod_256 sel k).1 hm)]; rfl
    case isFalse => rfl

end

theorem chanAt_setChan_other (c : Core) {ch k : Nat} (h : k ≠ ch) (x : Chan) : (c.setChan ch x).chanAt k = c.chanAt k := by
  simp [Core.chanAt, Core.setChan, Ne.symm h]

section
variable (v : Env) {e : Entry} (d a b : Nat)

theorem xdrain_of_report (h : (e.op 0).testBit 8 = false) : ((backXdrain d a b).op v e).fire v.s.sys = v.s.sys ∧
    (((backXdrain d a b).op v e).issue ()).1 = [landScalar v e (e.t v + 4) d (drainReport v (e.op 0 % 256))] := by
  simp [backXdrain, h]

theorem xdrain_of_no_error (h : (e.op 0).testBit 8 = true) (hnone : oldestError v.c (e.op 0 % 256) = none) :
    ((backXdrain d a b).op v e).fire v.s.sys = v.s.sys ∧
      (((backXdrain d a b).op v e).issue ()).1 = [landScalar v e (e.t v + 4) d 0] := by
  simp [backXdrain, h, hnone]

theorem xdrain_of_error (h : (e.op 0).testBit 8 = true) {ch id st : Nat}
    (hold : oldestError v.c (e.op 0 % 256) = some (ch, id, st)) :
    coreOf (((backXdrain d a b).op v e).fire v.s.sys) v.core =
        v.c.setChan ch { v.c.chanAt ch with errors := (v.c.chanAt ch).errors.drop 1 } ∧
      (((backXdrain d a b).op v e).issue ()).1 = [landScalar v e (e.t v + 4) d (id + st * 2 ^ 16)] := by
  simp only [backXdrain, h, hold]
  refine ⟨?_, rfl⟩
  show coreOf (setCore v.s.sys _) v.core = _
  rw [coreOf_setCore, if_pos (by simp [Core.setChan])]
  rfl

end

end Sys2Proof.Machine

/-! PROOFS. The granules that a page request names, and the events that it posts (R154, R176, R275, R358). -/

namespace Sys2Proof.Machine

/-! ## The granules (R154) -/

/-- A number put at the end of a list that does not have it. -/
def addNew (l : List Nat) (a : Nat) : List Nat := if l.contains a then l else l ++ [a]

theorem mem_addNew {l : List Nat} {a q : Nat} : q ∈ addNew l a ↔ q ∈ l ∨ q = a := by
  unfold addNew
  split
  case isTrue h => exact ⟨.inl, fun hq => hq.elim id fun hqa => hqa ▸ List.contains_iff_mem.1 h⟩
  case isFalse => simp

theorem nodup_addNew {l : List Nat} {a : Nat} (h : l.Nodup) : (addNew l a).Nodup := by
  unfold addNew
  split
  case isTrue => exact h
  case isFalse hnew =>
    rw [← List.concat_eq_append]
    exact h.concat (mt List.contains_iff_mem.2 hnew)

/-- What a fold puts into a list, where each step puts something in. -/
theorem mem_foldl_adds {α β : Type} {f : List β → α → List β} {P : α → β → Prop} (hf : ∀ l a q, q ∈ f l a ↔ q ∈ l ∨ P a q)
    (l : List α) (init : List β) (q : β) : q ∈ l.foldl f init ↔ q ∈ init ∨ ∃ a ∈ l, P a q := by
  induction l generalizing init with
  | nil => simp
  | cons a l ih => rw [List.foldl_cons, ih, hf, List.exists_mem_cons_iff, or_assoc]

section
variable (base : Nat) (stride : Int) (n : Nat)

/-- The first byte of element j of a request. -/
def requestLo (j : Nat) : Nat := wrap 64 ((base : Int) + stride * (j : Int))

/-- The last one. -/
def requestHi (j : Nat) : Nat := (requestLo base stride j + n - 1) % 2 ^ 64

/-- The granules up to element j, given those before it. -/
def requestStep (l : List Nat) (j : Nat) : List Nat :=
  if 2 ^ 57 ≤ requestLo base stride j || 2 ^ 57 ≤ requestHi base stride n j then l
  else addNew (addNew l (requestLo base stride j / 65536)) (requestHi base stride n j / 65536)

theorem requestGranules_eq (count : Nat) :
    requestGranules count base stride n = (List.range (min count (2 ^ 20))).foldl (requestStep base stride n) [] := rfl

theorem mem_requestStep (hn : 1 < n) (l : List Nat) (j q : Nat) : q ∈ requestStep base stride n l j ↔ q ∈ l ∨ ∃ p < n, (p = 0 ∨ p = n - 1) ∧
    requestLo base stride j < 2 ^ 57 ∧ requestHi base stride n j < 2 ^ 57 ∧
    q = (if p = 0 then requestLo base stride j else requestHi base stride n j) / 65536 := by
  unfold requestStep
  simp only [Bool.or_eq_true, decide_eq_true_eq]
  split
  case isTrue hout => exact ⟨.inl, fun h => h.elim id fun ⟨p, _, _, hlo, hhi, _⟩ => absurd hout (by omega)⟩
  case isFalse hin =>
    obtain ⟨hlo, hhi⟩ := not_or.1 hin
    rw [mem_addNew, mem_addNew, or_assoc]
    refine or_congr_right ⟨?_, ?_⟩
    · rintro (rfl | rfl)
      · exact ⟨0, by omega, .inl rfl, Nat.not_le.1 hlo, Nat.not_le.1 hhi, rfl⟩
      · exact ⟨n - 1, by omega, .inr rfl, Nat.not_le.1 hlo, Nat.not_le.1 hhi, by rw [if_neg (by omega)]⟩
    · rintro ⟨p, _, rfl | rfl, _, _, rfl⟩
      · exact .inl rfl
      · exact .inr (by rw [if_neg (by omega)])

theorem nodup_requestGranules (count : Nat) : (requestGranules count base stride n).Nodup := by
  rw [requestGranules_eq]
  refine List.foldlRecOn (motive := List.Nodup) _ _ List.nodup_nil fun l hl j _ => ?_
  unfold requestStep
  split
  · exact hl
  · exact nodup_addNew (nodup_addNew hl)

theorem mem_requestGranules (hn : 1 < n) (count q : Nat) : q ∈ requestGranules count base stride n ↔ ∃ j < min count (2 ^ 20), ∃ p < n,
    (p = 0 ∨ p = n - 1) ∧ requestLo base stride j < 2 ^ 57 ∧ requestHi base stride n j < 2 ^ 57 ∧
    q = (if p = 0 then requestLo base stride j else requestHi base stride n j) / 65536 := by
  rw [requestGranules_eq, mem_foldl_adds (mem_requestStep base stride n hn)]
  simp only [List.not_mem_nil, false_or, List.mem_range]

end

/-! ## The events (R176, R275) -/

/-- An event is registered at a later tick than that of its issue. -/
theorem regTick_later (y : Sys) (g core h : Nat) : ∃ r n, g < r ∧ regTick y g core h = (r, { y with free := n }) := by
  unfold regTick
  split
  · exact ⟨_, y.free, by split <;> omega, rfl⟩
  split
  · exact ⟨_, y.free + 1, lt_max_of_lt_left (by omega), rfl⟩
  · exact ⟨_, y.free, by omega, rfl⟩

/-- An event whose home is there reaches it. -/
theorem sendHome_of_reached {y : Sys} {m : HomeMsg} (g : Nat) (i : Instr)
    (h : homeField m.obj ≠ 4 ∨ chipRemoved y (vdKeyOf y m.core) (chipField m.obj) = false) :
    ∃ r n, g < r ∧ sendHome y g i m = schedule { y with free := n } r i m := by
  have hreach : ¬ (decide (homeField m.obj = 4) && chipRemoved y (vdKeyOf y m.core) (chipField m.obj)) = true := by
    obtain h | h := h <;> simp [h]
  obtain ⟨r, n, hr, hreg⟩ := regTick_later y g m.core m.obj
  exact ⟨r, n, hr, by rw [sendHome, if_neg hreach, hreg]⟩

/-- What a page request leaves alone of what it reads: the cores, the removed chips, and of each device its queue and its tick. -/
def Requested (y z : Sys) : Prop := z.cores = y.cores ∧ z.mgmt.chip = y.mgmt.chip ∧ z.mgmt.removed = y.mgmt.removed ∧
  ∀ k, (vdOf z k).pgqueue = (vdOf y k).pgqueue ∧ (vdOf z k).since = (vdOf y k).since

theorem Requested.refl (y : Sys) : Requested y y := ⟨rfl, rfl, rfl, fun _ => ⟨rfl, rfl⟩⟩

theorem Requested.trans {x y z : Sys} (h : Requested x y) (h' : Requested y z) : Requested x z := by
  obtain ⟨hc, hn, hr, hv⟩ := h
  obtain ⟨hc', hn', hr', hv'⟩ := h'
  exact ⟨hc'.trans hc, hn'.trans hn, hr'.trans hr, fun k => ⟨(hv' k).1.trans (hv k).1, (hv' k).2.trans (hv k).2⟩⟩

theorem Requested.vdKeyOf {y z : Sys} (h : Requested y z) (core : Nat) : vdKeyOf z core = vdKeyOf y core := by
  rw [Machine.vdKeyOf, Machine.vdKeyOf, coreOf, coreOf, h.1]

theorem Requested.chipRemoved {y z : Sys} (h : Requested y z) (vk chip : Nat) : chipRemoved z vk chip = chipRemoved y vk chip := by
  obtain ⟨_, hn, hr, hv⟩ := h
  rw [Machine.chipRemoved, Machine.chipRemoved, hn, hr, (hv _).2]

theorem Logged.requested {y z : Sys} (h : Logged y z) : Requested y z ∧ z.sched = y.sched := by
  obtain ⟨_, _, _, _, _, _, rfl⟩ := h
  exact ⟨⟨rfl, rfl, rfl, fun _ => ⟨rfl, rfl⟩⟩, rfl⟩

theorem noteTables_logged (s : State) (y : Sys) (vk va n : Nat) : Logged y (noteTables s y vk va n) :=
  List.foldlRecOn (motive := Logged y) _ _ (.refl y) fun _ hz _ _ => hz.trans (writeEvent_logged ..)

theorem setVd_requested {y : Sys} {x : Vdev} (hq : x.pgqueue = (vdOf y x.key).pgqueue) (hs : x.since = (vdOf y x.key).since) :
    Requested y (setVd y x) := by
  refine ⟨rfl, rfl, rfl, fun k => ?_⟩
  rw [vdOf_setVd]
  split
  case isTrue h => rw [h]; exact ⟨hq, hs⟩
  case isFalse => exact ⟨rfl, rfl⟩

section
variable (v : Env)

/-- The request queue of the device of a core. -/
def requestQueue : Nat := (vdOf v.s.sys (vdKeyOf v.s.sys v.core)).pgqueue

/-- The intermediate address of a granule, where stage 1 gives one. -/
def requestAddr (q : Nat) : Option Nat :=
  (stage1 { v.s with sys := { v.s.sys with cached := [] } } (vdKeyOf v.s.sys v.core) (q * 65536)).map Prod.fst

/-- The number under which a request names a granule: its intermediate address's where it has one (R358, log entry 39). -/
def requestName (q : Nat) : Nat := ((requestAddr v q).map (· / 65536)).getD q

/-- The event of a request for a granule. -/
def requestMsg (q : Nat) : HomeMsg := {
  obj := requestQueue v, party := 62, gen := 0, dl := requestName v q % 2 ^ 41 + v.dom.indexOf v.core * 2 ^ 41
  aux := 1, core := v.core, role := v.role, launch := 0, ticket := 0 }

/-- A request is counted where stage 1 translates (R358). -/
def requestCounted (y : Sys) (q : Nat) : Sys :=
  let vd := vdOf y (vdKeyOf v.s.sys v.core)
  if (requestAddr v q).isSome then setVd y { vd with s2count := min 65535 (vd.s2count + 1), s2gran := requestName v q } else y

variable {v}

theorem requestCounted_requested (y : Sys) (q : Nat) :
    Requested y (requestCounted v y q) ∧ (requestCounted v y q).sched = y.sched := by
  unfold requestCounted
  dsimp only
  split
  · exact ⟨setVd_requested (by simp) (by simp), rfl⟩
  · exact ⟨.refl y, rfl⟩

theorem postRequest_eq {y : Sys} (hy : Requested v.s.sys y) (q : Nat) :
    postRequest v y q = sendHome (requestCounted v y q) v.s.gtc .homeQpush (requestMsg v q) := by
  have hqueue : (vdOf y (vdKeyOf v.s.sys v.core)).pgqueue = requestQueue v := (hy.2.2.2 _).1
  have hname : (match requestAddr v q with | some i => i / 65536 | none => q) = requestName v q := by
    rw [requestName]
    cases requestAddr v q <;> rfl
  rw [requestCounted, requestMsg, ← hname, ← hqueue]
  unfold postRequest
  rw [hy.vdKeyOf v.core]
  rfl

variable (hq : homeField (requestQueue v) ≠ 4 ∨
  chipRemoved v.s.sys (vdKeyOf v.s.sys v.core) (chipField (requestQueue v)) = false)
include hq

theorem postRequest_posts {y : Sys} (hy : Requested v.s.sys y) (q : Nat) : Requested v.s.sys (postRequest v y q) ∧
    ∃ r, v.s.gtc < r ∧ (postRequest v y q).sched = y.sched ++ [(r, .homeQpush, requestMsg v q)] := by
  obtain ⟨hcount, hsched⟩ := requestCounted_requested (v := v) y q
  have hsz := hy.trans hcount
  obtain ⟨r, n, hr, hsend⟩ := sendHome_of_reached (y := requestCounted v y q) (m := requestMsg v q) v.s.gtc .homeQpush
    (by rw [hsz.chipRemoved, hsz.vdKeyOf]; exact hq)
  rw [postRequest_eq hy, hsend]
  exact ⟨hsz.trans ⟨rfl, rfl, rfl, fun _ => ⟨rfl, rfl⟩⟩, r, hr, congrArg (· ++ _) hsched⟩

/-- The requests for some granules, in their order. -/
theorem foldl_postRequest_posts (qs : List Nat) {y : Sys} (hy : Requested v.s.sys y) :
    ∃ ev, (qs.foldl (postRequest v) y).sched = y.sched ++ ev ∧ ev.length = qs.length ∧
      ∀ (k q : Nat), qs[k]? = some q → ∃ r, v.s.gtc < r ∧ ev[k]? = some (r, .homeQpush, requestMsg v q) := by
  induction qs generalizing y with
  | nil => exact ⟨[], by simp, rfl, by simp⟩
  | cons q qs ih =>
    obtain ⟨hpost, r, hr, hsched⟩ := postRequest_posts hq hy q
    obtain ⟨ev, hevs, hlen, hget⟩ := ih hpost
    refine ⟨(r, .homeQpush, requestMsg v q) :: ev, ?_, congrArg (· + 1) hlen, fun k p hk => ?_⟩
    · rw [List.foldl_cons, hevs, hsched, List.append_assoc]
      rfl
    · cases k with
      | zero => exact ⟨r, hr, by rw [← Option.some.inj hk]; rfl⟩
      | succ k => exact hget k p hk

end

/-- The granules that pgreq asks for: those that no translation holds, at most 1,024 (R176). -/
def requestNeed (v : Env) (e : Entry) : List Nat :=
  let now : State := { v.s with sys := { v.s.sys with cached := [] } }
  ((requestGranules (e.op 0) (e.op 1) (sx 64 (e.op 2)) (elemSize e.mode.ety)).filter fun q =>
    (xlate now (vdKeyOf v.s.sys v.core) (q * 65536)).isNone).take 1024

/-- pgreq asks for them after the events of its table walks are noted. -/
theorem fire_backPgreq (d a b : Nat) (v : Env) (e : Entry) :
    ∃ y, Logged v.s.sys y ∧ ((backPgreq d a b).op v e).fire v.s.sys = (requestNeed v e).foldl (postRequest v) y :=
  ⟨_, List.foldlRecOn (motive := Logged v.s.sys) _ _ (.refl _) fun _ hz q _ => hz.trans (noteTables_logged v.s _ _ (q * 65536) 1), rfl⟩

end Sys2Proof.Machine

/-! PROOFS. Fences (R177, R189, R314), and the statement about the instructions of the transfer unit and fences. -/

namespace Sys2Proof.Machine

/-! ## What the From classes have under way (R177) -/

/-- A transfer of a core issued before this tick is not visible. -/
def xferUnderWay (v : Env) : Prop := ∃ q ∈ v.s.sys.xfers, q.core = v.core ∧ q.stage < 3 ∧ q.kind ≠ 5 ∧ q.issue < v.s.gtc

/-- A collective generation of a core is not over. -/
def collUnderWay (v : Env) : Prop := ∃ r ∈ v.c.colls, collPending v.s.sys v.core r.key = true

/-- Something of the asynchronous classes of a From set is under way. -/
def underWay (v : Env) (f : Nat) : Prop := f.testBit 1 = true ∧ xferUnderWay v ∨ f.testBit 3 = true ∧ collUnderWay v ∨
  f.testBit 4 = true ∧ hostDeferred v.s.sys (vdKeyOf v.s.sys v.core) = true

theorem mem_xfersOut {y : Sys} {core g i : Nat} :
    i ∈ xfersOut y core g ↔ ∃ q ∈ y.xfers, (q.core = core ∧ q.stage < 3 ∧ q.kind ≠ 5 ∧ q.issue < g) ∧ q.xid = i := by
  simp [xfersOut, and_assoc]

theorem mem_collsOut {y : Sys} {core : Nat} {k : Nat × Nat × Nat} :
    k ∈ collsOut y core ↔ (∃ r ∈ (coreOf y core).colls, r.key = k) ∧ collPending y core k = true := by
  simp [collsOut]

/-- A wait for nothing of the timed classes is not over. -/
theorem waitMet_eq_false_iff (y : Sys) (core : Nat) (xs : List Nat) (cs : List (Nat × Nat × Nat)) (host : Bool) :
    waitMet y core false ⟨[], xs, cs, host⟩ = false ↔ (∃ i ∈ xs, ∃ t ∈ y.xfers, t.xid = i ∧ t.stage < 3) ∨
      (∃ k ∈ cs, collPending y core k = true) ∨ host = true ∧ hostDeferred y (vdKeyOf y core) = true := by
  simp only [waitMet, List.any_nil, Bool.not_false, Bool.or_true, Bool.true_and, Bool.and_eq_false_iff, Bool.not_eq_false',
    List.any_eq_true, Bool.and_eq_true, beq_iff_eq, decide_eq_true_eq, or_assoc]

/-- Something of a list that counts on a condition. -/
theorem exists_mem_ite_nil {α : Type} {c : Bool} {l : List α} {P : α → Prop} :
    (∃ a ∈ if c then l else [], P a) ↔ c = true ∧ ∃ a ∈ l, P a := by
  cases c <;> simp

theorem fenceClear_eq_false_iff (v : Env) (f : Nat) : fenceClear v.s.sys v.core v.s.gtc f = false ↔ underWay v f := by
  have hxfers : (∃ i ∈ xfersOut v.s.sys v.core v.s.gtc, ∃ t ∈ v.s.sys.xfers, t.xid = i ∧ t.stage < 3) ↔ xferUnderWay v := by
    constructor
    · rintro ⟨i, hi, -⟩
      obtain ⟨q, hq, hout, -⟩ := mem_xfersOut.1 hi
      exact ⟨q, hq, hout⟩
    · rintro ⟨q, hq, hout⟩
      exact ⟨q.xid, mem_xfersOut.2 ⟨q, hq, hout, rfl⟩, q, hq, rfl, hout.2.1⟩
  have hcolls : (∃ k ∈ collsOut v.s.sys v.core, collPending v.s.sys v.core k = true) ↔ collUnderWay v := by
    constructor
    · rintro ⟨k, hk, hpend⟩
      obtain ⟨⟨r, hr, rfl⟩, -⟩ := mem_collsOut.1 hk
      exact ⟨r, hr, hpend⟩
    · rintro ⟨r, hr, hpend⟩
      exact ⟨r.key, mem_collsOut.2 ⟨⟨r, hr, rfl⟩, hpend⟩, hpend⟩
  rw [fenceClear, fenceFrom, waitMet_eq_false_iff, exists_mem_ite_nil, exists_mem_ite_nil, hxfers, hcolls, Bool.and_eq_true, and_assoc,
    and_self_iff]
  rfl

/-- An early wait of some classes: with VEC or MAT in To (R177). -/
theorem fenceLate_eq_true_iff (v : Env) (f t : Nat) :
    ((t.testBit 0 || t.testBit 2) && !fenceClear v.s.sys v.core v.s.gtc f) = true ↔
      (t.testBit 0 = true ∨ t.testBit 2 = true) ∧ underWay v f := by
  rw [Bool.and_eq_true, Bool.or_eq_true, Bool.not_eq_true', fenceClear_eq_false_iff]

/-! ## What a fence makes later accesses wait for (R177) -/

/-- A wait for all that the From classes have under way. -/
def Wait.CoversFrom (v : Env) (f : Nat) (z : Wait) : Prop :=
  (f.testBit 0 = true ∨ f.testBit 2 = true → ∀ p ∈ timedOut v.s.sys v.core, p ∈ z.ents) ∧
  (f.testBit 1 = true → ∀ q ∈ v.s.sys.xfers, q.core = v.core → q.stage < 3 → q.kind ≠ 5 → q.issue < v.s.gtc → q.xid ∈ z.xids) ∧
  (f.testBit 3 = true → ∀ r ∈ v.c.colls, collPending v.s.sys v.core r.key = true → r.key ∈ z.colls) ∧
  (f.testBit 4 = true → hostDeferred v.s.sys (vdKeyOf v.s.sys v.core) = true → z.host = true)

/-- A wait for all of another that is not over. -/
def Wait.KeepsPending (v : Env) (old z : Wait) : Prop :=
  (∀ p ∈ old.ents, entPending v.s.sys v.core p = true → p ∈ z.ents) ∧
  (∀ i ∈ old.xids, (∃ q ∈ v.s.sys.xfers, q.xid = i ∧ q.stage < 3) → i ∈ z.xids) ∧
  (∀ r ∈ old.colls, collPending v.s.sys v.core r = true → r ∈ z.colls) ∧ (old.host = true → z.host = true)

theorem and_fenceFrom_covers (v : Env) (f : Nat) (a : Wait) : (a.and (fenceFrom v.s.sys v.core v.s.gtc f)).CoversFrom v f := by
  refine ⟨fun hf p hp => List.mem_append_right _ ?_, fun hf q hq hcore hstage hkind hissue => List.mem_append_right _ ?_,
    fun hf r hr hpend => List.mem_append_right _ ?_, fun hf hhost => ?_⟩
  · simpa only [fenceFrom, Bool.or_eq_true, hf, if_true] using hp
  · simpa only [fenceFrom, hf, if_true] using mem_xfersOut.2 ⟨q, hq, ⟨hcore, hstage, hkind, hissue⟩, rfl⟩
  · simpa only [fenceFrom, hf, if_true] using mem_collsOut.2 ⟨⟨r, hr, rfl⟩, hpend⟩
  · simp [Wait.and, fenceFrom, hf, hhost]

theorem pruned_and_keeps (v : Env) (old w : Wait) : old.KeepsPending v ((pruneWait v.s.sys v.core old).and w) := by
  refine ⟨fun p hp hpend => List.mem_append_left _ (List.mem_filter.2 ⟨hp, hpend⟩),
    fun i hi hout => List.mem_append_left _ (List.mem_filter.2 ⟨hi, ?_⟩),
    fun r hr hpend => List.mem_append_left _ (List.mem_filter.2 ⟨hr, hpend⟩), fun hhost => ?_⟩
  · simpa using hout
  · simp [Wait.and, pruneWait, hhost]

theorem coreOf_fenceTo (y : Sys) (core dst : Nat) (w : Wait) : coreOf (fenceTo y core dst w) core =
    let c := coreOf y core
    { c with
      toXfr := if dst.testBit 1 then (pruneWait y core c.toXfr).and w else c.toXfr
      toCol := if dst.testBit 3 then (pruneWait y core c.toCol).and w else c.toCol
      toHst := if dst.testBit 4 then (pruneWait y core c.toHst).and w else c.toHst } := by
  rw [fenceTo, coreOf_setCore, if_pos (by simp)]

/-- What becomes of a class's wait: unless it is in To it stays, else it takes in the From classes. -/
theorem fenced_wait (v : Env) (f : Nat) (old : Wait) (on : Bool) :
    let z := if on then (pruneWait v.s.sys v.core old).and (fenceFrom v.s.sys v.core v.s.gtc f) else old
    (on = false → z = old) ∧ (on = true → z.CoversFrom v f ∧ old.KeepsPending v z) := by
  cases on
  · exact ⟨fun _ => rfl, fun h => absurd h (by decide)⟩
  · exact ⟨fun h => absurd h (by decide), fun _ => ⟨and_fenceFrom_covers .., pruned_and_keeps ..⟩⟩

/-- The early wait of an instruction, as it shows in its checks. -/
theorem earlyWait {late : Bool} {P : Prop} (h : late = true ↔ P) :
    (P → (!late) = false ∧ (if late then some (Stop.fault 4) else none) = some (.fault 4)) ∧
      (¬ P → (!late) = true ∧ (if late then some (Stop.fault 4) else none) = none) := by
  rw [← h]
  cases late <;> simp

theorem sfenceLate_eq_true_iff (v : Env) :
    (!fenceClear v.s.sys v.core v.s.gtc 26 || scalarOut v || (v.dom.st == .run && spadOut v)) = true ↔
      (xferUnderWay v ∨ collUnderWay v ∨ hostDeferred v.s.sys (vdKeyOf v.s.sys v.core) = true ∨
        scalarOut v = true ∨ (v.dom.st = .run ∧ spadOut v = true)) := by
  have hasync : underWay v 26 ↔ xferUnderWay v ∨ collUnderWay v ∨ hostDeferred v.s.sys (vdKeyOf v.s.sys v.core) = true := by
    simp [underWay, show Nat.testBit 26 1 = true from rfl, show Nat.testBit 26 3 = true from rfl, show Nat.testBit 26 4 = true from rfl]
  rw [Bool.or_eq_true, Bool.or_eq_true, Bool.not_eq_true', fenceClear_eq_false_iff, hasync, Bool.and_eq_true, beq_iff_eq]
  tauto

/-! ## The statement -/

/-- Settles O38, instruction by instruction: what xgo decides and enters, what xdrain reports, what pgreq posts, what fences order. -/
theorem transferAdmission : Obligations.TransferAdmission := by
  intro v e d a
  refine ⟨backXgo d a, rfl, ?_⟩
  intro op x ch
  refine ⟨fun h => ?shadow, fun h h' => ?places, fun k h => ?refused, fun due h => ?admitted, fun dd aa bb => ⟨_, rfl, ?xdrain⟩,
    fun dd aa bb => ⟨_, rfl, rfl, rfl, ?pgreq⟩, fun f w => ⟨_, rfl, ?xfence⟩, fun s => ⟨_, _, rfl, rfl, ?sfence⟩⟩
  case shadow => exact if_pos (by rw [h]; rfl)
  case places => exact (if_neg (by rw [h]; decide)).trans (if_pos (by rw [h']; rfl))
  case refused =>
    refine ⟨?_, ?_⟩
    · simp only [op, backXgo, h]
      rfl
    · rw [fire_backXgo_of_refused d a h]
      exact ⟨rfl, rfl⟩
  case admitted =>
    obtain ⟨-, hroom, hlate⟩ := decideXgo_eq_ok h
    have hdue := xferClear_add_le h
    have hneed := eight_le_xferNeed (v := v) (e := e)
    obtain ⟨hnow, hlast⟩ := le_xferClear (v := v) (e := e)
    obtain ⟨q, hxfers, hsched, hfields, hurge, hkind, hstage, hmoves⟩ :=
      admitXfer_enters v e (kindOf e.shadow) due (countXgo v.s.sys v.core)
    obtain ⟨ks, hfire⟩ := fire_backXgo_of_admitted d a h
    refine ⟨by omega, (hlast.trans (Nat.le_add_right ..)).trans hdue, hlate, hroom, ?_, q, ?_, hfields, ?_, hkind, ?_, hmoves, ?_⟩
    · simp only [op, backXgo, h]
      rfl
    · rw [hfire]
      exact hxfers
    · rw [hurge]
      exact Nat.sub_le ..
    · rw [hkind]
      exact hstage
    · rw [hfire]
      exact hsched
  case xdrain =>
    intro sel masked errs
    refine ⟨rfl, fun h => if_pos h, fun h => if_neg (not_not.2 h), fun h => ?_, fun h hnone => ?_, fun h c id st rest hc herr hfirst => ?_⟩
    · obtain ⟨hfire, hissue⟩ := xdrain_of_report v dd aa bb h
      exact ⟨hfire, _, hissue, byte_drainReport v sel⟩
    · exact (xdrain_of_no_error v dd aa bb h (oldestError_of_none hnone)).symm
    · obtain ⟨hcore, hissue⟩ := xdrain_of_error v dd aa bb h (oldestError_of_first hc herr hfirst)
      refine ⟨hissue, ?_, fun k _ hk => ?_⟩
      · rw [hcore, chanAt_setChan _ hc.1]
        exact congrArg (List.drop 1) herr
      · rw [hcore, chanAt_setChan_other _ hk]
  case pgreq =>
    intro vk size now grans need ia queue
    have hsize : 1 < size := by
      dsimp only [size]
      split <;> decide
    refine ⟨nodup_requestGranules .., mem_requestGranules _ _ _ hsize _, fun hreach => ?_⟩
    obtain ⟨y, hy, hfire⟩ := fire_backPgreq dd aa bb v e
    obtain ⟨hreq, hsched⟩ := hy.requested
    obtain ⟨ev, hev, hlen, hget⟩ := foldl_postRequest_posts hreach (requestNeed v e) hreq
    refine ⟨ev, ?_, hlen, fun k q hk => ?_⟩
    · rw [← hsched, ← hev]
      exact congrArg Sys.sched hfire
    · obtain ⟨r, hr, hk⟩ := hget k q hk
      refine ⟨r, _, hk, hr, rfl, ?_⟩
      have hname : requestName v q = ia q := by
        rw [requestName, requestAddr, Option.map_map]
        rfl
      rw [← hname]
      rfl
  case xfence =>
    intro c vk xfr col late now covers keeps bit
    have hnow : now = _ := coreOf_fenceTo ..
    obtain ⟨hlate, hclear⟩ := earlyWait (fenceLate_eq_true_iff v f w)
    rw [hnow]
    exact ⟨hlate, hclear, fenced_wait v f c.toXfr _, fenced_wait v f c.toCol _, fenced_wait v f c.toHst _⟩
  case sfence =>
    intro vk late
    obtain ⟨hlate, hclear⟩ := earlyWait (sfenceLate_eq_true_iff v)
    exact ⟨hlate, hclear, rfl⟩

end Sys2Proof.Machine

/-! PROOFS. The checks of a row's accesses to the scratchpad (R156, R167, R294): where nothing is wrong with its registers, what is wrong
with its elements. -/

namespace Sys2Proof.Machine

/-! ## The checks in their order -/

/-- What is wrong with an element under some accesses: the first address that fails. -/
def addressStop (ps : List Probe) (i : Nat) : Option Stop :=
  ps.findSome? fun p => if p.on i then placeStop p.size i (p.place i) else none

/-- An element at a place is poisoned, for an access of n bytes. -/
def poisonedAt (y : Sys) (n : Nat) (place : Option (Nat × Nat)) : Bool :=
  match place with
  | some (t, o) => touchesPoison (coreOf y t) o n
  | none => false

/-- An element is poisoned under some accesses. -/
def poisonStop (y : Sys) (ps : List Probe) (i : Nat) : Bool := ps.any fun p => p.poison && p.on i && poisonedAt y p.bytes (p.place i)

theorem probeStop_eq (y : Sys) (els : List Nat) (ps : List Probe) (spread : Option Stop) : probeStop y els ps spread =
    ((els.findSome? (addressStop ps)).or spread).or ((els.find? (poisonStop y ps)).map fun i => .trap causePoison i) := by
  show (match els.findSome? (addressStop ps) with
    | some st => some st
    | none => match spread with
      | some st => some st
      | none => (els.find? (poisonStop y ps)).map fun i => .trap causePoison i) = _
  cases els.findSome? (addressStop ps) with
  | some st => rfl
  | none => cases spread <;> rfl

theorem findSome?_congr {α β : Type} {f g : α → Option β} {l : List α} (h : ∀ a ∈ l, f a = g a) : l.findSome? f = l.findSome? g := by
  induction l with
  | nil => rfl
  | cons a l ih => rw [List.findSome?_cons, List.findSome?_cons, h a List.mem_cons_self, ih fun b hb => h b (List.mem_cons_of_mem a hb)]

/-- Accesses that nothing is wrong with do not show. -/
theorem probeStop_append_of_clean {y : Sys} {els : List Nat} {ps : List Probe} (h : probeStop y els ps none = none) (qs : List Probe)
    (spread : Option Stop) : probeStop y els (ps ++ qs) spread = probeStop y els qs spread := by
  rw [probeStop_eq, Option.or_none, Option.or_eq_none_iff, Option.map_eq_none_iff, List.findSome?_eq_none_iff, List.find?_eq_none] at h
  obtain ⟨haddress, hpoison⟩ := h
  have haddress' : els.findSome? (addressStop (ps ++ qs)) = els.findSome? (addressStop qs) := findSome?_congr fun i hi => by
    rw [addressStop, List.findSome?_append]
    exact (congrArg (Option.or · _) (haddress i hi)).trans Option.none_or
  have hpoison' : els.find? (poisonStop y (ps ++ qs)) = els.find? (poisonStop y qs) := List.find?_congr fun i hi => by
    rw [poisonStop, List.any_append]
    exact (congrArg (· || _) (Bool.eq_false_iff.2 (hpoison i hi))).trans (Bool.false_or _)
  rw [probeStop_eq, probeStop_eq, haddress', hpoison']

theorem findSome?_if {α β : Type} (p : α → Bool) (f : α → Option β) (l : List α) :
    (l.findSome? fun a => if p a then f a else none) = (l.filter p).findSome? f := by
  induction l with
  | nil => rfl
  | cons a l ih =>
    rw [List.findSome?_cons, List.filter_cons]
    cases p a
    · exact ih
    · rw [ih]
      rfl

theorem find?_and {α : Type} (p q : α → Bool) (l : List α) : (l.find? fun a => p a && q a) = (l.filter p).find? q := by
  rw [List.find?_filter]
  exact congrArg (List.find? · l) (funext fun a => by simp)

section
variable (a : Access) (v : Env) (e : Entry) (k : Nat) {srcs dsts : List Nat} (place : Nat → Option (Nat × Nat))

/-- The checks of a row of which nothing is wrong with the registers. -/
theorem stop_eq_of_registers (h : v.rowStop e k srcs dsts = none) : a.stop v e k srcs dsts place =
    (((v.activeElems e k).findSome? fun i => placeStop a.size i (place i)).or (a.spreadOf (v.activeElems e k) place)).or
      (((v.activeElems e k).find? fun i => a.poison && poisonedAt v.s.sys a.bytes (place i)).map fun i => .trap causePoison i) := by
  have hsplit : ∀ (own : List Probe) spread, v.rowStop e k srcs dsts own spread =
      if srcs.any v.ringStale then some (.fault 8)
      else probeStop v.s.sys (v.rowElems e k)
        (v.streamProbes e ((srcs.map fun r => (r, v.active e)) ++ dsts.map fun r => (r, v.active e)) ++ own) spread := by
    intro own spread
    rw [Env.rowStop, Env.rowStopOn, List.any_map]
    rfl
  rw [hsplit, List.append_nil] at h
  rw [Access.stop, hsplit]
  split at h
  · cases h
  case isFalse hfresh =>
    rw [if_neg hfresh, probeStop_append_of_clean h, probeStop_eq]
    have haddress : (addressStop [a.probe v e place]) = fun i => if v.active e i then placeStop a.size i (place i) else none := by
      funext i
      simp only [addressStop, Access.probe, List.findSome?_cons, List.findSome?_nil]
      split <;> simp_all
    have hpoison : (poisonStop v.s.sys [a.probe v e place]) =
        fun i => v.active e i && (a.poison && poisonedAt v.s.sys a.bytes (place i)) := by
      funext i
      simp only [poisonStop, Access.probe, List.any_cons, List.any_nil, Bool.or_false]
      rw [Bool.and_comm a.poison, Bool.and_assoc]
    rw [haddress, hpoison, findSome?_if, find?_and]
    rfl

variable {a v e k place} {i : Nat} {l l' : List Nat} (h : v.rowStop e k srcs dsts = none)
include h

theorem stop_of_address (hels : v.activeElems e k = l ++ i :: l') (hbefore : ∀ j ∈ l, placeStop a.size j (place j) = none) {st : Stop}
    (hi : placeStop a.size i (place i) = some st) : a.stop v e k srcs dsts place = some st := by
  rw [stop_eq_of_registers a v e k place h, hels, List.findSome?_append, List.findSome?_eq_none_iff.2 hbefore, Option.none_or,
    List.findSome?_cons, hi]
  rfl

variable (haddress : ∀ j ∈ v.activeElems e k, placeStop a.size j (place j) = none) (hspread : a.spreadOf (v.activeElems e k) place = none)
include haddress hspread

theorem stop_of_poison (hpoison : a.poison = true) (hels : v.activeElems e k = l ++ i :: l')
    (hbefore : ∀ j ∈ l, poisonedAt v.s.sys a.bytes (place j) = false) (hi : poisonedAt v.s.sys a.bytes (place i) = true) :
    a.stop v e k srcs dsts place = some (.trap causePoison i) := by
  have hfind : ((v.activeElems e k).find? fun j => a.poison && poisonedAt v.s.sys a.bytes (place j)) = some i :=
    List.find?_eq_some_iff_append.2 ⟨by simp [hpoison, hi], l, l', hels, fun j hj => by simp [hbefore j hj]⟩
  rw [stop_eq_of_registers a v e k place h, List.findSome?_eq_none_iff.2 haddress, hspread, hfind]
  rfl

theorem stop_of_clean (hclean : a.poison = true → ∀ j ∈ v.activeElems e k, poisonedAt v.s.sys a.bytes (place j) = false) :
    a.stop v e k srcs dsts place = none := by
  have hfind : ((v.activeElems e k).find? fun j => a.poison && poisonedAt v.s.sys a.bytes (place j)) = none :=
    List.find?_eq_none.2 fun j hj => by
      cases hp : a.poison
      · simp
      · simp [hclean hp j hj]
  rw [stop_eq_of_registers a v e k place h, List.findSome?_eq_none_iff.2 haddress, hspread, hfind]
  rfl

end

/-! ## What is wrong with one element -/

section
variable {size i : Nat} {q : Option (Nat × Nat)}

theorem placeStop_eq_none_iff : placeStop size i q = none ↔ ∃ t o, q = some (t, o) ∧ o % size = 0 := by
  cases q with
  | none => simp [placeStop]
  | some p =>
    obtain ⟨t, o⟩ := p
    simp [placeStop]

theorem placeStop_of_none (h : q = none) : placeStop size i q = some (.trap causeSpaddr i) := by rw [h]; rfl

theorem placeStop_of_misaligned {t o : Nat} (h : q = some (t, o)) (ho : o % size ≠ 0) : placeStop size i q = some (.trap causeAlign i) := by
  rw [h]
  exact if_pos ho

theorem touchesPoison_eq_false_iff {c : Core} {o n : Nat} : touchesPoison c o n = false ↔ ∀ j < n, c.poisoned (o + j) = false := by
  simp [touchesPoison]

theorem poisonedAt_eq_false_iff {y : Sys} {n : Nat} :
    poisonedAt y n q = false ↔ ∀ t o, q = some (t, o) → ∀ j < n, (coreOf y t).poisoned (o + j) = false := by
  cases q with
  | none => simp [poisonedAt]
  | some p =>
    rw [poisonedAt, touchesPoison_eq_false_iff]
    exact ⟨fun h t o hp => by cases hp; exact h, fun h => h p.1 p.2 rfl⟩

end

end Sys2Proof.Machine

/-! PROOFS. Rows that read or write the scratchpad (R77, R78, R155 to R164): what a row that passes its checks lands or waits for. -/

namespace Sys2Proof.Machine

/-! ## Places -/

/-- The elements of a row that have a place, each with its value in some registers. -/
def Env.placed (v : Env) (e : Entry) (k : Nat) (place : Nat → Option (Nat × Nat)) (srcs : List Nat) : List Elem :=
  (v.activeElems e k).filterMap fun i => (place i).map fun p => ⟨i, p.1, p.2, v.value e srcs i⟩

/-- The place of element i of an indexed access (log entry 57). -/
def indexPlace (acc : Access) (scale idx b : Nat) (v : Env) (e : Entry) (i : Nat) : Option (Nat × Nat) :=
  (elemAddr v.s.sys v.core b ((scale * v.elem e idx i : Nat) : Int)).filter fun p =>
    decide (acc.bytes ≤ acc.size) || decide (p.2 + acc.bytes ≤ spadSize (coreOf v.s.sys p.1).partN)

section
variable {acc : Access} (scale idx b : Nat) (v : Env) (e : Entry) (i : Nat)

theorem indexPlace_of_fits (h : acc.bytes ≤ acc.size) :
    elemAddr v.s.sys v.core b ((scale * v.elem e idx i : Nat) : Int) = indexPlace acc scale idx b v e i := by
  rw [indexPlace, decide_eq_true h]
  cases elemAddr v.s.sys v.core b ((scale * v.elem e idx i : Nat) : Int) <;> rfl

theorem indexPlace_of_record (h : acc.size < acc.bytes) :
    ((elemAddr v.s.sys v.core b ((scale * v.elem e idx i : Nat) : Int)).filter fun p =>
      decide (p.2 + acc.bytes ≤ spadSize (coreOf v.s.sys p.1).partN)) = indexPlace acc scale idx b v e i := by
  simp [indexPlace, Nat.not_le.2 h]

end

theorem immDisp_zero (size i : Nat) : ((size * i : Nat) : Int) = immDisp 0 size i := by
  simp [immDisp, sx]

/-! ## Loads and indexed access (R157 to R163) -/

/-- A row is done: with nothing to wait for its landings are made at once, else they are made by its read, on a core at a tick. -/
def RowDone (op : Env → BackOp) (v : Env) (k wait core due : Nat) (es : List Elem) (lands : Env → List Landing) : Prop :=
  (wait = 0 → (op v).sample k = .ok (lands v, [])) ∧
  (wait ≠ 0 → ∃ p, (op v).sample k = .ok ([], [p]) ∧ p.elems = es ∧ p.core = core ∧ p.due = due ∧ ∀ z, (op z).access p = lands z)

/-- What holds of the landings of a row that is done. -/
theorem RowDone.lands {op : Env → BackOp} {v : Env} {k wait core due : Nat} {es : List Elem} {lands : Env → List Landing}
    (h : RowDone op v k wait core due es lands) {P : Env → List Landing → Prop} (hP : ∀ z, P z (lands z)) :
    (wait = 0 → ∃ ls, (op v).sample k = .ok (ls, []) ∧ P v ls) ∧
    (wait ≠ 0 → ∃ p, (op v).sample k = .ok ([], [p]) ∧ p.elems = es ∧ p.core = core ∧ p.due = due ∧ ∀ z, P z ((op z).access p)) := by
  refine ⟨fun hw => ⟨_, h.1 hw, hP v⟩, fun hw => ?_⟩
  obtain ⟨p, hsample, hes, hcore, hdue, haccess⟩ := h.2 hw
  exact ⟨p, hsample, hes, hcore, hdue, fun z => haccess z ▸ hP z⟩

section
variable {size b : Nat} {strided poison : Bool} {disp : Nat → Int} {more : Env → Entry → Nat → Option Stop}
  {lands : Env → Entry → Nat → Nat → List Elem → List Landing} {dsts : List Nat} {v : Env} {e : Entry} {k : Nat}

theorem sample_loadOp_of_more {st : Stop} (h : more v e k = some st) :
    (loadOp size b strided poison disp more lands dsts v e).sample k = .error st := by
  simp only [loadOp, h]

variable {place : Nat → Option (Nat × Nat)} (hplace : ∀ i, place i = elemAddr v.s.sys v.core b (disp i)) (hmore : more v e k = none)
include hplace hmore

theorem sample_loadOp_of_stop {st : Stop} (h : Access.stop ⟨size, size, strided, poison⟩ v e k [] dsts place = some st) :
    (loadOp size b strided poison disp more lands dsts v e).sample k = .error st := by
  rw [funext hplace] at h
  simp only [loadOp, hmore, h]

theorem loadOp_done (h : Access.stop ⟨size, size, strided, poison⟩ v e k [] dsts place = none) :
    RowDone (fun z => loadOp size b strided poison disp more lands dsts z e) v k (baseDelay v b) (baseCore v b)
      (e.t v + k + baseDelay v b / 2) (v.placed e k place []) fun z => lands z e k (baseDelay z b) (v.placed e k place []) := by
  rw [funext hplace] at h ⊢
  refine ⟨fun hx => ?_, fun hx => ?_⟩
  · simp only [loadOp, hmore, h, hx]
    rfl
  · simp only [loadOp, hmore, h, if_neg hx]
    exact ⟨_, rfl, rfl, rfl, rfl, fun _ => rfl⟩

end

section
variable {acc : Access} {scale idx b delay : Nat} {srcs dsts : List Nat} {run : Env → Entry → Nat → Nat → List Elem → List Landing}
  {v : Env} {e : Entry} {k : Nat}

theorem indexedOp_done {op : Env → BackOp} (hop : ∀ z, op z = indexedOp acc scale idx b delay srcs dsts run z e)
    {place : Nat → Option (Nat × Nat)} (hplace : ∀ i, place i = indexPlace acc scale idx b v e i)
    (h : acc.stop v e k (idx :: srcs) dsts place = none) :
    RowDone op v k (delay + baseDelay v b) (baseCore v b) (e.t v + 4 + k + delay + baseDelay v b / 2) (v.placed e k place srcs)
      fun z => run z e k (baseDelay z b) (v.placed e k place srcs) := by
  obtain rfl : op = _ := funext hop
  obtain rfl : place = _ := funext hplace
  unfold indexPlace at h
  refine ⟨fun hx => ?_, fun hx => ?_⟩
  · obtain ⟨hdelay, hcross⟩ := Nat.add_eq_zero_iff.1 hx
    simp only [indexedOp, h, hdelay, hcross, decide_true, Bool.and_self, if_true]
    rfl
  · have hx' : ¬ (decide (delay = 0) && decide (baseDelay v b = 0)) = true := by
      simpa only [Bool.and_eq_true, decide_eq_true_eq, ← Nat.add_eq_zero_iff] using hx
    simp only [indexedOp, h, if_neg hx']
    exact ⟨_, rfl, rfl, rfl, rfl, fun _ => rfl⟩

end

/-! ## Stores (R157) -/

theorem sample_storeOp {size b : Nat} {strided : Bool} {srcs : List Nat} {disp : Nat → Int} {v : Env} {e : Entry} {k : Nat}
    {place : Nat → Option (Nat × Nat)} (hplace : ∀ i, place i = elemAddr v.s.sys v.core b (disp i))
    (h : Access.stop ⟨size, size, strided, false⟩ v e k srcs [] place = none) :
    (storeOp size b strided srcs disp v e).sample k =
      .ok (spadLandings v e (e.t v + 4 + k + baseDelay v b / 2) b (if strided then allBanks else contigBanks v e b disp size k)
        ((v.activeElems e k).flatMap fun i => match place i with
          | some (_, o) => (List.range size).map fun p => (o + p, BitVec.ofNat 8 (v.value e srcs i / 256 ^ p))
          | none => []), []) := by
  rw [funext hplace] at h ⊢
  simp only [storeOp, h] <;> rfl

end Sys2Proof.Machine

/-! PROOFS. What the atomic rows make of each address they touch (R162, R163): the updates of vscadd, vscadd.bin and vamo. -/

namespace Sys2Proof.Machine

/-! ## A value for each address (R162) -/

/-- An element takes part in the value of its address: it starts one, or takes a step of the one that is there. -/
def gather {β : Type} (start : Elem → β) (step : β → Elem → β) (us : List (Nat × β)) (p : Elem) : List (Nat × β) :=
  if us.any fun u => u.1 == p.off then us.map fun u => if u.1 == p.off then (u.1, step u.2 p) else u
  else us ++ [(p.off, start p)]

/-- Each address of some elements has one value: the steps of its elements in order, from the first one's start. -/
def Gathers {β : Type} (start : Elem → β) (step : β → Elem → β) (es : List Elem) (us : List (Nat × β)) : Prop :=
  (us.map Prod.fst).Nodup ∧ (∀ o, o ∈ us.map Prod.fst ↔ ∃ p ∈ es, p.off = o) ∧
  ∀ u ∈ us, ∀ p l, (es.filter fun q => q.off == u.1) = p :: l → u.2 = l.foldl step (start p)

section
variable {β : Type} {start : Elem → β} {step : β → Elem → β} {es : List Elem} {us : List (Nat × β)}

theorem any_off_iff {o : Nat} : (us.any fun u => u.1 == o) = true ↔ o ∈ us.map Prod.fst := by
  simp

theorem Gathers.nil : Gathers start step [] ([] : List (Nat × β)) :=
  ⟨List.nodup_nil, fun o => by simp, fun _ h => absurd h List.not_mem_nil⟩

/-- The elements of an address, with one more element. -/
theorem filter_off_concat (es : List Elem) (q : Elem) (o : Nat) : ((es ++ [q]).filter fun p => p.off == o) =
    (es.filter fun p => p.off == o) ++ if q.off = o then [q] else [] := by
  rw [List.filter_append, List.filter_cons, List.filter_nil]
  exact congrArg (_ ++ ·) (if_congr beq_iff_eq rfl rfl)

theorem Gathers.exists_off_concat (h : Gathers start step es us) (q : Elem) (o : Nat) :
    (∃ p ∈ es ++ [q], p.off = o) ↔ o ∈ us.map Prod.fst ∨ q.off = o := by
  simp only [List.mem_append, List.mem_singleton, or_and_right, exists_or, exists_eq_left, h.2.1]

/-- One more element of an address that has a value. -/
theorem Gathers.step_of_mem (h : Gathers start step es us) {q : Elem} (hmem : q.off ∈ us.map Prod.fst) :
    Gathers start step (es ++ [q]) (us.map fun u => if u.1 == q.off then (u.1, step u.2 q) else u) := by
  have hexists := h.exists_off_concat q
  obtain ⟨hnodup, hkeys, hvals⟩ := h
  have hfst : (us.map fun u => if u.1 == q.off then (u.1, step u.2 q) else u).map Prod.fst = us.map Prod.fst := by
    rw [List.map_map]
    refine List.map_congr_left fun u _ => ?_
    dsimp only [Function.comp]
    split <;> rfl
  refine ⟨hfst ▸ hnodup, fun o => ?_, fun u hu p l hfilter => ?_⟩
  · rw [hfst, hexists]
    exact ⟨.inl, fun ho => ho.elim id fun hqo => hqo ▸ hmem⟩
  · obtain ⟨w, hw, rfl⟩ := List.mem_map.1 hu
    rw [filter_off_concat] at hfilter
    by_cases hoff : w.1 = q.off
    · rw [if_pos (beq_iff_eq.2 hoff)] at hfilter ⊢
      dsimp only at hfilter ⊢
      rw [if_pos hoff.symm] at hfilter
      obtain ⟨p', hp', hpoff⟩ := (hkeys w.1).1 (List.mem_map_of_mem hw)
      cases hfirst : es.filter fun p => p.off == w.1 with
      | nil => exact absurd (beq_iff_eq.2 hpoff) (List.filter_eq_nil_iff.1 hfirst p' hp')
      | cons p₀ l₀ =>
        rw [hfirst, List.cons_append, List.cons.injEq] at hfilter
        obtain ⟨rfl, rfl⟩ := hfilter
        rw [List.foldl_append, ← hvals w hw _ _ hfirst]
        rfl
    · rw [if_neg (mt beq_iff_eq.1 hoff)] at hfilter ⊢
      rw [if_neg (Ne.symm hoff), List.append_nil] at hfilter
      exact hvals w hw p l hfilter

/-- The first element of an address. -/
theorem Gathers.start_of_not_mem (h : Gathers start step es us) {q : Elem} (hfresh : q.off ∉ us.map Prod.fst) :
    Gathers start step (es ++ [q]) (us ++ [(q.off, start q)]) := by
  have hexists := h.exists_off_concat q
  obtain ⟨hnodup, hkeys, hvals⟩ := h
  have hfst : (us ++ [(q.off, start q)]).map Prod.fst = (us.map Prod.fst).concat q.off := by simp
  refine ⟨hfst ▸ hnodup.concat hfresh, fun o => ?_, fun u hu p l hfilter => ?_⟩
  · rw [hexists, List.map_append, List.mem_append]
    exact or_congr_right (List.mem_singleton.trans eq_comm)
  · rw [filter_off_concat] at hfilter
    obtain hu | hu := List.mem_append.1 hu
    · have hoff : q.off ≠ u.1 := fun h => hfresh (h ▸ List.mem_map_of_mem hu)
      rw [if_neg hoff, List.append_nil] at hfilter
      exact hvals u hu p l hfilter
    · obtain rfl := List.mem_singleton.1 hu
      have hnone : (es.filter fun p => p.off == q.off) = [] :=
        List.filter_eq_nil_iff.2 fun p hp => mt beq_iff_eq.1 fun hpoff => hfresh ((hkeys q.off).2 ⟨p, hp, hpoff⟩)
      rw [hnone, if_pos rfl, List.nil_append, List.cons.injEq] at hfilter
      obtain ⟨rfl, rfl⟩ := hfilter
      rfl

theorem Gathers.concat (h : Gathers start step es us) (q : Elem) : Gathers start step (es ++ [q]) (gather start step us q) := by
  unfold gather
  split
  case isTrue hold => exact h.step_of_mem (any_off_iff.1 hold)
  case isFalse hnew => exact h.start_of_not_mem (mt any_off_iff.2 hnew)

theorem gathers_foldl (es : List Elem) : Gathers start step es (es.foldl (gather start step) []) := by
  induction es using List.reverseRecOn with
  | nil => exact .nil
  | append_singleton es q ih =>
    rw [List.foldl_append]
    exact ih.concat q

end

/-! ## vscadd (R162) -/

theorem mergeRow_eq (e : Entry) (es : List Elem) : mergeRow e es =
    es.foldl (gather (fun p => (p.idx, p.data)) fun g q => (g.1, addSubs e g.1 g.2 q.data)) [] := rfl

/-- The lowest element of an address stays; the sum takes in the others in order. -/
theorem foldl_merge (e : Entry) (i m : Nat) (l : List Elem) :
    l.foldl (fun (g : Nat × Nat) q => (g.1, addSubs e g.1 g.2 q.data)) (i, m) =
      (i, l.foldl (fun m q => addSubs e i m q.data) m) := by
  induction l generalizing m with
  | nil => rfl
  | cons q l ih => exact ih _

/-- What the updates of a row are (R162, R163): each address of its elements once, with a value from them in order. -/
def Updates (es : List Elem) (us : List (Nat × Nat)) (f : Nat → Elem → List Elem → Nat) : Prop :=
  (us.map Prod.fst).Nodup ∧ (∀ o, o ∈ us.map Prod.fst ↔ ∃ p ∈ es, p.off = o) ∧
  ∀ w ∈ us, ∀ p l, (es.filter fun q => q.off == w.1) = p :: l → w.2 = f w.1 p l

theorem mergeRow_updates (e : Entry) (old : Nat → Nat) (es : List Elem) :
    Updates es ((mergeRow e es).map fun g => (g.1, addSubs e g.2.1 (old g.1) g.2.2)) fun o p l =>
      addSubs e p.idx (old o) (l.foldl (fun m q => addSubs e p.idx m q.data) p.data) := by
  rw [mergeRow_eq]
  obtain ⟨hnodup, hkeys, hvals⟩ := gathers_foldl (start := fun p => (p.idx, p.data))
    (step := fun g q => (g.1, addSubs e g.1 g.2 q.data)) es
  refine ⟨?_, fun o => ?_, fun w hw p l hfilter => ?_⟩
  · rw [List.map_map]
    exact hnodup
  · rw [List.map_map]
    exact hkeys o
  · obtain ⟨g, hg, rfl⟩ := List.mem_map.1 hw
    dsimp only at hfilter ⊢
    rw [hvals g hg p l hfilter, foldl_merge]

/-! ## vscadd.bin and vamo (R162, R163) -/

/-- An element acts on what its address holds: on its old value, or on what an earlier element has left there. -/
def actOn (act : Nat → Elem → Nat) (old : Nat → Nat) (us : List (Nat × Nat)) (p : Elem) : List (Nat × Nat) :=
  gather (fun p => act (old p.off) p) act us p

/-- What an address holds after some elements. -/
def leftAt (old : Nat → Nat) (us : List (Nat × Nat)) (o : Nat) : Nat := ((us.find? fun u => u.1 == o).map Prod.snd).getD (old o)

section
variable (act : Nat → Elem → Nat) (old : Nat → Nat)

theorem leftAt_of_mem {us : List (Nat × Nat)} (h : (us.map Prod.fst).Nodup) {u : Nat × Nat} (hu : u ∈ us) : leftAt old us u.1 = u.2 := by
  obtain ⟨w, hw⟩ := Option.isSome_iff_exists.1 (List.find?_isSome (p := fun w => w.1 == u.1).2 ⟨u, hu, beq_self_eq_true u.1⟩)
  have hkey : w.1 = u.1 := beq_iff_eq.1 (List.find?_some (p := fun w : Nat × Nat => w.1 == u.1) hw)
  rw [leftAt, hw, ← List.inj_on_of_nodup_map h (List.mem_of_find?_eq_some hw) hu hkey]
  rfl

theorem leftAt_of_not_mem {us : List (Nat × Nat)} {o : Nat} (h : ¬ (us.any fun u => u.1 == o) = true) : leftAt old us o = old o := by
  have hnone : (us.find? fun u => u.1 == o) = none := List.find?_eq_none.2 fun u hu hoff => h (List.any_eq_true.2 ⟨u, hu, hoff⟩)
  rw [leftAt, hnone]
  rfl

theorem foldl_actOn_updates (es : List Elem) :
    Updates es (es.foldl (actOn act old) []) fun o p l => (p :: l).foldl act (old o) := by
  obtain ⟨hnodup, hkeys, hvals⟩ := gathers_foldl (start := fun p => act (old p.off) p) (step := act) es
  refine ⟨hnodup, hkeys, fun w hw p l hfilter => ?_⟩
  have hp : p ∈ es.filter fun q => q.off == w.1 := hfilter ▸ List.mem_cons_self
  have hoff : p.off = w.1 := beq_iff_eq.1 (List.mem_filter.1 hp).2
  rw [hvals w hw p l hfilter, ← hoff]
  rfl

theorem leftAt_foldl (es : List Elem) (o : Nat) :
    leftAt old (es.foldl (actOn act old) []) o = (es.filter fun p => p.off == o).foldl act (old o) := by
  obtain ⟨hnodup, hkeys, hvals⟩ := foldl_actOn_updates act old es
  cases hfilter : es.filter fun p => p.off == o with
  | nil =>
    refine leftAt_of_not_mem old (mt any_off_iff.1 fun hmem => ?_)
    obtain ⟨p, hp, hoff⟩ := (hkeys o).1 hmem
    exact List.filter_eq_nil_iff.1 hfilter p hp (beq_iff_eq.2 hoff)
  | cons p l =>
    have hp : p ∈ es.filter fun q => q.off == o := hfilter ▸ List.mem_cons_self
    obtain ⟨hes, hoff⟩ := List.mem_filter.1 hp
    obtain ⟨u, hu, rfl⟩ := List.mem_map.1 ((hkeys o).2 ⟨p, hes, beq_iff_eq.1 hoff⟩)
    rw [leftAt_of_mem old hnodup hu, hvals u hu p l hfilter]

/-- The same as the model writes it: all pairs of the address, of which there is one at most, take one value. -/
def actStep (us : List (Nat × Nat)) (p : Elem) : List (Nat × Nat) :=
  let cur := ((us.find? fun u => u.1 == p.off).map Prod.snd).getD (old p.off)
  let new := act cur p
  if us.any fun u => u.1 == p.off then us.map fun u => if u.1 == p.off then (u.1, new) else u else us ++ [(p.off, new)]

theorem actStep_eq {us : List (Nat × Nat)} (h : (us.map Prod.fst).Nodup) (p : Elem) : actStep act old us p = actOn act old us p := by
  unfold actOn gather
  show (if us.any fun u => u.1 == p.off then us.map fun u => if u.1 == p.off then (u.1, act (leftAt old us p.off) p) else u
    else us ++ [(p.off, act (leftAt old us p.off) p)]) = _
  split
  case isTrue =>
    refine List.map_congr_left fun u hu => ?_
    split
    case isTrue hoff => rw [← leftAt_of_mem old h hu, beq_iff_eq.1 hoff]
    case isFalse => rfl
  case isFalse hnew => rw [leftAt_of_not_mem old hnew]

theorem foldl_actStep (es : List Elem) : es.foldl (actStep act old) [] = es.foldl (actOn act old) [] := by
  induction es using List.reverseRecOn with
  | nil => rfl
  | append_singleton es q ih =>
    rw [List.foldl_append, List.foldl_append, ih]
    exact actStep_eq act old (foldl_actOn_updates act old es).1 q

end

/-- A value added to a record (R162). -/
def addToRecord (e : Entry) (cur : Nat) (q : Elem) : Nat :=
  ofBytes (((recordOf cur).add ((fmtOf e.mode.ety).val q.data) (binBase e.bin)).words.flatMap (toBytes 4))

theorem binRow_eq (e : Entry) (old : Nat → Nat) (es : List Elem) : binRow e old es = es.foldl (actOn (addToRecord e) old) [] := by
  rw [← foldl_actStep]
  rfl

section
variable (t : ETy) (op : Nat) (old : Nat → Nat)

/-- The action of vamo. -/
def amoAct (cur : Nat) (q : Elem) : Nat := amoOf t op cur q.data

/-- What an element of a row takes: what those before it have left at its address. -/
def amoTaken (es : List Elem) (p : Elem) : Nat :=
  (es.filter fun q => q.off == p.off && decide (q.idx < p.idx)).foldl (amoAct t op) (old p.off)

theorem amoTaken_concat_of_lt {es : List Elem} {p q : Elem} (h : p.idx < q.idx) :
    amoTaken t op old (es ++ [q]) p = amoTaken t op old es p := by
  have hnot : (q.off == p.off && decide (q.idx < p.idx)) = false := by simp [Nat.not_lt.2 h.le]
  rw [amoTaken, List.filter_append, List.filter_cons, hnot]
  simp [amoTaken]

theorem amoTaken_concat_self {es : List Elem} {q : Elem} (h : ∀ p ∈ es, p.idx < q.idx) :
    amoTaken t op old (es ++ [q]) q = leftAt old (es.foldl (actOn (amoAct t op) old) []) q.off := by
  have hself : (q.off == q.off && decide (q.idx < q.idx)) = false := by simp
  have hes : (es.filter fun p => p.off == q.off && decide (p.idx < q.idx)) = es.filter fun p => p.off == q.off :=
    List.filter_congr fun p hp => by simp [h p hp]
  rw [leftAt_foldl, amoTaken, List.filter_append, hes, List.filter_cons, hself]
  simp

/-- vamo leaves at each address what its elements make of it in order, and gives each element what those before it have left
(R163). -/
theorem amoRow_eq {es : List Elem} (h : es.Pairwise fun p q => p.idx < q.idx) :
    amoRow t op old es = (es.foldl (actOn (amoAct t op) old) [], es.map fun p => (p.idx, amoTaken t op old es p)) := by
  induction es using List.reverseRecOn with
  | nil => rfl
  | append_singleton es q ih =>
    obtain ⟨hes, -, hlast⟩ := List.pairwise_append.1 h
    have hbefore : ∀ p ∈ es, p.idx < q.idx := fun p hp => hlast p hp q (List.mem_singleton_self q)
    have hstep : amoRow t op old (es ++ [q]) = (actStep (amoAct t op) old (amoRow t op old es).1 q,
        (amoRow t op old es).2 ++ [(q.idx, leftAt old (amoRow t op old es).1 q.off)]) := by
      rw [amoRow, List.foldl_append]
      rfl
    rw [hstep, ih hes, actStep_eq _ _ (foldl_actOn_updates ..).1, List.foldl_append, List.map_append, List.map_singleton,
      amoTaken_concat_self t op old hbefore]
    refine Prod.ext rfl (congrArg (· ++ _) (List.map_congr_left fun p hp => ?_))
    rw [amoTaken_concat_of_lt t op old (hbefore p hp)]

end

end Sys2Proof.Machine

/-! PROOFS. Contiguous and strided rows of 32-bit elements in the own scratchpad (R155 to R157). -/

namespace Sys2Proof.Machine

/-! ## What a load's row lands -/

theorem mem_placed {v : Env} {e : Entry} {k : Nat} {place : Nat → Option (Nat × Nat)} {srcs : List Nat} {p : Elem} :
    p ∈ v.placed e k place srcs ↔
      ∃ i ∈ v.activeElems e k, ∃ t o, place i = some (t, o) ∧ p = ⟨i, t, o, v.value e srcs i⟩ := by
  simp only [Env.placed, List.mem_filterMap, Option.map_eq_some_iff, Prod.exists, @eq_comm _ _ p]

theorem ofBytes_lt (l : List Byte) : ofBytes l < 256 ^ l.length := by
  induction l with
  | nil => exact Nat.one_pos
  | cons b l ih =>
    have hb := b.isLt
    rw [ofBytes, List.length_cons, Nat.pow_succ]
    omega

theorem snat_lt (c : Core) (off n : Nat) : c.snat off n < 256 ^ n := by
  rw [snat_eq]
  simpa using ofBytes_lt ((List.range n).map fun j => c.sbyte (off + j))

/-- The value at the number of an element that is listed, where it is listed with one value. -/
theorem getD_find?_listed {vals : List (Nat × Nat)} {i x : Nat} (f : Nat → Nat) (hmem : (i, x) ∈ vals)
    (hone : ∀ y, (i, y) ∈ vals → y = x) : ((vals.find? fun p => p.1 == i).map fun p => f p.2).getD 0 = f x := by
  obtain ⟨⟨j, y⟩, hw⟩ := Option.isSome_iff_exists.1 (List.find?_isSome (p := fun p : Nat × Nat => p.1 == i).2 ⟨_, hmem, beq_self_eq_true i⟩)
  obtain rfl : j = i := beq_iff_eq.1 (List.find?_some (p := fun p : Nat × Nat => p.1 == i) hw)
  rw [hw, ← hone y (List.mem_of_find?_eq_some hw)]
  rfl

section
variable {v : Env} {e : Entry} {d k b : Nat} {strided : Bool} {disp : Nat → Int} {place : Nat → Option (Nat × Nat)}
  (hplace : ∀ i, place i = elemAddr v.s.sys v.core b (disp i))
include hplace

/-- A row of a plain load of words from the own scratchpad. -/
theorem sample_plainLoad (hown : baseDelay v b = 0) (h : Access.stop ⟨4, 4, strided, true⟩ v e k [] [d] place = none)
    (hall : ∀ i ∈ v.activeElems e k, ∃ t o, place i = some (t, o)) :
    ∃ (p : Nat → Bool) (f : Nat → Nat),
      (loadOp 4 b strided true disp (fun _ _ _ => none) (plainLands 4 [d]) [d] v e).sample k =
        .ok ([landRow v e (e.t v + 6 + k) d k p f (k + 1 == v.c.rows e.vl)], []) ∧
      (∀ i, p i = true ↔ i ∈ v.activeElems e k) ∧
      ∀ i ∈ v.activeElems e k, ∀ t o, place i = some (t, o) → f i = (coreOf v.s.sys t).snat o 4 := by
  have hsample := (loadOp_done (more := fun _ _ _ => none) (lands := plainLands 4 [d]) hplace rfl h).1 hown
  simp only [hown] at hsample
  have hmem : ∀ i x, (i, x) ∈ ((v.placed e k place []).map fun p => (p.idx, readAt v p.core p.off 4)) ↔
      i ∈ v.activeElems e k ∧ ∃ t o, place i = some (t, o) ∧ x = (coreOf v.s.sys t).snat o 4 := by
    intro i x
    simp only [List.mem_map, mem_placed]
    constructor
    · rintro ⟨_, ⟨j, hj, t, o, hto, rfl⟩, heq⟩
      cases heq
      exact ⟨hj, t, o, hto, rfl⟩
    · rintro ⟨hi, t, o, hto, rfl⟩
      exact ⟨_, ⟨i, hi, t, o, hto, rfl⟩, rfl⟩
  refine ⟨_, _, hsample, fun i => ?_, fun i hi t o hto => ?_⟩
  · simp only [List.any_eq_true, beq_iff_eq, Prod.exists, hmem]
    constructor
    · rintro ⟨_, _, ⟨hi, _⟩, rfl⟩
      exact hi
    · intro hi
      obtain ⟨t, o, hto⟩ := hall i hi
      exact ⟨i, _, ⟨hi, t, o, hto, rfl⟩, rfl⟩
  · have hlt := snat_lt (coreOf v.s.sys t) o 4
    refine (getD_find?_listed (fun x => x / 4294967296 ^ 0 % 4294967296) ((hmem i _).2 ⟨hi, t, o, hto, rfl⟩) fun y hy => ?_).trans ?_
    · obtain ⟨-, t', o', hto', rfl⟩ := (hmem i y).1 hy
      cases hto.symm.trans hto'
      rfl
    · omega

/-- A row of a contiguous store of words to the own scratchpad. -/
theorem sample_plainStore (hown : baseDelay v b = 0) (h : Access.stop ⟨4, 4, false, false⟩ v e k [d] [] place = none) :
    (storeOp 4 b false [d] disp v e).sample k = .ok (spadLandings v e (e.t v + 4 + k) b (contigBanks v e b disp 4 k)
      ((v.activeElems e k).flatMap fun i => match place i with
        | some (_, o) => (List.range 4).map fun p => (o + p, BitVec.ofNat 8 (v.elem e d i / 256 ^ p))
        | none => []), []) := by
  rw [sample_storeOp hplace h, hown]
  rfl

end

section
variable {v : Env} {e : Entry} (d a x : Nat) (h : wideOf e.mode.ety = false)
include h

theorem op_backVld_of_narrow : (backVld d a x).op v e =
    loadOp 4 (e.op 0) false true (immDisp x 4) (fun _ _ _ => none) (plainLands 4 [d]) [d] v e := by
  simp only [backVld, elemSize, pairOf, h]
  rfl

theorem op_backVlds_of_narrow : (backVlds d a x).op v e =
    loadOp 4 (e.op 0) true true (strideDisp e) (fun _ _ _ => none) (plainLands 4 [d]) [d] v e := by
  simp only [backVlds, elemSize, pairOf, h]
  rfl

theorem op_backVst_of_narrow : (backVst d a x).op v e = storeOp 4 (e.op 0) false [d] (immDisp x 4) v e := by
  simp only [backVst, elemSize, pairOf, h]
  rfl

end

end Sys2Proof.Machine

/-! PROOFS. Rows of mask registers, the operations of vamo, and the binding of streams (R54, R163 to R166). -/

namespace Sys2Proof.Machine

/-! ## The operations of vamo (R163) -/

/-- vamo's minimum and maximum are those of the readings by which its type compares. -/
theorem amoOf_min_max {t : ETy} {α : Type} [LinearOrder α] {f : Nat → α} (hlt : ∀ a b, intLt t a b = decide (f a < f b)) (x y : Nat) :
    f (amoOf t 1 x y) = min (f x) (f y) ∧ f (amoOf t 2 x y) = max (f x) (f y) := by
  have hmin : amoOf t 1 x y = if intLt t y x then y else x := rfl
  have hmax : amoOf t 2 x y = if intLt t x y then y else x := rfl
  rw [hmin, hmax, hlt, hlt]
  simp only [decide_eq_true_eq, apply_ite f]
  refine ⟨?_, ?_⟩
  · split
    case isTrue h => exact (min_eq_right h.le).symm
    case isFalse h => exact (min_eq_left (not_lt.1 h)).symm
  · split
    case isTrue h => exact (max_eq_right h.le).symm
    case isFalse h => exact (max_eq_left (not_lt.1 h)).symm

theorem intLt_i32 (a b : Nat) : intLt .i32 a b = decide (sx 32 a < sx 32 b) := rfl

theorem intLt_uint32 (a b : Nat) : intLt .uint32 a b = decide (a < b) := rfl

/-! ## The places of masks and pattern records (R155, R164, R165) -/

theorem Entry.op_lt (e : Entry) (n : Nat) : e.op n < 2 ^ 64 := BitVec.isLt _

/-- An address that names a place has no bit from 30 on. -/
theorem lt_of_spAddr {y : Sys} {core a x o : Nat} (h : spAddr y core a = some (x, o)) (ha : a < 2 ^ 64) : a < 2 ^ 30 := by
  have htarget := (spAddr_eq_some h).1
  unfold spTarget at htarget
  split at htarget
  · cases htarget
  case isFalse hhigh =>
    rw [not_not, field] at hhigh
    omega

section
variable {v : Env} {e : Entry}

theorem place64_of_none (h : spAddr v.s.sys v.core (e.op 0) = none) : place64 v (e.op 0) = .error (.trap causeSpaddr 0) := by
  have hplace : (if 4294967296 ≤ e.op 0 then none else spAddr v.s.sys v.core (e.op 0)) = none := by rw [h, ite_self]
  rw [place64, hplace]

variable {x o : Nat} (h : spAddr v.s.sys v.core (e.op 0) = some (x, o))
include h

theorem place64_of_some : place64 v (e.op 0) = if o % 64 ≠ 0 then .error (.trap causeAlign 0) else .ok (x, o) := by
  have hlt := lt_of_spAddr h (e.op_lt 0)
  rw [place64, if_neg (by omega), h]

theorem place64_of_aligned (ho : o % 64 = 0) : place64 v (e.op 0) = .ok (x, o) := (place64_of_some h).trans (if_neg (not_not.2 ho))

theorem baseCore_of_spAddr : baseCore v (e.op 0) = x := by
  have hlow : field (e.op 0) 29 0 = e.op 0 := by
    have hlt := lt_of_spAddr h (e.op_lt 0)
    rw [field]
    omega
  rw [baseCore, hlow, (spAddr_eq_some h).1]
  rfl

end

/-! ## Mask rows (R164) -/

section
variable {v : Env} {e : Entry} (hstart : e.start = 0)
include hstart

theorem maskPlace_of_error {st : Stop} (h : place64 v (e.op 0) = .error st) (read : Bool) : maskPlace v e read = .error st := by
  rw [maskPlace, hstart, if_neg (Nat.lt_irrefl 0), h]

theorem maskPlace_of_ok {x o : Nat} (h : place64 v (e.op 0) = .ok (x, o)) (read : Bool) : maskPlace v e read =
    if read && (coreOf v.s.sys x).poisoned o then .error (.trap causePoison 0) else .ok (some (x, o)) := by
  rw [maskPlace, hstart, if_neg (Nat.lt_irrefl 0), h]

theorem landWholeMask_mod (due d bits : Nat) : landWholeMask v e due d (bits % 2 ^ e.vl) =
    (List.range 8).map fun r => landMask v e due d r (fun _ => true) (fun i => decide (i < e.vl) && bits.testBit i) (r == 7) := by
  refine List.map_congr_left fun r _ => ?_
  have hon : (fun i => decide (e.start ≤ i)) = fun _ => true := funext fun i => by simp [hstart]
  have hbits : (bits % 2 ^ e.vl).testBit = fun i => decide (i < e.vl) && bits.testBit i := funext fun i => Nat.testBit_mod_two_pow ..
  rw [hon, hbits]

end

section
variable {v : Env} {e : Entry} (d a k : Nat)

theorem sample_backMld_of_error {st : Stop} (h : maskPlace v e true = .error st) : ((backMld d a).op v e).sample k = .error st := by
  simp only [backMld, h]

theorem sample_backMst_of_error {st : Stop} (h : maskPlace v e false = .error st) : ((backMst d a).op v e).sample k = .error st := by
  simp only [backMst, h]

/-- A mask that is loaded: at once from the own scratchpad, from another core's by a read. -/
theorem backMld_done {x o : Nat} (h : maskPlace v e true = .ok (some (x, o))) :
    RowDone (fun z => (backMld d a).op z e) v k (baseDelay v (e.op 0)) x (e.t v + baseDelay v (e.op 0) / 2) [⟨0, x, o, 0⟩]
      fun z => landWholeMask z e (e.t z + 6 + baseDelay z (e.op 0)) d ((coreOf z.s.sys x).snat o 64 % 2 ^ e.vl) := by
  refine ⟨fun hx => ?_, fun hx => ?_⟩
  · simp only [backMld, h, hx, if_true, List.flatMap_cons, List.flatMap_nil, List.append_nil]
    rfl
  · simp only [backMld, h, if_neg hx, List.flatMap_cons, List.flatMap_nil, List.append_nil]
    exact ⟨_, rfl, rfl, rfl, rfl, fun z => List.append_nil _⟩

theorem sample_backMst_of_ok {x o : Nat} (hstart : e.start = 0) (h : maskPlace v e false = .ok (some (x, o))) :
    ((backMst d a).op v e).sample k = .ok (spadLandings v e (e.t v + 4 + baseDelay v (e.op 0) / 2) (e.op 0) (banksOf o 64)
      ((List.range ((e.vl + 7) / 8)).map fun p =>
        (o + p, BitVec.ofNat 8 (maskOf 8 fun i => decide (8 * p + i < e.vl) && v.c.mbit d (8 * p + i)))), []) := by
  have hall : ((List.range (ceilDiv e.vl 8)).filter fun p => decide (0 < 8 * p + 8)) = List.range ((e.vl + 7) / 8) := by
    rw [List.filter_eq_self.2 fun p _ => by simp]
    rfl
  simp only [backMst, h, hstart, hall, Nat.not_lt_zero, if_false]

end

/-! ## Pattern records (R165) -/

/-- A pattern record obeys R165. -/
def PatternOk (m : Core) (o : Nat) : Prop :=
  let w := fun i => m.snat (o + i) 4
  m.snat (o + 4) 1 ≤ 1 ∧ m.snat (o + 5) 3 = 0 ∧ w 0x14 = 0 ∧ w 0x24 = 0 ∧ m.snat (o + 0x34) 1 ≤ 1 ∧ m.snat (o + 0x35) 11 = 0 ∧
  (∀ c ∈ [w 0x08, w 0x0C, w 0x10], 1 ≤ c ∧ c ≤ 2 ^ 24) ∧ (∀ z ∈ [sx 32 (w 0x18), sx 32 (w 0x1C), sx 32 (w 0x20)], z % 4 = 0) ∧
  ∀ p ∈ [w 0x28, w 0x2C, w 0x30].zip [w 0x08, w 0x0C, w 0x10], p.1 < p.2

/-- The stream of a pattern record. -/
def patternStream (m : Core) (o reg a since : Nat) : Stream :=
  let w := fun i => m.snat (o + i) 4
  { sid := 0, reg := reg, recOff := a, base := w 0, write := m.snat (o + 4) 1 == 1, count := [w 0x08, w 0x0C, w 0x10]
    stride := [sx 32 (w 0x18), sx 32 (w 0x1C), sx 32 (w 0x20)], cur := [w 0x28, w 0x2C, w 0x30]
    ended := m.snat (o + 0x34) 1 == 1, since := since, till := none }

theorem patternAt_cases (m : Core) (o reg a since : Nat) :
    PatternOk m o ∧ patternAt m o reg a since = some (patternStream m o reg a since) ∨
      ¬ PatternOk m o ∧ patternAt m o reg a since = none := by
  unfold patternAt PatternOk
  dsimp only
  split
  case isTrue hbad =>
    simp only [Bool.or_eq_true, decide_eq_true_eq, bne_iff_ne] at hbad
    exact .inr ⟨fun ⟨h4, h5, h14, h24, h34, h35, _⟩ => by omega, rfl⟩
  case isFalse hfields =>
    simp only [Bool.or_eq_true, decide_eq_true_eq, bne_iff_ne, not_or, not_not, Nat.not_lt] at hfields
    obtain ⟨⟨⟨⟨⟨h4, h5⟩, h14⟩, h24⟩, h34⟩, h35⟩ := hfields
    split
    case isTrue hbad =>
      refine .inr ⟨fun ⟨_, _, _, _, _, _, hcount, hstride, hcur⟩ => ?_, rfl⟩
      simp only [Bool.or_eq_true, List.any_eq_true, beq_iff_eq, decide_eq_true_eq, bne_iff_ne] at hbad
      obtain ((⟨c, hc, hbad⟩ | ⟨z, hz, hbad⟩) | ⟨p, hp, hbad⟩) := hbad
      · have := hcount c hc
        omega
      · exact hbad (hstride z hz)
      · exact absurd (hcur p hp) (Nat.not_lt.2 hbad)
    case isFalse hlists =>
      simp only [Bool.or_eq_true, List.any_eq_true, beq_iff_eq, decide_eq_true_eq, bne_iff_ne, not_or, not_exists, not_and, not_not,
        Nat.not_le, Nat.not_lt] at hlists
      obtain ⟨⟨hcount, hstride⟩, hcur⟩ := hlists
      refine .inl ⟨⟨h4, h5, h14, h24, h34, h35, fun c hc => ?_, hstride, hcur⟩, rfl⟩
      have := hcount c hc
      omega

/-! ## Bindings (R165, R166) -/

/-- The binding of a register that is live ends at a cycle. -/
def Stream.endAt (r t : Nat) (st : Stream) : Stream := if st.reg = r ∧ st.till = none then { st with till := some t } else st

theorem streams_unbind (c : Core) (r now t : Nat) :
    (c.unbind r now t).streams = (c.streams.filter fun st => !c.disused now st).map (Stream.endAt r t) := by
  refine List.map_congr_left fun st _ => if_congr ?_ rfl rfl
  rw [Bool.and_eq_true, beq_iff_eq, Option.isNone_iff_eq_none]

section
variable {v : Env} {e : Entry} {x o : Nat} (d a : Nat) (h : place64 v (e.op 0) = .ok (x, o))
include h

theorem check_backVbind (hclean : (coreOf v.s.sys x).poisoned o = false) :
    ((backVbind d a).op v e).check () = none ∧
      (isRing v.c.partN d = false ∧ ownerOf v.c.partN d = v.role ∧ PatternOk (coreOf v.s.sys x) o) ∨
    ((backVbind d a).op v e).check () = some (.trap causeOperand 0) ∧
      ¬ (isRing v.c.partN d = false ∧ ownerOf v.c.partN d = v.role ∧ PatternOk (coreOf v.s.sys x) o) := by
  simp only [backVbind, h, hclean]
  obtain ⟨hok, hpattern⟩ | ⟨hbad, hpattern⟩ := patternAt_cases (coreOf v.s.sys x) o d (e.op 0)
    (if (v.c.role v.role).handler then e.t v else e.t v + 6)
  · rw [hpattern]
    cases isRing v.c.partN d <;> by_cases howner : ownerOf v.c.partN d = v.role <;> simp [hok, howner]
  · rw [hpattern]
    exact .inr ⟨by simp, fun hall => hbad hall.2.2⟩

theorem streams_fire_backVbind (hprogram : (v.c.role v.role).handler = false) (hok : PatternOk (coreOf v.s.sys x) o) :
    (coreOf (((backVbind d a).op v e).fire v.s.sys) v.core).streams =
      (v.c.streams.filter fun st => !v.c.disused (e.t v) st).map (Stream.endAt d (e.t v + 6)) ++
        [{ patternStream (coreOf v.s.sys x) o d (e.op 0) (e.t v + 6) with sid := v.c.nextLid }] := by
  obtain ⟨-, hpattern⟩ | ⟨hbad, -⟩ := patternAt_cases (coreOf v.s.sys x) o d (e.op 0) (e.t v + 6)
  · simp only [backVbind, h, hprogram, Bool.false_eq_true, if_false, hpattern]
    rw [coreOf_setCore, if_pos (by simp [Core.unbind])]
    exact congrArg (· ++ _) (streams_unbind ..)
  · exact absurd hok hbad

end

section
variable {v : Env} {e : Entry} (d : Nat)

theorem streams_fire_backVunbind (hprogram : (v.c.role v.role).handler = false) :
    (coreOf (((backVunbind d).op v e).fire v.s.sys) v.core).streams =
      (v.c.streams.filter fun st => !v.c.disused (e.t v) st).map (Stream.endAt d (e.t v + 1)) := by
  simp only [backVunbind, hprogram, Bool.false_eq_true, if_false]
  rw [coreOf_setCore, if_pos (by simp [Core.unbind])]
  exact streams_unbind ..

/-- The bytes of a cursor as a pattern record holds it. -/
theorem cursorBytes_eq {cur : List Nat} (hcur : cur.length = 3) (off : Nat) (ended : Bool) :
    (((List.range 13).zip (cur.flatMap (toBytes 4) ++ [BitVec.ofNat 8 (b01 ended)])).map fun p => (off + p.1, p.2)) =
      (List.range 13).map fun i => (off + i, if i = 12 then BitVec.ofNat 8 (if ended then 1 else 0)
        else BitVec.ofNat 8 ((cur[i / 4]?).getD 0 / 256 ^ (i % 4))) := by
  obtain ⟨a, b, c, rfl⟩ := List.length_eq_three.1 hcur
  simp [toBytes, List.range_succ, b01, Nat.div_div_eq_div_mul]

theorem issue_backVunbind {st : Stream} (hlive : v.c.streams.find? (fun st => st.reg == d && st.till.isNone) = some st)
    (hcur : st.cur.length = 3) :
    ((backVunbind d).op v e).issue () =
      (spadLandings v e (e.t v + 4 + baseDelay v st.recOff / 2) st.recOff (banksOf (field st.recOff 21 0 + 0x28) 13)
        ((List.range 13).map fun i => (field st.recOff 21 0 + 0x28 + i, if i = 12 then BitVec.ofNat 8 (if st.ended then 1 else 0)
          else BitVec.ofNat 8 ((st.cur[i / 4]?).getD 0 / 256 ^ (i % 4)))), []) := by
  rw [← cursorBytes_eq hcur]
  simp only [backVunbind, hlive]

end

end Sys2Proof.Machine

/-! PROOFS. The statement about rows of vector memory accesses, mask rows and streams (R77, R78, R155 to R166). -/

namespace Sys2Proof.Machine

/-! ## Stores and flagging loads -/

/-- The bytes that the placed elements of a row store. -/
theorem storedBytes_eq (v : Env) (e : Entry) (els srcs : List Nat) (size : Nat) (place : Nat → Option (Nat × Nat)) :
    (els.flatMap fun i => match place i with
      | some (_, o) => (List.range size).map fun p => (o + p, BitVec.ofNat 8 (v.value e srcs i / 256 ^ p))
      | none => []) = updateBytes size (els.filterMap fun i => (place i).map fun p => (p.2, v.value e srcs i)) := by
  induction els with
  | nil => rfl
  | cons i els ih =>
    rw [List.flatMap_cons, ih, List.filterMap_cons]
    cases place i <;> rfl

section
variable (size b want : Nat) (v : Env) (e : Entry) (k : Nat) {place : Nat → Option (Nat × Nat)}

/-- Some element of a row lies in a slot that has another tag. -/
def StaleTile (place : Nat → Option (Nat × Nat)) : Prop := ∃ i ∈ v.activeElems e k, ∃ x o, place i = some (x, o) ∧
  ((coreOf v.s.sys x).slotTag (o / 4096) ≠ want % 65536 ∨ (coreOf v.s.sys x).slotTag ((o + size - 1) / 4096) ≠ want % 65536)

variable (hplace : ∀ i, place i = elemAddr v.s.sys v.core b (immDisp 0 size i))
include hplace

theorem tagStop_eq_some_or_none : StaleTile size want v e k place ∧ tagStop size b want v e k = some (.fault 8) ∨
    ¬ StaleTile size want v e k place ∧ tagStop size b want v e k = none := by
  have hiff : ((v.activeElems e k).any fun i => match elemAddr v.s.sys v.core b (immDisp 0 size i) with
      | some (t, o) => (coreOf v.s.sys t).slotTag (o / 4096) != want % 65536 ||
        (coreOf v.s.sys t).slotTag ((o + size - 1) / 4096) != want % 65536
      | none => false) = true ↔ StaleTile size want v e k place := by
    rw [List.any_eq_true, StaleTile]
    refine exists_congr fun i => and_congr_right fun _ => ?_
    rw [← hplace]
    cases place i with
    | none => simp
    | some p => simp [Prod.ext_iff]
  by_cases hstale : StaleTile size want v e k place
  · exact .inl ⟨hstale, if_pos (hiff.2 hstale)⟩
  · exact .inr ⟨hstale, if_neg (mt hiff.1 hstale)⟩

end

/-- What a flagging load's row lands: its data, its mask bits, and FLAGCAUSE where an element is at fault. -/
theorem flagLands_eq (size : Nat) (dsts : List Nat) (m : Nat) (v : Env) (e : Entry) (k x : Nat) (es : List Elem) :
    flagLands size dsts m v e k x es =
      landLoad v e (e.t v + 6 + k + x) dsts k (v.c.rows e.vl) (es.map fun p =>
        (p.idx, if touchesPoison (coreOf v.s.sys p.core) p.off size then 0 else readAt v p.core p.off size)) ++
      landMask v e (e.t v + 6 + k + x) m k (fun i => es.any fun p => p.idx == i)
        (fun i => es.any fun p => p.idx == i && goodElem (coreOf v.s.sys p.core) p.off size) (k + 1 == v.c.rows e.vl) ::
      ((es.filter fun p => !goodElem (coreOf v.s.sys p.core) p.off size).getLast?.map fun p =>
        landCsr v e (e.t v + 6 + (v.c.rows e.vl - 1) + x) 0x007
          (p.idx * 65536 + elemCause (coreOf v.s.sys p.core) p.off size)).toList := by
  unfold flagLands
  dsimp only
  cases (es.filter fun p => !goodElem (coreOf v.s.sys p.core) p.off size).getLast? <;> rfl

/-! ## The order of a row's elements -/

theorem pairwise_placed (v : Env) (e : Entry) (k : Nat) (place : Nat → Option (Nat × Nat)) (srcs : List Nat) :
    (v.placed e k place srcs).Pairwise fun p q => p.idx < q.idx := by
  have hrow : (v.rowElems e k).Pairwise (· < ·) := by
    refine List.Pairwise.filterMap _ (fun l l' hlt i hi i' hi' => ?_) List.pairwise_lt_range
    simp only [Option.ite_none_right_eq_some, Option.some.injEq] at hi hi'
    omega
  refine List.Pairwise.filterMap _ (fun i i' hlt p hp p' hp' => ?_) (hrow.filter (v.active e))
  obtain ⟨q, -, rfl⟩ := Option.map_eq_some_iff.1 hp
  obtain ⟨q', -, rfl⟩ := Option.map_eq_some_iff.1 hp'
  exact hlt

/-! ## Instruction by instruction -/

section
variable {v : Env} {e : Entry} (d a b : Nat) {k : Nat} {place : Nat → Option (Nat × Nat)}

section
variable (hplace : ∀ i, place i = elemAddr v.s.sys v.core (e.op 0) (immDisp 0 (elemSize e.mode.ety) i))
include hplace

theorem backVldt_done (htag : tagStop (elemSize e.mode.ety) (e.op 0) (e.op 1) v e k = none)
    (h : Access.stop ⟨elemSize e.mode.ety, elemSize e.mode.ety, false, true⟩ v e k [] (pairOf (wideOf e.mode.ety) d) place = none) :
    RowDone (fun z => (backVldt d a b).op z e) v k (baseDelay v (e.op 0)) (baseCore v (e.op 0)) (e.t v + k + baseDelay v (e.op 0) / 2)
      (v.placed e k place []) fun z => plainLands (elemSize e.mode.ety) (pairOf (wideOf e.mode.ety) d) z e k (baseDelay z (e.op 0))
        (v.placed e k place []) :=
  loadOp_done hplace htag h

theorem backVldf_done
    (h : Access.stop ⟨elemSize e.mode.ety, elemSize e.mode.ety, false, false⟩ v e k [] (pairOf (wideOf e.mode.ety) d) place = none) :
    RowDone (fun z => (backVldf d a b).op z e) v k (baseDelay v (e.op 0)) (baseCore v (e.op 0)) (e.t v + k + baseDelay v (e.op 0) / 2)
      (v.placed e k place []) fun z => flagLands (elemSize e.mode.ety) (pairOf (wideOf e.mode.ety) d) b z e k (baseDelay z (e.op 0))
        (v.placed e k place []) :=
  loadOp_done (more := fun _ _ _ => none) hplace rfl h

end

theorem sample_backVsts (hplace : ∀ i, place i = elemAddr v.s.sys v.core (e.op 0) (strideDisp e i))
    (h : Access.stop ⟨elemSize e.mode.ety, elemSize e.mode.ety, true, false⟩ v e k (pairOf (wideOf e.mode.ety) d) [] place = none) :
    ((backVsts d a b).op v e).sample k = .ok (spadLandings v e (e.t v + 4 + k + baseDelay v (e.op 0) / 2) (e.op 0) allBanks
      (updateBytes (elemSize e.mode.ety) ((v.activeElems e k).filterMap fun i =>
        (place i).map fun p => (p.2, v.value e (pairOf (wideOf e.mode.ety) d) i))), []) := by
  rw [← storedBytes_eq]
  exact sample_storeOp hplace h

section
variable (hplace : ∀ acc : Access, acc.bytes ≤ acc.size → ∀ i, place i = indexPlace acc (elemSize e.mode.ety) b (e.op 0) v e i)
include hplace

theorem backVgath_done
    (h : Access.stop ⟨elemSize e.mode.ety, elemSize e.mode.ety, true, true⟩ v e k [b] (pairOf (wideOf e.mode.ety) d) place = none) :
    RowDone (fun z => (backVgath d a b).op z e) v k (0 + baseDelay v (e.op 0)) (baseCore v (e.op 0))
      (e.t v + 4 + k + 0 + baseDelay v (e.op 0) / 2) (v.placed e k place []) fun z =>
        landLoad z e (e.t z + 12 + k + baseDelay z (e.op 0)) (pairOf (wideOf e.mode.ety) d) k (z.c.rows e.vl)
          ((v.placed e k place []).map fun p => (p.idx, readAt z p.core p.off (elemSize e.mode.ety))) := by
  have hdone := indexedOp_done (op := fun z => (backVgath d a b).op z e) (fun z => by dsimp only [backVgath])
    (hplace ⟨_, _, true, true⟩ le_rfl) h
  exact hdone

theorem backVscat_done
    (h : Access.stop ⟨elemSize e.mode.ety, elemSize e.mode.ety, true, false⟩ v e k (b :: pairOf (wideOf e.mode.ety) d) [] place = none) :
    RowDone (fun z => (backVscat d a b).op z e) v k (4 + baseDelay v (e.op 0)) (baseCore v (e.op 0))
      (e.t v + 4 + k + 4 + baseDelay v (e.op 0) / 2) (v.placed e k place (pairOf (wideOf e.mode.ety) d)) fun z =>
        spadLandings z e (e.t z + 8 + k + baseDelay z (e.op 0) / 2) (e.op 0) 0 (updateBytes (elemSize e.mode.ety)
          ((v.placed e k place (pairOf (wideOf e.mode.ety) d)).map fun p => (p.off, p.data))) := by
  have hdone := indexedOp_done (op := fun z => (backVscat d a b).op z e) (fun z => by dsimp only [backVscat])
    (hplace ⟨_, _, true, false⟩ le_rfl) h
  simpa only [updateBytes, List.flatMap_map] using hdone

theorem backVscadd_done
    (h : Access.stop ⟨elemSize e.mode.ety, elemSize e.mode.ety, true, true⟩ v e k (b :: pairOf (wideOf e.mode.ety) d) [] place = none) :
    RowDone (fun z => (backVscadd d a b).op z e) v k (4 + baseDelay v (e.op 0)) (baseCore v (e.op 0))
      (e.t v + 4 + k + 4 + baseDelay v (e.op 0) / 2) (v.placed e k place (pairOf (wideOf e.mode.ety) d)) fun z =>
        spadLandings z e (e.t z + 16 + k + baseDelay z (e.op 0) / 2) (e.op 0) allBanks (updateBytes (elemSize e.mode.ety)
          ((mergeRow e (v.placed e k place (pairOf (wideOf e.mode.ety) d))).map fun g => (g.1, addSubs e g.2.1
            (forwarded z e k (baseDelay z (e.op 0)) (baseCore z (e.op 0)) g.1 (elemSize e.mode.ety)) g.2.2))) := by
  have hdone := indexedOp_done (op := fun z => (backVscadd d a b).op z e) (fun z => by dsimp only [backVscadd])
    (hplace ⟨_, _, true, true⟩ le_rfl) h
  exact hdone

end

theorem backVscaddBin_done (hplace : ∀ i, place i = indexPlace ⟨elemSize e.mode.ety, 64, true, true⟩ 64 b (e.op 0) v e i)
    (h : Access.stop ⟨elemSize e.mode.ety, 64, true, true⟩ v e k (b :: pairOf (wideOf e.mode.ety) d) [] place = none) :
    RowDone (fun z => (backVscaddBin d a b).op z e) v k (4 + baseDelay v (e.op 0)) (baseCore v (e.op 0))
      (e.t v + 4 + k + 4 + baseDelay v (e.op 0) / 2) (v.placed e k place (pairOf (wideOf e.mode.ety) d)) fun z =>
        spadLandings z e (e.t z + 16 + k + baseDelay z (e.op 0) / 2) (e.op 0) allBanks (updateBytes 64
          ((v.placed e k place (pairOf (wideOf e.mode.ety) d)).foldl (actOn (addToRecord e) fun o =>
            forwarded z e k (baseDelay z (e.op 0)) (baseCore z (e.op 0)) o 64) [])) := by
  have hdone := indexedOp_done (op := fun z => (backVscaddBin d a b).op z e) (fun z => by dsimp only [backVscaddBin]) hplace h
  simp only [binRow_eq] at hdone
  exact hdone

theorem backVamo_done (op : Nat) (hplace : ∀ i, place i = indexPlace ⟨4, 4, true, true⟩ 4 b (e.op 0) v e i)
    (h : Access.stop ⟨4, 4, true, true⟩ v e k [b, d] [d] place = none) :
    RowDone (fun z => (backVamo d a b op).op z e) v k (4 + baseDelay v (e.op 0)) (baseCore v (e.op 0))
      (e.t v + 4 + k + 4 + baseDelay v (e.op 0) / 2) (v.placed e k place [d]) fun z =>
        let old := fun o => forwarded z e k (baseDelay z (e.op 0)) (baseCore z (e.op 0)) o 4
        spadLandings z e (e.t z + 16 + k + baseDelay z (e.op 0) / 2) (e.op 0) allBanks (updateBytes 4
          ((v.placed e k place [d]).foldl (actOn (amoAct e.mode.ety op) old) [])) ++
        landLoad z e (e.t z + 16 + k + baseDelay z (e.op 0)) [d] k (z.c.rows e.vl) ((v.placed e k place [d]).map fun p =>
          (p.idx, amoTaken e.mode.ety op old (v.placed e k place [d]) p)) := by
  have hrow : ∀ old, amoRow e.mode.ety op old (v.placed e k place [d]) = _ := fun old =>
    amoRow_eq e.mode.ety op old (pairwise_placed v e k place [d])
  have hdone := indexedOp_done (op := fun z => (backVamo d a b op).op z e) (fun z => by dsimp only [backVamo]) hplace h
  simp only [hrow] at hdone
  exact hdone

end

/-! ## The statement -/

/-- Settles O24, part by part: words of the own scratchpad, the other accesses of a row, and the bindings of streams. -/
theorem memoryRows : Obligations.MemoryRows := by
  unfold Obligations.MemoryRows
  refine ⟨fun v e d a b imm k hnarrow hown => ?words, fun v e d a b op k => ?accesses, fun v e d a x o => ?streams⟩
  case words =>
    intro n els place near far fits clean loads
    have haddress : ∀ disp i, fits disp i → placeStop 4 i (place disp i) = none := fun _ _ h => placeStop_eq_none_iff.2 h
    have hclean : ∀ disp i, clean disp i → poisonedAt v.s.sys 4 (place disp i) = false := fun _ _ h => poisonedAt_eq_false_iff.2 h
    have hall : ∀ disp, (∀ i ∈ els, fits disp i ∧ clean disp i) → ∀ i ∈ els, ∃ t o, place disp i = some (t, o) := fun disp h i hi => by
      obtain ⟨⟨t, o, hto, -⟩, -⟩ := h i hi
      exact ⟨t, o, hto⟩
    have herror : ∀ {st}, Access.stop ⟨4, 4, false, true⟩ v e k [] [d] (place near) = some st →
        ∃ op, backOf (.vld d a imm) = some op ∧ (op.op v e).sample k = .error st := fun h => by
      refine ⟨_, rfl, ?_⟩
      rw [op_backVld_of_narrow d a imm hnarrow]
      exact sample_loadOp_of_stop (fun _ => rfl) rfl h
    refine ⟨fun h hregs => ?vld, fun hspread h hregs => ?vlds, fun i l l' hregs hels hbefore => ⟨fun hi => ?outside, fun t o hi ho => ?odd⟩,
      fun i l l' hregs hels hfits hbefore hi => ?poison, fun hfits hregs => ?vst⟩
    case vld =>
      have hstop := stop_of_clean (a := ⟨4, 4, false, true⟩) (place := place near) hregs (fun i hi => haddress _ i (h i hi).1) rfl
        fun _ i hi => hclean _ i (h i hi).2
      obtain ⟨p, f, hsample, hp, hf⟩ := sample_plainLoad (fun _ => rfl) hown hstop (hall _ h)
      exact ⟨_, p, f, rfl, by rw [op_backVld_of_narrow d a imm hnarrow]; exact hsample, hp, hf⟩
    case vlds =>
      have hstop := stop_of_clean (a := ⟨4, 4, true, true⟩) (place := place far) hregs (fun i hi => haddress _ i (h i hi).1) hspread
        fun _ i hi => hclean _ i (h i hi).2
      obtain ⟨p, f, hsample, hp, hf⟩ := sample_plainLoad (fun _ => rfl) hown hstop (hall _ h)
      exact ⟨_, p, f, rfl, by rw [op_backVlds_of_narrow d a b hnarrow]; exact hsample, hp, hf⟩
    case outside => exact herror (stop_of_address hregs hels (fun j hj => haddress _ j (hbefore j hj)) (placeStop_of_none hi))
    case odd => exact herror (stop_of_address hregs hels (fun j hj => haddress _ j (hbefore j hj)) (placeStop_of_misaligned hi ho))
    case poison =>
      exact herror (stop_of_poison hregs (fun j hj => haddress _ j (hfits j hj)) rfl rfl hels (fun j hj => hclean _ j (hbefore j hj))
        (Bool.eq_true_of_not_eq_false (mt poisonedAt_eq_false_iff.1 hi)))
    case vst =>
      have hstop := stop_of_clean (a := ⟨4, 4, false, false⟩) (place := place near) hregs (fun i hi => haddress _ i (hfits i hi)) rfl
        fun h => absurd h (by decide)
      refine ⟨_, rfl, ?_⟩
      rw [op_backVst_of_narrow d a imm hnarrow]
      exact sample_plainStore (fun _ => rfl) hown hstop
  case accesses =>
    intro t size regs base els near far spot whole elems clear row indexed load held bytes updates old dirty good stale
    have hnear : ∀ i, near i = elemAddr v.s.sys v.core base (immDisp 0 size i) := fun i =>
      congrArg (elemAddr v.s.sys v.core base) (immDisp_zero size i)
    have hspot : ∀ acc : Access, acc.bytes ≤ acc.size → ∀ i, spot size i = indexPlace acc size b base v e i := fun acc h i =>
      indexPlace_of_fits size b base v e i h
    have hwords : ∀ i, spot 4 i = indexPlace ⟨4, 4, true, true⟩ 4 b base v e i := fun i =>
      indexPlace_of_fits (acc := ⟨4, 4, true, true⟩) 4 b base v e i le_rfl
    have hwhole : ∀ i, whole i = indexPlace ⟨size, 64, true, true⟩ 64 b base v e i := fun i =>
      indexPlace_of_record (acc := ⟨size, 64, true, true⟩) 64 b base v e i (by dsimp only [size]; split <;> decide)
    have hrow : ∀ x {bk es lands P}, backOf x = some bk → RowDone (fun z => bk.op z e) v k (baseDelay v base) (baseCore v base)
        (e.t v + k + baseDelay v base / 2) es lands → (∀ z, P z (lands z)) → row x es P :=
      fun _ _ _ _ _ hback hdone hP => ⟨_, hback, hdone.lands hP⟩
    have hindexed : ∀ x delay {bk es lands P}, backOf x = some bk → RowDone (fun z => bk.op z e) v k (delay + baseDelay v base)
        (baseCore v base) (e.t v + 4 + k + delay + baseDelay v base / 2) es lands → (∀ z, P z (lands z)) → indexed x delay es P :=
      fun _ _ _ _ _ _ hback hdone hP => ⟨_, hback, hdone.lands hP⟩
    clear_value row indexed
    refine ⟨?staleTile, ?vldt, ?vldf, ?vsts, ?vgath, ?vscat, ?vscadd, ?vscaddBin, ?vamo, ?operations, ?masks, ?noPlace⟩
    case staleTile =>
      intro hstale
      obtain ⟨-, htag⟩ | ⟨hfresh, -⟩ := tagStop_eq_some_or_none size base (e.op 1) v e k hnear
      · exact ⟨_, rfl, sample_loadOp_of_more htag⟩
      · exact absurd hstale hfresh
    case vldt =>
      intro hfresh hclear
      obtain ⟨hstale, -⟩ | ⟨-, htag⟩ := tagStop_eq_some_or_none size base (e.op 1) v e k hnear
      · exact absurd hstale hfresh
      · exact hrow (.vldt d a b) rfl (backVldt_done d a b hnear htag hclear) fun z => rfl
    case vldf =>
      exact fun hclear => hrow (.vldf d a b) rfl (backVldf_done d a b hnear hclear) fun z =>
        flagLands_eq size regs b z e k (baseDelay z base) _
    case vsts => exact fun hclear => ⟨_, rfl, sample_backVsts d a b (fun _ => rfl) hclear⟩
    case vgath => exact fun hclear => hindexed (.vgath d a b) 0 rfl (backVgath_done d a b hspot hclear) fun z => rfl
    case vscat => exact fun hclear => hindexed (.vscat d a b) 4 rfl (backVscat_done d a b hspot hclear) fun z => rfl
    case vscadd =>
      exact fun hclear => hindexed (.vscadd d a b) 4 rfl (backVscadd_done d a b hspot hclear) fun z =>
        ⟨_, rfl, mergeRow_updates e (old z size) _⟩
    case vscaddBin =>
      exact fun hclear => hindexed (.vscaddBin d a b) 4 rfl (backVscaddBin_done d a b hwhole hclear) fun z =>
        ⟨_, rfl, foldl_actOn_updates (addToRecord e) (old z 64) _⟩
    case vamo =>
      exact fun hclear => hindexed (.vamo d a b op) 4 rfl (backVamo_done d a b op hwords hclear) fun z =>
        ⟨_, rfl, foldl_actOn_updates (amoAct t op) (old z 4) _⟩
    case operations =>
      refine fun x y => ⟨rfl, rfl, rfl, rfl, rfl, fun ht _ _ => ?_, fun ht _ _ => ?_⟩
      · rw [ht]
        exact amoOf_min_max intLt_i32 x y
      · rw [ht]
        exact amoOf_min_max (f := fun n => n) intLt_uint32 x y
    case masks =>
      intro x o hat hstart
      refine ⟨fun ho => ?odd, fun ho hpoison => ?poison, fun ho hclean => ?mld, fun ho => ?mst⟩
      case odd =>
        have hplace : ∀ read, maskPlace v e read = .error (.trap causeAlign 0) :=
          maskPlace_of_error hstart ((place64_of_some hat).trans (if_pos ho))
        rintro _ hi
        obtain rfl | hi := List.mem_cons.1 hi
        · exact ⟨_, rfl, sample_backMld_of_error d a k (hplace true)⟩
        · obtain rfl := List.mem_singleton.1 hi
          exact ⟨_, rfl, sample_backMst_of_error d a k (hplace false)⟩
      case poison =>
        refine ⟨_, rfl, sample_backMld_of_error d a k ?_⟩
        exact (maskPlace_of_ok hstart (place64_of_aligned hat ho) true).trans (if_pos hpoison)
      case mld =>
        have hplace : maskPlace v e true = .ok (some (x, o)) :=
          (maskPlace_of_ok hstart (place64_of_aligned hat ho) true).trans (if_neg (by rw [hclean]; decide))
        obtain ⟨hown, hcross⟩ := backMld_done d a k hplace
        have hlands : ∀ z : Env, landWholeMask z e (e.t z + 6 + baseDelay z base) d ((coreOf z.s.sys x).snat o 64 % 2 ^ e.vl) = _ :=
          fun z => landWholeMask_mod hstart ..
        refine ⟨_, rfl, fun hx => ?_, fun hx => ?_⟩
        · exact (hown hx).trans (congrArg (fun ls => Except.ok (ls, [])) (hlands v))
        · obtain ⟨p, hsample, -, hcore, hdue, haccess⟩ := hcross hx
          exact ⟨p, hsample, hdue, hcore.trans (baseCore_of_spAddr hat).symm, fun z => (haccess z).trans (hlands z)⟩
      case mst =>
        refine ⟨_, rfl, sample_backMst_of_ok (x := x) d a k hstart ?_⟩
        exact (maskPlace_of_ok hstart (place64_of_aligned hat ho) false).trans (if_neg (by simp))
    case noPlace =>
      intro hat hstart
      have hplace : ∀ read, maskPlace v e read = .error (.trap causeSpaddr 0) := maskPlace_of_error hstart (place64_of_none hat)
      rintro _ hi
      obtain rfl | hi := List.mem_cons.1 hi
      · exact ⟨_, rfl, sample_backMld_of_error d a k (hplace true)⟩
      · obtain rfl := List.mem_singleton.1 hi
        exact ⟨_, rfl, sample_backMst_of_error d a k (hplace false)⟩
  case streams =>
    intro m w counts curs strides valid till live
    refine ⟨fun hat ho hclean => ⟨_, rfl, ?check, ?trap, ?bound⟩, fun hprogram => ⟨_, rfl, ?ended, fun st hlive hcur => ?written⟩⟩
    case check =>
      obtain ⟨hnone, hall⟩ | ⟨hsome, hnot⟩ := check_backVbind d a (place64_of_aligned hat ho) hclean
      · exact ⟨fun _ => hall, fun _ => hnone⟩
      · exact ⟨fun h => absurd (hsome.symm.trans h) (by simp), fun h => absurd h hnot⟩
    case trap =>
      intro h
      obtain ⟨hnone, -⟩ | ⟨hsome, -⟩ := check_backVbind d a (place64_of_aligned hat ho) hclean
      · exact absurd hnone h
      · exact hsome
    case bound =>
      intro hprogram hok
      exact ⟨_, rfl, rfl, rfl, rfl, rfl, rfl, rfl, streams_fire_backVbind d a (place64_of_aligned hat ho) hprogram hok⟩
    case ended => exact streams_fire_backVunbind d hprogram
    case written => exact issue_backVunbind d hlive hcur

end Sys2Proof.Machine

/-! PROOFS. Containers, sub-elements and pairs (R22, R23, R38), and what a row of an instruction lands that works element by
element on registers (R219, R220, R236): the containers of the values that it makes of its operands' values. -/

namespace Sys2Proof.Machine

/-! ## Widths (R38, R220) -/

theorem widthOf_pos (t : ETy) : 0 < widthOf t := by cases t <;> decide

/-- Sub-elements of some types fill a container; every type but those of 64 bits fits in one. -/
theorem widthOf_mul_subsOf (t : ETy) : widthOf t * subsOf t = if wideOf t then 64 else 32 := by cases t <;> rfl

theorem subOf_lt (t : ETy) (x j : Nat) : subOf t x j < 2 ^ widthOf t := Nat.mod_lt _ (Nat.two_pow_pos _)

/-! ## Values packed from sub-elements (R23) -/

/-- The first n sub-elements, packed. -/
def packTo (t : ETy) (f : Nat → Nat) (n : Nat) : Nat :=
  (List.range n).foldl (fun x j => x + f j % 2 ^ widthOf t * 2 ^ (widthOf t * j)) 0

theorem packSubs_eq_packTo (t : ETy) (f : Nat → Nat) : packSubs t f = packTo t f (subsOf t) := rfl

theorem packTo_succ (t : ETy) (f : Nat → Nat) (n : Nat) :
    packTo t f (n + 1) = packTo t f n + f n % 2 ^ widthOf t * 2 ^ (widthOf t * n) := by
  simp [packTo, List.range_succ]

theorem packTo_lt (t : ETy) (f : Nat → Nat) (n : Nat) : packTo t f n < 2 ^ (widthOf t * n) := by
  induction n with
  | zero => exact Nat.one_pos
  | succ n ih =>
    have hsub : f n % 2 ^ widthOf t + 1 ≤ 2 ^ widthOf t := Nat.mod_lt _ (Nat.two_pow_pos _)
    calc packTo t f (n + 1) < 2 ^ (widthOf t * n) + f n % 2 ^ widthOf t * 2 ^ (widthOf t * n) := by
          rw [packTo_succ]; exact Nat.add_lt_add_right ih _
      _ = (f n % 2 ^ widthOf t + 1) * 2 ^ (widthOf t * n) := by ring
      _ ≤ 2 ^ widthOf t * 2 ^ (widthOf t * n) := Nat.mul_le_mul_right _ hsub
      _ = 2 ^ (widthOf t * (n + 1)) := by rw [← pow_add]; ring_nf

theorem subOf_packTo (t : ETy) (f : Nat → Nat) {n j : Nat} (hj : j < n) : subOf t (packTo t f n) j = f j % 2 ^ widthOf t := by
  induction n with
  | zero => omega
  | succ n ih =>
    rw [packTo_succ, subOf]
    obtain rfl | hlt : j = n ∨ j < n := by omega
    · rw [Nat.add_mul_div_right _ _ (Nat.two_pow_pos _), Nat.div_eq_of_lt (packTo_lt t f j), Nat.zero_add, Nat.mod_mod]
    · obtain ⟨m, rfl⟩ := Nat.exists_eq_add_of_lt hlt
      have hfactor : f (j + m + 1) % 2 ^ widthOf t * 2 ^ (widthOf t * (j + m + 1)) =
          (f (j + m + 1) % 2 ^ widthOf t * 2 ^ (widthOf t * m) * 2 ^ widthOf t) * 2 ^ (widthOf t * j) := by
        rw [mul_assoc, mul_assoc, ← pow_add, ← pow_add]
        ring_nf
      rw [hfactor, Nat.add_mul_div_right _ _ (Nat.two_pow_pos _), Nat.add_mul_mod_self_right]
      exact ih hlt

/-- A packed value has the sub-elements it was packed from, each cut to its width. -/
theorem subOf_packSubs {t : ETy} (f : Nat → Nat) {j : Nat} (hj : j < subsOf t) :
    subOf t (packSubs t f) j = f j % 2 ^ widthOf t := by
  rw [packSubs_eq_packTo, subOf_packTo t f hj]

/-- A value of a type that no pair holds fits in a container. -/
theorem packSubs_lt {t : ETy} (f : Nat → Nat) (h : wideOf t = false) : packSubs t f < 2 ^ 32 := by
  have hbits := widthOf_mul_subsOf t
  rw [h, if_neg Bool.false_ne_true] at hbits
  rw [← hbits, packSubs_eq_packTo]
  exact packTo_lt t f (subsOf t)

/-! ## Containers of a pair (R23) -/

theorem getElem?_pairOf_getD {w : Bool} {r j : Nat} (hj : j < (pairOf w r).length) : ((pairOf w r)[j]?).getD 0 = r + j := by
  cases w with
  | false =>
    obtain rfl : j = 0 := Nat.lt_one_iff.1 hj
    rfl
  | true =>
    obtain rfl | rfl : j = 0 ∨ j = 1 := by have : j < 2 := hj; omega
    · rfl
    · rfl

/-- Container j of a value that one container or a pair holds. -/
theorem getElem?_split_getD {w : Bool} {x r j : Nat} (hx : w = false → x < 2 ^ 32) (hj : j < (pairOf w r).length) :
    ((split w x)[j]?).getD 0 = x / 2 ^ (32 * j) % 2 ^ 32 := by
  cases w with
  | false =>
    obtain rfl : j = 0 := Nat.lt_one_iff.1 hj
    simpa [split] using (Nat.mod_eq_of_lt (hx rfl)).symm
  | true =>
    obtain rfl | rfl : j = 0 ∨ j = 1 := by have : j < 2 := hj; omega
    · simp [split]
    · simp [split]

/-! ## Operands -/

theorem Core.vec_lt (c : Core) (r i : Nat) : c.vec r i < 2 ^ 32 := by
  simpa [Core.vec, Mem.nat, Mem.bytes] using ofBytes_lt (Mem.bytes c.pool (2048 * r + 256 * (i / c.lanes) + 4 * c.phys (i % c.lanes)) 4)

theorem Env.elem_lt (v : Env) (e : Entry) (r i : Nat) : v.elem e r i < 2 ^ 32 := by
  unfold Env.elem
  split
  · exact Core.vec_lt ..
  · split
    · exact snat_lt ..
    · exact Nat.two_pow_pos 32

/-- Container c of an operand of several registers is that of its register c. -/
theorem Env.value_container (v : Env) (e : Entry) (i : Nat) {regs : List Nat} {c r : Nat} (h : regs[c]? = some r) :
    v.value e regs i / 4294967296 ^ c % 4294967296 = v.elem e r i := by
  induction regs generalizing c with
  | nil => simp at h
  | cons a l ih =>
    have hlow : v.elem e a i < 4294967296 := v.elem_lt e a i
    have hcons : v.value e (a :: l) i = v.elem e a i + 4294967296 * v.value e l i := rfl
    cases c with
    | zero =>
      obtain rfl : a = r := by simpa using h
      rw [hcons, pow_zero]
      omega
    | succ c =>
      have hnext : v.value e (a :: l) i / 4294967296 = v.value e l i := by omega
      rw [pow_succ', ← Nat.div_div_eq_div_mul, hnext]
      exact ih (by simpa using h)

/-! ## A row that passes its checks -/

theorem Env.active_and_lt (v : Env) (e : Entry) : (fun i => decide (i < e.vl) && v.active e i) = v.active e := by
  funext i
  simp [Env.active, ← Bool.and_assoc]

/-- What row k of an element-by-element instruction lands: the containers `f i j` of each active element i in destination j. -/
def Env.rowLands (v : Env) (e : Entry) (k due : Nat) (dsts : List Nat) (f : Nat → Nat → Nat) : List Landing :=
  (List.range dsts.length).map fun j =>
    landRow v e due ((dsts[j]?).getD 0) k (v.active e) (fun i => f i j) (k + 1 == v.c.rows e.vl)

theorem Env.rowLands_congr {v : Env} {e : Entry} {k due : Nat} {dsts : List Nat} {f g : Nat → Nat → Nat}
    (h : ∀ i j, j < dsts.length → f i j = g i j) : v.rowLands e k due dsts f = v.rowLands e k due dsts g := by
  refine List.map_congr_left fun j hj => ?_
  rw [funext fun i => h i j (List.mem_range.1 hj)]

/-- The containers of a pair of destinations, cut from a value for each element. -/
theorem Env.rowLands_pair (v : Env) (e : Entry) (k due d : Nat) (w : Bool) (val : Nat → Nat) :
    v.rowLands e k due (pairOf w d) (fun i j => val i / 2 ^ (32 * j) % 2 ^ 32) =
      (List.range (pairOf w d).length).map fun j =>
        landRow v e due (d + j) k (v.active e) (fun i => val i / 2 ^ (32 * j) % 2 ^ 32) (k + 1 == v.c.rows e.vl) :=
  List.map_congr_left fun j hj => by rw [getElem?_pairOf_getD (List.mem_range.1 hj)]

theorem foldr_append_eq_flatten {α : Type} (l : List (List α)) : l.foldr (· ++ ·) [] = l.flatten := by
  induction l with
  | nil => rfl
  | cons a l ih => rw [List.foldr_cons, ih, List.flatten_cons]

theorem flatten_two {α : Type} (l m : List α) : [l, m].flatten = l ++ m := by
  rw [List.flatten_cons, List.flatten_cons, List.flatten_nil, List.append_nil]

section
variable {v : Env} {e : Entry} {k : Nat} {unit : UnitId} {lam step : Nat} {srcs : List (List Nat)} {dsts masks : List Nat}
  {wide : Bool} {g : Env → Entry → Nat → List Nat → List Nat}

theorem laneOp_sample (h : v.rowStop e k srcs.flatten dsts = none) :
    (laneOp unit lam step srcs dsts masks wide Env.active g v e).sample k =
      .ok (v.rowLands e k (e.t v + lam + step * k) dsts fun i j => ((g v e i (srcs.map fun rs => v.value e rs i))[j]?).getD 0, []) := by
  have hstop : v.rowStop e k (srcs.foldr (· ++ ·) []) dsts = none := by rw [foldr_append_eq_flatten, h]
  simp only [laneOp, hstop, laneLands, Env.active_and_lt]
  rfl

theorem laneMaskOp_sample {md : Nat} {f : Env → Entry → Nat → List Nat → Bool} (h : v.rowStop e k srcs.flatten [] = none) :
    (laneMaskOp unit lam step srcs md masks wide f v e).sample k =
      .ok ([landMask v e (e.t v + lam + step * k) md k (v.active e) (fun i => f v e i (srcs.map fun rs => v.value e rs i))
        (k + 1 == v.c.rows e.vl)], []) := by
  have hstop : v.rowStop e k (srcs.foldr (· ++ ·) []) [] = none := by rw [foldr_append_eq_flatten, h]
  simp only [laneMaskOp, hstop]

/-- A row whose containers are given for each element and destination. -/
theorem laneOp_row {f : Nat → Nat → Nat}
    (hg : ∀ i j, j < dsts.length → ((g v e i (srcs.map fun rs => v.value e rs i))[j]?).getD 0 = f i j)
    {all : List Nat} (hall : srcs.flatten = all) (h : v.rowStop e k all dsts = none) :
    (laneOp unit lam step srcs dsts masks wide Env.active g v e).sample k = .ok (v.rowLands e k (e.t v + lam + step * k) dsts f, []) := by
  rw [laneOp_sample (hall ▸ h), Env.rowLands_congr hg]

/-- A row of an instruction that packs, for each element, one value from sub-elements. -/
theorem laneOp_packed {t : ETy} {d : Nat} (G : Nat → Nat → Nat)
    (hg : ∀ i, g v e i (srcs.map fun rs => v.value e rs i) = split (wideOf t) (packSubs t (G i)))
    {all : List Nat} (hall : srcs.flatten = all) (h : v.rowStop e k all (pairOf (wideOf t) d) = none) :
    (laneOp unit lam step srcs (pairOf (wideOf t) d) masks wide Env.active g v e).sample k =
      .ok (v.rowLands e k (e.t v + lam + step * k) (pairOf (wideOf t) d) (fun i j => packSubs t (G i) / 2 ^ (32 * j) % 2 ^ 32), []) :=
  laneOp_row (fun i j hj => by rw [hg, getElem?_split_getD (packSubs_lt (G i)) hj]) hall h

end

/-- A row whose registers are a row's destinations alone, none of them bound to a stream, passes its checks. -/
theorem rowStop_of_unbound {v : Env} {e : Entry} (k : Nat) {dsts : List Nat} (h : ∀ r ∈ dsts, v.stream e r = none) :
    v.rowStop e k [] dsts = none := by
  have hprobes : v.streamProbes e (dsts.map fun r => (r, v.active e)) = [] := by
    simpa [Env.streamProbes, List.filterMap_eq_nil_iff] using h
  have haddress : (v.rowElems e k).findSome? (fun _ => (none : Option Stop)) = none := List.findSome?_eq_none_iff.2 fun _ _ => rfl
  simp [Env.rowStop, Env.rowStopOn, hprobes, probeStop, haddress]

end Sys2Proof.Machine

/-! PROOFS. Integer sub-elements as numbers modulo 2^w (R195, R224): wrapping, comparing, clipping and shifting. -/

namespace Sys2Proof.Machine

theorem wrap_cast (w : Nat) (x : Int) : (wrap w x : Int) = x % (2 ^ w : Nat) :=
  Int.toNat_of_nonneg (Int.emod_nonneg x (Int.natCast_ne_zero.2 (Nat.two_pow_pos w).ne'))

theorem wrap_emod (w : Nat) (x : Int) : (wrap w x : Int) % (2 ^ w : Nat) = x % (2 ^ w : Nat) := by
  rw [wrap_cast, Int.emod_emod_of_dvd _ dvd_rfl]

/-- The two's complement reading is the number itself modulo 2^w. -/
theorem sx_emod (w x : Nat) : sx w x % (2 ^ w : Nat) = (x : Int) % (2 ^ w : Nat) := by
  unfold sx
  split
  · rw [Int.natCast_mod, Int.emod_emod_of_dvd _ dvd_rfl]
  · rw [Int.sub_emod_right, Int.natCast_mod, Int.emod_emod_of_dvd _ dvd_rfl]

theorem intOf_emod (t : ETy) (x : Nat) : intOf t x % (2 ^ widthOf t : Nat) = (x : Int) % (2 ^ widthOf t : Nat) := by
  unfold intOf
  split
  · exact sx_emod ..
  · rfl

/-! ## Order (R225) -/

theorem intLt_eq (t : ETy) (x y : Nat) : intLt t x y = decide (intOf t x < intOf t y) := by
  unfold intLt intOf
  split <;> simp

theorem intMin_emod (t : ETy) (x y : Nat) : ((if intLt t y x then y else x : Nat) : Int) % (2 ^ widthOf t : Nat) =
    min (intOf t x) (intOf t y) % (2 ^ widthOf t : Nat) := by
  simp only [intLt_eq, decide_eq_true_eq]
  by_cases h : intOf t y < intOf t x
  · rw [if_pos h, min_eq_right h.le, intOf_emod]
  · rw [if_neg h, min_eq_left (not_lt.1 h), intOf_emod]

theorem intMax_emod (t : ETy) (x y : Nat) : ((if intLt t x y then y else x : Nat) : Int) % (2 ^ widthOf t : Nat) =
    max (intOf t x) (intOf t y) % (2 ^ widthOf t : Nat) := by
  simp only [intLt_eq, decide_eq_true_eq]
  by_cases h : intOf t x < intOf t y
  · rw [if_pos h, max_eq_right h.le, intOf_emod]
  · rw [if_neg h, max_eq_left (not_lt.1 h), intOf_emod]

/-! ## Saturation (R195, R224) -/

/-- An integer clipped to the numbers from lo to hi. -/
theorem clamp_eq {lo hi x : Int} (h : lo ≤ hi) : (if x < lo then lo else if hi < x then hi else x) = max lo (min x hi) := by
  split
  · omega
  · split <;> omega

theorem clip_emod {w : Nat} (hw : 0 < w) (signed : Bool) (x : Int) : (clip w signed x : Int) % (2 ^ w : Nat) =
    (if signed then max (-((2 ^ w : Nat) / 2 : Int)) (min x ((2 ^ w : Nat) / 2 - 1)) else max 0 (min x ((2 ^ w : Nat) - 1))) %
      (2 ^ w : Nat) := by
  obtain ⟨n, rfl⟩ : ∃ n, w = n + 1 := ⟨w - 1, by omega⟩
  have hpos := Nat.two_pow_pos n
  have hhalf : (((2 ^ (n + 1) : Nat) : Int) / 2) = (2 ^ n : Nat) := by rw [pow_succ]; omega
  unfold clip
  rw [wrap_emod, hhalf, Nat.add_sub_cancel]
  cases signed with
  | true => simp only [if_true]; rw [clamp_eq (by omega)]
  | false => simp only [Bool.false_eq_true, if_false]; rw [clamp_eq (by rw [pow_succ]; omega)]

/-! ## Shifts and counts (R224) -/

theorem shiftLeft_cast (x n : Nat) : ((x <<< n : Nat) : Int) = x * 2 ^ n := by rw [Nat.shiftLeft_eq]; push_cast; rfl

theorem shiftRight_cast (x n : Nat) : ((x >>> n : Nat) : Int) = x / 2 ^ n := by rw [Nat.shiftRight_eq_div_pow]; push_cast; rfl

theorem clz_cast {w x : Nat} (h : x < 2 ^ w) : (clz w x : Int) = if x = 0 then (w : Int) else w - 1 - Nat.log2 x := by
  rw [clz_eq w x h]
  split
  · rfl
  · have := (Nat.log2_lt (by assumption)).2 h
    omega

end Sys2Proof.Machine

/-! PROOFS. Rows of the integer instructions (R219, R220, R224, R77). -/

namespace Sys2Proof.Machine

section
variable {v : Env} {e : Entry} {d k : Nat}

/-- The value that an instruction packs for element i from its results on sub-elements (R220). -/
def eachVal (f : ETy → List Nat → Nat) (v : Env) (e : Entry) (srcs : List Nat) (i : Nat) : Nat :=
  packSubs e.mode.ety fun j =>
    f e.mode.ety (srcs.map fun r => subOf e.mode.ety (v.value e (pairOf (wideOf e.mode.ety) r) i) j)

theorem sample_eachOp {unit : UnitId} {lam : Nat} {srcs : List Nat} {f : ETy → List Nat → Nat}
    (h : v.rowStop e k (srcs.flatMap (pairOf (wideOf e.mode.ety))) (pairOf (wideOf e.mode.ety) d) = none) :
    (eachOp unit lam d srcs f v e).sample k =
      .ok ((List.range (pairOf (wideOf e.mode.ety) d).length).map fun j => landRow v e (e.t v + lam + k) (d + j) k (v.active e)
        (fun i => eachVal f v e srcs i / 2 ^ (32 * j) % 2 ^ 32) (k + 1 == v.c.rows e.vl), []) := by
  rw [eachOp, laneOp_packed (fun i j => f e.mode.ety (srcs.map fun r =>
    subOf e.mode.ety (v.value e (pairOf (wideOf e.mode.ety) r) i) j)) (fun i => ?_) rfl h, Env.rowLands_pair, Nat.one_mul]
  · rfl
  · simp only [List.map_map, Function.comp_def]

/-- The row of an integer instruction whose operation gives F modulo 2^w. -/
theorem intRow {x : Instr} {names : ETy → Names} {unit : UnitId} {lam : Nat} {srcs : List Nat} {f : ETy → List Nat → Nat}
    {F : Nat → Nat → Int} (hback : backOf x = some ⟨names, eachOp unit lam d srcs f⟩)
    (hF : ∀ i j, (f e.mode.ety (srcs.map fun r => subOf e.mode.ety (v.value e (pairOf (wideOf e.mode.ety) r) i) j) : Int) %
      (2 ^ widthOf e.mode.ety : Nat) = F i j % (2 ^ widthOf e.mode.ety : Nat))
    (h : v.rowStop e k (srcs.flatMap (pairOf (wideOf e.mode.ety))) (pairOf (wideOf e.mode.ety) d) = none) :
    ∃ (o : Back) (val : Nat → Nat), backOf x = some o ∧
      (o.op v e).sample k = .ok ((List.range (pairOf (wideOf e.mode.ety) d).length).map fun j =>
        landRow v e (e.t v + lam + k) (d + j) k (v.active e) (fun i => val i / 2 ^ (32 * j) % 2 ^ 32) (k + 1 == v.c.rows e.vl), []) ∧
      ∀ i j, j < subsOf e.mode.ety → (subOf e.mode.ety (val i) j : Int) = F i j % (2 ^ widthOf e.mode.ety : Nat) := by
  refine ⟨_, eachVal f v e srcs, hback, sample_eachOp h, fun i j hj => ?_⟩
  rw [eachVal, subOf_packSubs _ hj, Int.natCast_mod, hF]

end

end Sys2Proof.Machine

/-! PROOFS. The binned accumulator (R208 to R212): a record in sixteen containers, and a finite value added to it. -/

namespace Sys2Proof.Machine

/-! ## A record in containers (R209) -/

theorem Binned.ofWords_congr {w z : Nat → Nat} (h : ∀ c < 16, w c = z c) : Binned.ofWords w = Binned.ofWords z := by
  have hbins : ∀ j ∈ List.range 6, sx 64 (w (2 * j) + 4294967296 * w (2 * j + 1)) = sx 64 (z (2 * j) + 4294967296 * z (2 * j + 1)) :=
    fun j hj => by
      have : j < 6 := List.mem_range.1 hj
      rw [h (2 * j) (by omega), h (2 * j + 1) (by omega)]
  rw [Binned.ofWords, Binned.ofWords, List.map_congr_left hbins, h 12 (by decide), h 13 (by decide)]

/-- The record that an instruction reads from a group is that of the group's containers. -/
theorem recordOf_group (v : Env) (e : Entry) (r i : Nat) :
    recordOf (v.value e (groupOf r) i) = Binned.ofWords fun c => v.elem e (r + c) i :=
  Binned.ofWords_congr fun c hc => v.value_container e i (by simp [groupOf, hc])

/-! ## Bins (R210) -/

/-- An addition to a bin that stays within 64 bits is exact. -/
theorem binPlus_of_fits {x y : Int} (hx : x.natAbs < 2 ^ 62) (hy : y.natAbs < 2 ^ 62) : binPlus x y = (x + y, false) := by
  have hexact : sx 64 (wrap 64 (x + y)) = x + y := by
    unfold sx wrap
    omega
  rw [binPlus, hexact, bne_self_eq_false]

theorem Binned.plus_of_fits {r : Binned} {ps : List Int} (hr : ∀ x ∈ r.bins, x.natAbs < 2 ^ 62) (hps : ∀ y ∈ ps, y.natAbs < 2 ^ 62) :
    r.plus ps = { r with bins := (r.bins.zip ps).map fun p => p.1 + p.2 } := by
  have hall : (r.bins.zip ps).map (fun p => binPlus p.1 p.2) = (r.bins.zip ps).map fun p => (p.1 + p.2, false) :=
    List.map_congr_left fun p hp => by
      obtain ⟨hx, hy⟩ := List.of_mem_zip hp
      exact binPlus_of_fits (hr _ hx) (hps _ hy)
  have hnone : ((r.bins.zip ps).any fun _ => false) = false := List.any_eq_false.2 fun _ _ => Bool.false_ne_true
  simp only [Binned.plus, hall, List.map_map, List.any_map, Function.comp_def, hnone, Bool.false_eq_true, if_false]

/-- The digits of a magnitude of 240 bits, 40 bits for each bin, under a sign. -/
def binDigits (neg : Bool) (z : Nat) : List Int :=
  (List.range 6).map fun j => let p : Int := (z / 2 ^ (40 * (5 - j)) % 2 ^ 40 : Nat); if neg then -p else p

theorem natAbs_lt_of_mem_binDigits {neg : Bool} {z : Nat} : ∀ y ∈ binDigits neg z, y.natAbs < 2 ^ 62 := by
  intro y hy
  obtain ⟨j, -, rfl⟩ := List.mem_map.1 hy
  have := Nat.mod_lt (z / 2 ^ (40 * (5 - j))) (Nat.two_pow_pos 40)
  dsimp only
  split <;> omega

/-- Bins with the digits of a magnitude added, by the number of the bin. -/
theorem zip_binDigits_add {bins : List Int} (h : bins.length = 6) (neg : Bool) (z : Nat) :
    (bins.zip (binDigits neg z)).map (fun p => p.1 + p.2) = ((List.range 6).zip bins).map fun p =>
      p.2 + (if neg then -1 else 1) * ((z / 2 ^ (40 * (5 - p.1)) % 2 ^ 40 : Nat) : Int) := by
  refine List.ext_getElem (by simp [binDigits, h]) fun j hj hj' => ?_
  cases neg <;> simp [binDigits]

/-- The magnitude m × 2^e in units of the last bin's least digit (R210). -/
def binMagnitude (m : Nat) (sh : Int) : Nat := if 0 ≤ sh then m * 2 ^ sh.toNat else m / 2 ^ (-sh).toNat

theorem binMagnitude_zero (sh : Int) : binMagnitude 0 sh = 0 := by
  unfold binMagnitude
  split
  · exact Nat.zero_mul _
  · exact Nat.zero_div _

theorem Binned.add_fin (r : Binned) (neg : Bool) (m : Nat) {ex b sh : Int} (hsh : ex + 240 - b = sh) (hle : sh ≤ 240)
    (hz : binMagnitude m sh < 2 ^ 240) :
    r.add (.fin neg m ex false) b = Binned.plus ⟨r.bins, min (r.count + 1) (2 ^ 32 - 1),
      r.flags ||| if sh < 0 ∧ m % 2 ^ (-sh).toNat ≠ 0 then 16 else 0⟩ (binDigits neg (binMagnitude m sh)) := by
  have hmag : (if m = 0 then 0 else if 0 ≤ sh then m * 2 ^ sh.toNat else m / 2 ^ (-sh).toNat) = binMagnitude m sh := by
    split
    · rename_i h
      rw [h, binMagnitude_zero]
    · rfl
  have hover : (m ≠ 0 && 240 < sh) = false := by
    rw [decide_eq_false (not_lt.2 hle), Bool.and_false]
  simp only [Binned.add, hsh, hmag, hover, Bool.false_eq_true, if_false]
  rw [if_neg (not_le.2 hz)]
  by_cases hlost : sh < 0 ∧ m % 2 ^ (-sh).toNat ≠ 0
  · have hm : m ≠ 0 := fun h => hlost.2 (by rw [h, Nat.zero_mod])
    have hexact : (m = 0 || 0 ≤ sh || m % 2 ^ (-sh).toNat = 0) = false := by
      simp only [hm, not_le.2 hlost.1, hlost.2, decide_false, Bool.or_false]
    rw [hexact, if_pos hlost]
    rfl
  · have hexact : (m = 0 || 0 ≤ sh || m % 2 ^ (-sh).toNat = 0) = true := by
      rw [not_and_or, not_lt, not_not] at hlost
      simp only [Bool.or_eq_true, decide_eq_true_eq]
      tauto
    rw [hexact, if_neg hlost, Nat.or_zero]
    rfl

/-- R210: a finite value added without overflow, digit by digit. -/
theorem Binned.add_digits {r : Binned} {neg : Bool} {m : Nat} {ex b sh : Int} (hsh : ex + 240 - b = sh) (hlen : r.bins.length = 6)
    (hbins : ∀ p ∈ r.bins, p.natAbs < 2 ^ 62) (hle : sh ≤ 240) (hz : binMagnitude m sh < 2 ^ 240) :
    (r.add (.fin neg m ex false) b).bins = ((List.range 6).zip r.bins).map (fun p =>
      p.2 + (if neg then -1 else 1) * ((binMagnitude m sh / 2 ^ (40 * (5 - p.1)) % 2 ^ 40 : Nat) : Int)) ∧
    (r.add (.fin neg m ex false) b).count = min (r.count + 1) (2 ^ 32 - 1) ∧
    (r.add (.fin neg m ex false) b).flags = r.flags ||| (if sh < 0 ∧ m % 2 ^ (-sh).toNat ≠ 0 then 16 else 0) := by
  rw [r.add_fin neg m hsh hle hz, Binned.plus_of_fits (by exact hbins) natAbs_lt_of_mem_binDigits]
  exact ⟨zip_binDigits_add hlen neg _, rfl, rfl⟩

end Sys2Proof.Machine

/-! PROOFS. Rows of the scale, binned and W2P instructions (R243 to R247, R77), and the statement about integer lanes. -/

namespace Sys2Proof.Machine

section
variable {v : Env} {e : Entry} {k : Nat}

theorem fpTime_fst (lam : Nat) (t : ETy) : (fpTime lam t).1 = if t = .f64 then 8 else lam := by
  unfold fpTime
  split <;> rfl

theorem fpTime_snd (lam : Nat) (t : ETy) : (fpTime lam t).2 = if t = .f64 then 2 else 1 := by
  unfold fpTime
  split <;> rfl

theorem sample_backVbinadd (d a b : Nat) : ((backVbinadd d a b).op v e).sample = (laneOp .fpu (fpTime 6 e.mode.ety).1 (fpTime 6 e.mode.ety).2
    [groupOf a, pairOf (wideOf e.mode.ety) b] (groupOf d) [] false Env.active
    (fun _ e _ xs => ((recordOf (arg xs 0)).add ((fmtOf e.mode.ety).val (arg xs 1)) (binBase e.bin)).words) v e).sample := rfl

theorem sample_backVbinmerge (d a b : Nat) : ((backVbinmerge d a b).op v e).sample = (laneOp .fpu 6 1 [groupOf a, groupOf b]
    (groupOf d) [] false Env.active (fun _ _ _ xs => ((recordOf (arg xs 0)).merge (recordOf (arg xs 1))).words) v e).sample := rfl

theorem sample_backVbinfold (d a b : Nat) : ((backVbinfold d a b).op v e).sample = (laneOp .fpu 8 2 [groupOf a, groupOf b]
    [d, d + 1] [] false Env.active (fun _ e _ xs => split true ((if b = a then recordOf (arg xs 0) else
      (recordOf (arg xs 0)).merge (recordOf (arg xs 1))).fold (binBase e.bin))) v e).sample := rfl

theorem scalePair_eq (x g : Num) : [(scalePair x g).1 + 65536 * (scalePair x g).2] =
    [if x.isNan ∨ x.isInf ∨ g.isNan ∨ g.isInf ∨ g.isZero ∨ g.sign then 0xFFF + 65536 * 0xFFF
      else if x.isZero then 0
      else roundTo .sc12 .rup .none (x.div g) + 65536 * roundTo .sc12 .rdn .none (g.div x)] := by
  simp only [scalePair, Bool.or_eq_true, or_assoc]
  split
  · rfl
  · split <;> rfl

theorem w2pDot_eq {t : ETy} (ht : t = .i8x4 ∨ t = .uint8x4) (x y : Nat) : w2pDot t x y = ((List.range 4).map fun j =>
    (if t = ETy.i8x4 then sx 8 (x / 256 ^ j % 256) else ((x / 256 ^ j % 256 : Nat) : Int)) * w2pUnits (y / 256 ^ j % 256)).sum := by
  have hsub : ∀ j, intOf t (subOf t x j) = if t = ETy.i8x4 then sx 8 (x / 256 ^ j % 256) else ((x / 256 ^ j % 256 : Nat) : Int) := by
    intro j
    have hpow : 2 ^ (8 * j) = 256 ^ j := pow_mul 2 8 j
    obtain rfl | rfl := ht
    · simp only [if_true]
      show sx 8 (x / 2 ^ (8 * j) % 256) = _
      rw [hpow]
    · show ((x / 2 ^ (8 * j) % 256 : Nat) : Int) = _
      rw [hpow]
      rfl
  rw [w2pDot, List.sum_eq_foldl]
  simp only [hsub]

end

/-! ## The statement -/

/-- Settles O21: the integer instructions on each sub-element, the rows of whole containers, and a value added to a record. -/
theorem integerLanes : Obligations.IntegerLanes := by
  unfold Obligations.IntegerLanes
  refine ⟨fun v e d a b k => ?integers, fun v e d a b k => ?containers, fun r neg m ex b => ?digits⟩
  case integers =>
    intro t w p num fit A B D rows
    refine ⟨fun _ => ⟨intRow rfl fun i j => ?add, intRow rfl fun i j => ?sub, intRow rfl fun i j => ?mul,
      intRow rfl fun i j => ?mulh, intRow rfl fun i j => ?macc, intRow rfl fun i j => ?min, intRow rfl fun i j => ?max,
      fun _ => intRow rfl fun i j => ?abs, intRow rfl fun i j => ?addsat, intRow rfl fun i j => ?subsat⟩,
      fun _ => ⟨intRow rfl fun i j => ?and, intRow rfl fun i j => ?or, intRow rfl fun i j => ?xor,
      intRow rfl fun i j => ?sll, intRow rfl fun i j => ?srl, intRow rfl fun i j => ?sra, intRow rfl fun i j => ?clz,
      intRow rfl fun i j => ?popc⟩⟩
    case add => exact congrArg (· % _) (Int.natCast_add (A i j) (B i j))
    case sub => exact wrap_emod w _
    case mul => exact congrArg (· % _) (Int.natCast_mul (A i j) (B i j))
    case mulh => exact wrap_emod w _
    case macc => exact congrArg (· % _) (by push_cast; rfl : ((D i j + A i j * B i j : Nat) : Int) = D i j + A i j * B i j)
    case min => exact intMin_emod t (A i j) (B i j)
    case max => exact intMax_emod t (A i j) (B i j)
    case abs => rfl
    case addsat => exact clip_emod (widthOf_pos t) _ _
    case subsat => exact clip_emod (widthOf_pos t) _ _
    case and => rfl
    case or => rfl
    case xor => rfl
    case sll => exact congrArg (· % _) (shiftLeft_cast (A i j) (B i j % w))
    case srl => exact congrArg (· % _) (shiftRight_cast (A i j) (B i j % w))
    case sra => exact (wrap_emod w _).trans (congrArg (fun z => sx w (A i j) / z % _) (Nat.cast_pow 2 (B i j % w)))
    case clz => exact congrArg (· % _) (clz_cast (subOf_lt t _ j))
    case popc => exact congrArg (fun n : Nat => (n : Int) % _) (popcount_eq w (A i j))
  case containers =>
    intro t n f32 A B D dr scale group base rows regs words
    have hone : ∀ {x : Nat} (j : Nat), j < [d].length → (([x][j]?).getD 0) = x := fun j hj => by
      obtain rfl : j = 0 := Nat.lt_one_iff.1 hj
      rfl
    refine ⟨fun h => ⟨_, rfl, ?scacc⟩, fun h => ⟨_, rfl, ?scext⟩, fun h => ⟨_, rfl, ?scset⟩, fun h => ⟨_, rfl, ?binadd⟩,
      fun h => ⟨_, rfl, ?binmerge⟩, fun h => ⟨_, rfl, ?binfold⟩, fun ht h => ⟨_, rfl, ?w2p⟩⟩
    case scacc => exact laneOp_row (srcs := [[d], [a], [b]]) (fun i => hone) rfl h
    case scext =>
      refine laneOp_row (srcs := [[a], [b]]) (fun i j hj => ?_) rfl h
      exact (congrArg (fun l : List Nat => (l[j]?).getD 0) (scalePair_eq ..)).trans (hone j hj)
    case scset => exact laneOp_row (srcs := [[a], [b]]) (fun i => hone) rfl h
    case binadd =>
      rw [← fpTime_fst 6 t, ← fpTime_snd 6 t, sample_backVbinadd]
      refine laneOp_row (fun i j _ => ?_) (flatten_two ..) h
      show ((Binned.words ((recordOf (v.value e (groupOf a) i)).add _ base))[j]?).getD 0 = _
      rw [recordOf_group]
      rfl
    case binmerge =>
      rw [sample_backVbinmerge]
      refine laneOp_row (fun i j _ => ?_) (flatten_two ..) h
      show ((Binned.words ((recordOf (v.value e (groupOf a) i)).merge (recordOf (v.value e (groupOf b) i))))[j]?).getD 0 = _
      rw [recordOf_group, recordOf_group]
    case binfold =>
      rw [sample_backVbinfold]
      refine laneOp_row (fun i j hj => ?_) (flatten_two ..) h
      show ((split true (Binned.fold (if b = a then recordOf (v.value e (groupOf a) i) else
        (recordOf (v.value e (groupOf a) i)).merge (recordOf (v.value e (groupOf b) i))) base))[j]?).getD 0 = _
      rw [recordOf_group, recordOf_group]
      exact getElem?_split_getD (w := true) (r := d) (fun h => absurd h (by decide)) hj
    case w2p =>
      refine laneOp_row (srcs := [[a], [b]]) (fun i j hj => (hone j hj).trans ?_) rfl h
      exact congrArg (fun z : Int => (z % 2 ^ 32).toNat) (w2pDot_eq ht (A i) (B i))
  case digits =>
    intro sh z x hlen hbins hle hz
    exact Binned.add_digits rfl hlen hbins hle hz

end Sys2Proof.Machine

/-! PROOFS. Rows of compares and mask operations (R219, R225, R226, R239). -/

namespace Sys2Proof.Machine

/-! ## Lists of instructions -/

theorem forall_mem_two {α : Type} {p : α → Prop} {a b : α} (ha : p a) (hb : p b) : ∀ x ∈ [a, b], p x := by
  simpa using ⟨ha, hb⟩

theorem forall_mem_four {α : Type} {p : α → Prop} {a b c d : α} (ha : p a) (hb : p b) (hc : p c) (hd : p d) :
    ∀ x ∈ [a, b, c, d], p x := by
  simpa using ⟨ha, hb, hc, hd⟩

/-! ## Conditions (R225) -/

/-- The number that R225 compares, of the types that an integer compare takes. -/
theorem intOf_of_compared {t : ETy} (ht : t ∈ [.i32, .i64, .uint32, .uint64, .b32]) (x : Nat) :
    intOf t x = if t = .i32 ∨ t = .i64 then sx (widthOf t) x else (x : Int) := by
  have hsigned : isSigned t = true ↔ t = .i32 ∨ t = .i64 := by
    revert t
    decide
  simp only [intOf, hsigned]

theorem condLe_eq (t : ETy) (x y : Nat) : condLe t x y = decide (intOf t x ≤ intOf t y) := by
  rw [condLe, intLt_eq, ← decide_not, decide_eq_decide, not_lt]

/-! ## Rows -/

section
variable {v : Env} {e : Entry} {k : Nat} {d a b : Nat}

theorem sample_cmpBack {ok : ETy → Bool} (cond : ETy → Nat → Nat → Bool)
    (h : v.rowStop e k (pairOf (wideOf e.mode.ety) a ++ pairOf (wideOf e.mode.ety) b) [] = none) :
    ((cmpBack ok cond d a b).op v e).sample k = .ok ([landMask v e (e.t v + 3 + k) d k (v.active e)
      (fun i => cond e.mode.ety (v.value e (pairOf (wideOf e.mode.ety) a) i) (v.value e (pairOf (wideOf e.mode.ety) b) i))
      (k + 1 == v.c.rows e.vl)], []) := by
  rw [cmpBack, laneMaskOp_sample (flatten_two .. ▸ h), Nat.one_mul]
  rfl

theorem sample_fcmpBack (cond : ETy → Nat → Nat → Bool) (ht : e.mode.ety = .f32) (h : v.rowStop e k [a, b] [] = none) :
    ((fcmpBack cond d a b).op v e).sample k = .ok ([landMask v e (e.t v + 4 + k) d k (v.active e)
      (fun i => cond .f32 (v.elem e a i) (v.elem e b i)) (k + 1 == v.c.rows e.vl)], []) := by
  simp only [fcmpBack, ht]
  rw [laneMaskOp_sample h]
  show Except.ok ([landMask v e (e.t v + 4 + 1 * k) d k (v.active e)
    (fun i => cond e.mode.ety (v.elem e a i) (v.elem e b i)) (k + 1 == v.c.rows e.vl)], []) = _
  rw [ht, Nat.one_mul]

theorem sample_maskBack (f : Bool → Bool → Bool) : ((maskBack f d a b).op v e).sample k =
    .ok ([landMask v e (e.t v + 3 + k) d k (v.active e) (fun i => f (v.c.mbit a i) (v.c.mbit b i)) (k + 1 == v.c.rows e.vl)], []) := by
  rw [maskBack, laneMaskOp_sample (rowStop_of_unbound k (List.forall_mem_nil _)), Nat.one_mul]

end

end Sys2Proof.Machine

/-! PROOFS. Rows of floating-point arithmetic (R236 to R238): results rounded to a type fit in its sub-elements. -/

namespace Sys2Proof.Machine

/-! ## Results fit (R196, R204) -/

theorem ieee_lt {eb fb b : Nat} (s : Bool) (h : b < 2 ^ (eb + fb)) : b + b01 s * 2 ^ (eb + fb) < 2 ^ (eb + fb + 1) := by
  rw [pow_succ]
  cases s <;> simp only [b01, if_true, Bool.false_eq_true, if_false] <;> omega

/-- The bits of infinity lie below the sign bit. -/
theorem ieee_top_lt (eb fb : Nat) : (2 ^ eb - 1) * 2 ^ fb < 2 ^ (eb + fb) := by
  rw [pow_add]
  exact Nat.mul_lt_mul_of_pos_right (Nat.sub_lt (Nat.two_pow_pos eb) Nat.one_pos) (Nat.two_pow_pos fb)

theorem nan_ieee_lt {eb fb : Nat} (hfb : 0 < fb) : (Fmt.ieee eb fb).nan < 2 ^ (eb + fb) := by
  have hfrac : 2 ^ (fb - 1) < 2 ^ fb := Nat.pow_lt_pow_right (by decide) (by omega)
  have hexp : 2 ^ eb - 1 + 1 = 2 ^ eb := Nat.sub_add_cancel (Nat.two_pow_pos eb)
  calc (2 ^ eb - 1) * 2 ^ fb + 2 ^ (fb - 1) < (2 ^ eb - 1) * 2 ^ fb + 2 ^ fb := Nat.add_lt_add_left hfrac _
    _ = 2 ^ (eb + fb) := by rw [← Nat.succ_mul, Nat.succ_eq_add_one, hexp, pow_add]

theorem roundTo_ieee_lt {eb fb : Nat} (hfb : 0 < fb) (rm : RMode) (dr : Draw) (x : Num) :
    roundTo (.ieee eb fb) rm dr x < 2 ^ (eb + fb + 1) := by
  have htop := ieee_top_lt eb fb
  cases x with
  | nan => exact (nan_ieee_lt hfb).trans (Nat.pow_lt_pow_right (by decide) (Nat.lt_succ_self _))
  | inf s => exact ieee_lt s htop
  | fin neg m ex st =>
    refine ieee_lt neg ?_
    split
    · exact lt_trans (by assumption) htop
    · split <;> omega

/-- The formats of the floating-point sums. -/
theorem fmtOf_eq_ieee {t : ETy} (h : isFsum t = true) : ∃ eb fb, fmtOf t = .ieee eb fb ∧ 0 < fb ∧ eb + fb + 1 = widthOf t := by
  cases t with
  | f32 => exact ⟨8, 23, rfl, by decide, rfl⟩
  | f64 => exact ⟨11, 52, rfl, by decide, rfl⟩
  | bf16x2 => exact ⟨8, 7, rfl, by decide, rfl⟩
  | f16x2 => exact ⟨5, 10, rfl, by decide, rfl⟩
  | _ => exact absurd h (by decide)

theorem roundTo_mod {t : ETy} (h : isFsum t = true) (rm : RMode) (dr : Draw) (x : Num) :
    roundTo (fmtOf t) rm dr x % 2 ^ widthOf t = roundTo (fmtOf t) rm dr x := by
  obtain ⟨eb, fb, hfmt, hfb, hw⟩ := fmtOf_eq_ieee h
  rw [hfmt, ← hw]
  exact Nat.mod_eq_of_lt (roundTo_ieee_lt hfb rm dr x)

theorem nan_mod {t : ETy} (h : isFsum t = true) : (fmtOf t).nan % 2 ^ widthOf t = (fmtOf t).nan :=
  roundTo_mod h .rne .none .nan

/-- One of two operands, or the canonical NaN, is a sub-element. -/
theorem minOf_mod {t : ETy} (h : isFsum t = true) {x y : Nat} (hx : x < 2 ^ widthOf t) (hy : y < 2 ^ widthOf t) :
    minOf t x y % 2 ^ widthOf t = if ((fmtOf t).val x).isNan ∨ ((fmtOf t).val y).isNan then (fmtOf t).nan
      else if ((fmtOf t).val y).below ((fmtOf t).val x) then y else x := by
  simp only [minOf, Bool.or_eq_true]
  split
  · exact nan_mod h
  · split
    · exact Nat.mod_eq_of_lt hy
    · exact Nat.mod_eq_of_lt hx

theorem maxOf_mod {t : ETy} (h : isFsum t = true) {x y : Nat} (hx : x < 2 ^ widthOf t) (hy : y < 2 ^ widthOf t) :
    maxOf t x y % 2 ^ widthOf t = if ((fmtOf t).val x).isNan ∨ ((fmtOf t).val y).isNan then (fmtOf t).nan
      else if ((fmtOf t).val x).below ((fmtOf t).val y) then y else x := by
  simp only [maxOf, Bool.or_eq_true]
  split
  · exact nan_mod h
  · split
    · exact Nat.mod_eq_of_lt hy
    · exact Nat.mod_eq_of_lt hx

/-! ## Rows -/

section
variable {v : Env} {e : Entry} {d k : Nat}

/-- The value that an instruction packs for element i from its results on sub-elements, each with its draw. -/
def roundedVal (f : ETy → RMode → Draw → List Nat → Nat) (v : Env) (e : Entry) (srcs : List Nat) (i : Nat) : Nat :=
  packSubs e.mode.ety fun j => f e.mode.ety e.mode.rm (e.draw (subsOf e.mode.ety) i j)
    (srcs.map fun r => subOf e.mode.ety (v.value e (pairOf (wideOf e.mode.ety) r) i) j)

theorem sample_roundedOp {unit : UnitId} {lam step : Nat} {srcs : List Nat} {f : ETy → RMode → Draw → List Nat → Nat}
    (h : v.rowStop e k (srcs.flatMap (pairOf (wideOf e.mode.ety))) (pairOf (wideOf e.mode.ety) d) = none) :
    (roundedOp unit lam step d srcs f v e).sample k =
      .ok ((List.range (pairOf (wideOf e.mode.ety) d).length).map fun j => landRow v e (e.t v + lam + step * k) (d + j) k (v.active e)
        (fun i => roundedVal f v e srcs i / 2 ^ (32 * j) % 2 ^ 32) (k + 1 == v.c.rows e.vl), []) := by
  rw [roundedOp, laneOp_packed (fun i j => f e.mode.ety e.mode.rm (e.draw (subsOf e.mode.ety) i j)
    (srcs.map fun r => subOf e.mode.ety (v.value e (pairOf (wideOf e.mode.ety) r) i) j)) (fun i => ?_) rfl h, Env.rowLands_pair]
  · rfl
  · simp only [List.map_map, Function.comp_def]

/-- The row of an instruction whose results are F. -/
theorem roundedRow {x : Instr} {names : ETy → Names} {unit : UnitId} {time : ETy → Nat × Nat} {srcs : List Nat}
    {f : ETy → RMode → Draw → List Nat → Nat} {F : Nat → Nat → Nat}
    (hback : backOf x = some ⟨names, fun v e => roundedOp unit (time e.mode.ety).1 (time e.mode.ety).2 d srcs f v e⟩)
    (hF : ∀ i j, f e.mode.ety e.mode.rm (e.draw (subsOf e.mode.ety) i j)
      (srcs.map fun r => subOf e.mode.ety (v.value e (pairOf (wideOf e.mode.ety) r) i) j) % 2 ^ widthOf e.mode.ety = F i j)
    (h : v.rowStop e k (srcs.flatMap (pairOf (wideOf e.mode.ety))) (pairOf (wideOf e.mode.ety) d) = none) :
    ∃ (o : Back) (val : Nat → Nat), backOf x = some o ∧
      (o.op v e).sample k = .ok ((List.range (pairOf (wideOf e.mode.ety) d).length).map fun j =>
        landRow v e (e.t v + (time e.mode.ety).1 + (time e.mode.ety).2 * k) (d + j) k (v.active e)
          (fun i => val i / 2 ^ (32 * j) % 2 ^ 32) (k + 1 == v.c.rows e.vl), []) ∧
      ∀ i j, j < subsOf e.mode.ety → subOf e.mode.ety (val i) j = F i j :=
  ⟨_, _, hback, sample_roundedOp h, fun i j hj => (subOf_packSubs _ hj).trans (hF i j)⟩

/-- What an instruction on the sign bit makes of a sub-element. -/
def onSign (f : Nat → Nat → Nat) (t : ETy) (_ : RMode) (_ : Draw) (xs : List Nat) : Nat := f (2 ^ (widthOf t - 1)) (arg xs 0)

theorem op_signBack (f : Nat → Nat → Nat) (d a : Nat) : (signBack f d a).op v e =
    roundedOp .fpu (fpTime 3 e.mode.ety).1 (fpTime 3 e.mode.ety).2 d [a] (onSign f) v e := rfl

/-- A row of vfabs or vfneg, under a type of 32 bits or less. -/
theorem signRow {x : Instr} {a : Nat} {f : Nat → Nat → Nat} (ht : e.mode.ety ∈ [.f32, .bf16x2, .f16x2, .f8ax4, .f8bx4])
    (hback : backOf x = some (signBack f d a)) (hf : ∀ z < 2 ^ widthOf e.mode.ety, f (2 ^ (widthOf e.mode.ety - 1)) z < 2 ^ widthOf e.mode.ety)
    (h : v.rowStop e k [a] [d] = none) :
    ∃ (o : Back) (val : Nat → Nat), backOf x = some o ∧
      (o.op v e).sample k = .ok ([landRow v e (e.t v + 3 + k) d k (v.active e) val (k + 1 == v.c.rows e.vl)], []) ∧
      ∀ i j, j < subsOf e.mode.ety → subOf e.mode.ety (val i) j = f (2 ^ (widthOf e.mode.ety - 1)) (subOf e.mode.ety (v.elem e a i) j) := by
  obtain ⟨hw, htime⟩ : wideOf e.mode.ety = false ∧ fpTime 3 e.mode.ety = (3, 1) := by
    revert ht
    cases e.mode.ety <;> decide
  have hpair : ∀ r, pairOf (wideOf e.mode.ety) r = [r] := fun r => by rw [hw]; rfl
  have hstop : v.rowStop e k ([a].flatMap (pairOf (wideOf e.mode.ety))) (pairOf (wideOf e.mode.ety) d) = none := by
    simpa only [List.flatMap_cons, List.flatMap_nil, List.append_nil, hpair] using h
  have hval : ∀ i, roundedVal (onSign f) v e [a] i / 2 ^ (32 * 0) % 2 ^ 32 = roundedVal (onSign f) v e [a] i := fun i => by
    rw [Nat.mul_zero, pow_zero, Nat.div_one]
    exact Nat.mod_eq_of_lt (packSubs_lt _ hw)
  refine ⟨_, roundedVal (onSign f) v e [a], hback, ?_, fun i j hj => ?_⟩
  · rw [op_signBack, sample_roundedOp hstop, htime, hpair]
    simp only [List.length_singleton, List.range_one, List.map_singleton, Nat.add_zero, Nat.one_mul, hval]
  · refine (subOf_packSubs _ hj).trans ?_
    simp only [List.map_singleton, hpair]
    exact Nat.mod_eq_of_lt (hf _ (subOf_lt ..))

end

end Sys2Proof.Machine

/-! PROOFS. Rows of conversions, packs and unpacks (R240 to R242), and the statement about masks, floating point and conversions. -/

namespace Sys2Proof.Machine

/-! ## Classes of types (R240) -/

theorem subsOf_pos (t : ETy) : 0 < subsOf t := by cases t <;> decide

theorem classOf_eq {t : ETy} (h32 : t ≠ .b32) (hbin : t ≠ .bin) : classOf t = some (subsOf t) := by
  simp [classOf, h32, hbin]

theorem packRatio_eq {t u : ETy} {m : Nat} (ht : t ≠ .b32 ∧ t ≠ .bin) (hu : u ≠ .b32 ∧ u ≠ .bin) (hm : m ∈ [2, 4])
    (h : subsOf t = m * subsOf u) : packRatio t u = some m := by
  have hpos := subsOf_pos u
  simp only [packRatio, classOf_eq ht.1 ht.2, classOf_eq hu.1 hu.2, h]
  obtain rfl | rfl : m = 2 ∨ m = 4 := by simpa using hm
  · rw [if_pos rfl]
  · rw [if_neg (by omega), if_pos rfl]

/-! ## Rows -/

theorem arg_map (f : Nat → Nat) {l : List Nat} {n : Nat} (h : n < l.length) : arg (l.map f) n = f ((l[n]?).getD 0) := by
  simp [arg, h]

theorem length_packSrcs {m : Nat} (hm : m ∈ [2, 4]) (a b : Nat) : (packSrcs m a b).length = m := by
  obtain rfl | rfl : m = 2 ∨ m = 4 := by simpa using hm
  · rfl
  · rfl

section
variable {v : Env} {e : Entry} {k d a b s m : Nat}

theorem sample_cvtOp {lam : Nat} (rm : Entry → RMode) (u : ETy)
    (h : v.rowStop e k (pairOf (wideOf u) a) (pairOf (wideOf e.mode.ety) d) = none) :
    (cvtOp lam rm d a u v e).sample k = .ok (v.rowLands e k (e.t v + lam + k) (pairOf (wideOf e.mode.ety) d) (fun i j =>
      (packSubs e.mode.ety fun j => convert u e.mode.ety (rm e) (e.draw (subsOf e.mode.ety) i j)
        (subOf u (v.value e (pairOf (wideOf u) a) i) j)) / 2 ^ (32 * j) % 2 ^ 32), []) := by
  simp only [cvtOp]
  refine (laneOp_packed _ (fun i => rfl) (List.append_nil _) h).trans ?_
  rw [Nat.one_mul]
  rfl

/-- The value that vpack makes for element i (R242). -/
def packedVal (v : Env) (e : Entry) (u : ETy) (srcs : List Nat) (i : Nat) : Nat :=
  packSubs e.mode.ety fun p => convert u e.mode.ety e.mode.rm (e.draw (subsOf e.mode.ety) i p)
    (subOf u (arg (srcs.map fun r => v.elem e r i) (p / subsOf u)) (p % subsOf u))

theorem sample_backVpack (hm : packRatio e.mode.ety (etyOf s) = some m) (h : v.rowStop e k (packSrcs m a b) [d] = none) :
    ((backVpack d a b s).op v e).sample k =
      .ok (v.rowLands e k (e.t v + 4 + k) [d] (fun i _ => packedVal v e (etyOf s) (packSrcs m a b) i), []) := by
  have hall : ((packSrcs m a b).map fun r => [r]).flatten = packSrcs m a b := by
    rw [← List.flatMap_def, List.flatMap_singleton']
  simp only [backVpack, hm, Option.getD_some]
  refine (laneOp_row (fun i j hj => ?_) hall h).trans (by rw [Nat.one_mul])
  obtain rfl : j = 0 := Nat.lt_one_iff.1 hj
  simp only [List.map_map]
  rfl

/-- The value that vunpack makes for element i in destination q (R242). -/
def unpackedVal (v : Env) (e : Entry) (u : ETy) (a q i : Nat) : Nat :=
  packSubs e.mode.ety fun j => convert u e.mode.ety e.mode.rm (e.draw (subsOf u) i (q * subsOf e.mode.ety + j))
    (subOf u (v.elem e a i) (q * subsOf e.mode.ety + j))

theorem sample_backVunpack (hm : packRatio (etyOf s) e.mode.ety = some m)
    (h : v.rowStop e k [a] ((List.range m).map fun q => d + q) = none) :
    ((backVunpack d a s).op v e).sample k = .ok (v.rowLands e k (e.t v + 4 + k) ((List.range m).map fun q => d + q)
      (fun i q => unpackedVal v e (etyOf s) a q i), []) := by
  simp only [backVunpack, hm, Option.getD_some]
  refine (laneOp_row (srcs := [[a]]) (fun i q hq => ?_) rfl h).trans (by rw [Nat.one_mul])
  rw [List.length_map, List.length_range] at hq
  rw [List.getElem?_map, List.getElem?_range hq]
  rfl

end

/-! ## The statement -/

/-- Settles O22: compares and mask operations, the sign bit and compares of f32, rounded arithmetic, and conversions. -/
theorem masksAndFloatCompares : Obligations.MasksAndFloatCompares := by
  unfold Obligations.MasksAndFloatCompares
  refine ⟨fun v e d a b k => ?masks, fun v e d a b k => ?signs, fun v e d a b k hsum => ?arithmetic, fun v e d a b k s => ?conversions⟩
  case masks =>
    intro t A B num row
    refine ⟨forall_mem_four ?eq ?ne ?lt ?le, forall_mem_four ?and ?or ?xor ?not⟩
    case eq => exact fun h _ => ⟨_, rfl, sample_cmpBack condEq h⟩
    case ne => exact fun h _ => ⟨_, rfl, sample_cmpBack condNe h⟩
    case lt =>
      refine fun h ht => ⟨_, rfl, (sample_cmpBack condLt h).trans ?_⟩
      have hcond : ∀ x y, condLt t x y = decide (num x < num y) := fun x y => by
        rw [condLt, intLt_eq, intOf_of_compared ht, intOf_of_compared ht]
      simp only [t, hcond]
      rfl
    case le =>
      refine fun h ht => ⟨_, rfl, (sample_cmpBack condLe h).trans ?_⟩
      have hcond : ∀ x y, condLe t x y = decide (num x ≤ num y) := fun x y => by
        rw [condLe_eq, intOf_of_compared ht, intOf_of_compared ht]
      simp only [t, hcond]
      rfl
    case and => exact ⟨_, rfl, sample_maskBack _⟩
    case or => exact ⟨_, rfl, sample_maskBack _⟩
    case xor => exact ⟨_, rfl, sample_maskBack _⟩
    case not => exact ⟨_, rfl, sample_maskBack _⟩
  case signs =>
    intro t n
    refine ⟨fun ht h => forall_mem_two ?abs ?neg, fun ht h => forall_mem_four ?eq ?lt ?le ?un⟩
    case abs =>
      refine signRow (f := fun s x => x % s) ht rfl (fun z _ => ?_) h
      exact (Nat.mod_lt _ (Nat.two_pow_pos _)).trans_le (Nat.pow_le_pow_right (by decide) (Nat.sub_le ..))
    case neg =>
      refine signRow (f := fun s x => x ^^^ s) ht rfl (fun z hz => Nat.xor_lt_two_pow hz ?_) h
      exact Nat.pow_lt_pow_right (by decide) (Nat.sub_lt (widthOf_pos _) Nat.one_pos)
    case eq => exact ⟨_, rfl, sample_fcmpBack condFeq ht h⟩
    case lt => exact ⟨_, rfl, sample_fcmpBack condFlt ht h⟩
    case le => exact ⟨_, rfl, sample_fcmpBack condFle ht h⟩
    case un => exact ⟨_, rfl, sample_fcmpBack condFun ht h⟩
  case arithmetic =>
    intro t m rm bits A B D rows fpu xfu sum special
    refine ⟨?add, ?sub, ?mul, ?fma, ?fnma, ?div, ?sqrt, fun _ => ⟨?exp2, ?log2⟩, ?min, ?max⟩
    case add => exact roundedRow (time := fpTime 6) rfl fun i j => roundTo_mod hsum ..
    case sub => exact roundedRow (time := fpTime 6) rfl fun i j => roundTo_mod hsum ..
    case mul => exact roundedRow (time := fpTime 6) rfl fun i j => roundTo_mod hsum ..
    case fma => exact roundedRow (time := fpTime 6) rfl fun i j => roundTo_mod hsum ..
    case fnma => exact roundedRow (time := fpTime 6) rfl fun i j => roundTo_mod hsum ..
    case div => exact roundedRow (time := xfTime) rfl fun i j => roundTo_mod hsum ..
    case sqrt => exact roundedRow (time := xfTime) rfl fun i j => roundTo_mod hsum ..
    case exp2 => exact roundedRow (time := xfTime) rfl fun i j => roundTo_mod hsum ..
    case log2 => exact roundedRow (time := xfTime) rfl fun i j => roundTo_mod hsum ..
    case min => exact roundedRow (time := fpTime 6) rfl fun i j => minOf_mod hsum (subOf_lt ..) (subOf_lt ..)
    case max => exact roundedRow (time := fpTime 6) rfl fun i j => maxOf_mod hsum (subOf_lt ..) (subOf_lt ..)
  case conversions =>
    intro t u n from' lands
    refine ⟨fun _ h => forall_mem_two ?cvt ?cvtsr, fun m hm hsubs ht32 htbin hu32 hubin => ?pack,
      fun m hm hsubs ht32 htbin hu32 hubin => ?unpack⟩
    case cvt => exact ⟨_, _, rfl, sample_cvtOp (fun e => e.mode.rm) u h, fun i j hj => subOf_packSubs _ hj⟩
    case cvtsr => exact ⟨_, _, rfl, sample_cvtOp (fun _ => .srnd) u h, fun i j hj => subOf_packSubs _ hj⟩
    case pack =>
      intro srcs h
      have hratio := packRatio_eq ⟨ht32, htbin⟩ ⟨hu32, hubin⟩ hm hsubs
      refine ⟨_, _, rfl, sample_backVpack hratio h, fun i p hp => (subOf_packSubs _ hp).trans ?_⟩
      have hsrc : p / subsOf u < (packSrcs m a b).length := by
        rw [length_packSrcs hm, Nat.div_lt_iff_lt_mul (subsOf_pos u), ← hsubs]
        exact hp
      rw [arg_map _ hsrc]
      rfl
    case unpack =>
      intro dsts h
      have hratio := packRatio_eq ⟨hu32, hubin⟩ ⟨ht32, htbin⟩ hm hsubs
      exact ⟨_, _, rfl, sample_backVunpack hratio h, fun i q j _ hj => subOf_packSubs _ hj⟩

end Sys2Proof.Machine

/-! PROOFS. The statement about scalars and indices fails (R228): under a 32-bit type a row of vid lands each element's index whole, and
the statement, which bounds no row number, reads the container as that index modulo 2^32. -/

namespace Sys2Proof.Machine

/-- What a row of vid lands under a type of 32 bits: in each container its element's index. -/
theorem sample_backVid {v : Env} {e : Entry} {d k : Nat} (hw : wideOf e.mode.ety = false) (h : v.rowStop e k [] [d] = none) :
    ((backVid d).op v e).sample k = .ok (v.rowLands e k (e.t v + 3 + k) [d] (fun i _ => i), []) := by
  simp only [backVid, hw]
  refine (laneOp_row (srcs := []) (fun i j hj => ?_) rfl h).trans (by rw [Nat.one_mul])
  obtain rfl : j = 0 := Nat.lt_one_iff.1 hj
  rfl

/-- Physical lane 0 of a row holds the row's first element, where no lane before it is retired. -/
theorem getElem?_rowData_zero {c : Core} (k : Nat) (f : Nat → Nat) (hlanes : c.lanes ≠ 0) (hphys : c.phys 0 = 0) :
    ((rowData c k f)[0]?).getD 0 = f (k * c.lanes) := by
  obtain ⟨n, hn⟩ := Nat.exists_eq_succ_of_ne_zero hlanes
  simp [rowData, hn, List.range_succ_eq_map, hphys]

/-- Physical lane 0 of the first landing of a row. -/
def firstContainer : Except Stop (List Landing × List Pend) → Nat
  | .ok (l :: _, _) => (l.data[0]?).getD 0
  | .error _ => 0
  | .ok ([], _) => 0

/-- Role L of core 0, with 64 lanes and no stream. -/
def vidEnv : Env := ⟨Tests.under Tests.w0 .i32 3, 0, 0⟩

/-- vid v3 under i32, as its role has it at work. -/
def vidEntry : Entry := handlerEntry vidEnv.s (me vidEnv.s.sys) 0 (.vid 3) []

/-- Refutes O23: of row 2^32 the first element's index is 2^38, which the landing of vid holds whole and no number modulo 2^32 equals. -/
theorem not_scalarsAndIndices : ¬ Obligations.ScalarsAndIndices := by
  unfold Obligations.ScalarsAndIndices
  rintro ⟨hscalars, -, -⟩
  have hty : vidEntry.mode.ety = .i32 := by decide
  have hlanes : vidEnv.c.lanes = 64 := by decide
  have hphys : vidEnv.c.phys 0 = 0 := by decide
  have hstop : vidEnv.rowStop vidEntry (2 ^ 32) [] [3] = none := rowStop_of_unbound _ (by decide)
  obtain ⟨-, -, hvid⟩ := hscalars vidEnv vidEntry 3 0 (2 ^ 32)
  simp only [hty] at hvid
  obtain ⟨⟨o, val, hback, hsample, -⟩, -⟩ := hvid hstop
  obtain rfl : backVid 3 = o := Option.some.inj hback
  have hlanded := congrArg firstContainer ((sample_backVid (by rw [hty]; rfl) hstop).symm.trans hsample)
  have hindex : ((rowData vidEnv.c (2 ^ 32) fun i => i)[0]?).getD 0 =
      ((rowData vidEnv.c (2 ^ 32) fun i => val i / 2 ^ (32 * 0) % 2 ^ 32)[0]?).getD 0 := hlanded
  have hzero : ∀ f, ((rowData vidEnv.c (2 ^ 32) f)[0]?).getD 0 = f (2 ^ 32 * 64) := fun f => by
    rw [getElem?_rowData_zero _ f (by rw [hlanes]; decide) hphys, hlanes]
  rw [hzero, hzero] at hindex
  omega

end Sys2Proof.Machine

/-! PROOFS. Operand slots and tile rows (R255, R268): the claim bit that oclaim and orelease change, the containers that aclear
lands. -/

namespace Sys2Proof.Machine

/-! ## Claims (R255) -/

theorem getLsbD_one_shiftLeft {a n : Nat} (hn : n < 16) : (1#16 <<< a).getLsbD n = decide (n = a) := by
  rw [BitVec.getLsbD_shiftLeft, BitVec.getLsbD_one, Bool.eq_iff_iff]
  simp only [Bool.and_eq_true, decide_eq_true_eq, Bool.not_eq_true', decide_eq_false_iff_not]
  omega

section
variable (v : Env) (e : Entry) (a : Nat)

theorem claimed_fire_backOclaim (y : Sys) {n : Nat} (hn : n < 16) :
    (coreOf (((backOclaim a).op v e).fire y) v.core).claimed n = (decide (n = a) || (coreOf y v.core).claimed n) := by
  simp only [backOclaim, Core.claimed, coreOf_setCore, coreOf_id, if_true, BitVec.getLsbD_or, getLsbD_one_shiftLeft hn]
  exact Bool.or_comm ..

theorem claimed_fire_backOrelease (y : Sys) {n : Nat} (hn : n < 16) :
    (coreOf (((backOrelease a).op v e).fire y) v.core).claimed n = (decide (n ≠ a) && (coreOf y v.core).claimed n) := by
  simp only [backOrelease, Core.claimed, coreOf_setCore, coreOf_id, if_true, BitVec.getLsbD_and, BitVec.getLsbD_not,
    getLsbD_one_shiftLeft hn, hn, decide_true, Bool.true_and, decide_not]
  exact Bool.and_comm ..

theorem check_backOrelease : ((backOrelease a).op v e).check () =
    if v.claimBefore a = true ∧ v.slotBusy a = false then none else some (.trap 15 a) := by
  simp only [backOrelease, causeSlot]
  cases v.claimBefore a <;> cases v.slotBusy a <;> rfl

end

/-! ## Halves of a tile row (R257) -/

/-- The landing of half h of a tile row. -/
def tileHalf (v : Env) (e : Entry) (due t i n : Nat) (f : Nat → Nat) (h : Nat) : Landing :=
  { Landing.of v e due .tile with
    reg := t, row := 2 * i + h, enable := maskOf 64 fun l => decide (64 * h + l < n)
    data := (List.range 64).map fun l => f (64 * h + l), banks := half i }

theorem mem_landTileRow {v : Env} {e : Entry} {due t i n : Nat} {f : Nat → Nat} {l : Landing} :
    l ∈ landTileRow v e due t i n f ↔ ∃ h < 2, tileHalf v e due t i n f h = l := by
  simp only [landTileRow, List.mem_map, List.mem_range]
  rfl

/-- A row of 128 elements enables every container of either half. -/
theorem enable_tileHalf {v : Env} {e : Entry} {due t i : Nat} {f : Nat → Nat} {h : Nat} (hh : h < 2) :
    (tileHalf v e due t i 128 f h).enable = 2 ^ 64 - 1 := by
  obtain rfl | rfl : h = 0 ∨ h = 1 := by omega
  · exact (by decide : (maskOf 64 fun l => decide (64 * 0 + l < 128)) = 2 ^ 64 - 1)
  · exact (by decide : (maskOf 64 fun l => decide (64 * 1 + l < 128)) = 2 ^ 64 - 1)

theorem mem_issue_backAclear {v : Env} {e : Entry} {d : Nat} {l : Landing} : l ∈ (((backAclear d).op v e).issue ()).1 ↔
    ∃ i < 128, ∃ h < 2, tileHalf v e (e.t v + 1 + i) d i 128 (fun _ => 0) h = l := by
  simp only [backAclear, List.mem_flatMap, List.mem_range, mem_landTileRow]

end Sys2Proof.Machine

/-! PROOFS. The grant of a matrix shape (R251 to R254). -/

namespace Sys2Proof.Machine

section
variable {w : Nat}

theorem grantOf_of_reserved (h : field w 63 62 ≠ 0 ∨ field w 55 53 ≠ 0 ∨ field w 47 44 ≠ 0 ∨ field w 31 28 ≠ 0) :
    grantOf w = none := by
  rw [grantOf, if_pos h]

theorem grantOf_of_type (h : 18 < field w 60 56 ∨ 18 < field w 52 48) : grantOf w = none := by
  rw [grantOf, if_pos h, ite_self]

theorem grantOf_of_noClass (h : mclass (etyOf (field w 52 48)) (etyOf (field w 60 56)) = none) : grantOf w = none := by
  simp only [grantOf, h, ite_self]

/-- A request that R254 refuses whatever its class: a reserved bit or type, or types without a class. -/
def BadRequest (w : Nat) : Prop :=
  field w 63 62 ≠ 0 ∨ field w 55 53 ≠ 0 ∨ field w 47 44 ≠ 0 ∨ field w 31 28 ≠ 0 ∨ 18 < field w 60 56 ∨ 18 < field w 52 48 ∨
    mclass (etyOf (field w 52 48)) (etyOf (field w 60 56)) = none

theorem grantOf_of_bad (h : BadRequest w) : grantOf w = none := by
  obtain h | h | h | h | h | h | h := h
  · exact grantOf_of_reserved (.inl h)
  · exact grantOf_of_reserved (.inr (.inl h))
  · exact grantOf_of_reserved (.inr (.inr (.inl h)))
  · exact grantOf_of_reserved (.inr (.inr (.inr h)))
  · exact grantOf_of_type (.inl h)
  · exact grantOf_of_type (.inr h)
  · exact grantOf_of_noClass h

/-- The values of a vector that a request's types allow. -/
def capOf (w : Nat) (c : MClass) : Nat := lcap c (etyOf (field w 52 48)) (etyOf (field w 60 56))

/-- What R254 refuses of a class: two planes of another class than TABLE, an offset past the vector or, under TABLE, inside a group. -/
def RefusedRequest (w : Nat) (c : MClass) : Prop :=
  (w.testBit 61 = true ∧ c ≠ .table) ∨ capOf w c ≤ field w 43 32 ∨ (c = .table ∧ field w 43 32 % 4 ≠ 0)

/-- The K that a request of a class is granted. -/
def grantedK (w : Nat) (c : MClass) : Nat :=
  let k := min (min (max (field w 27 16) 1) (kcap c)) (capOf w c - field w 43 32)
  if c = .table then max 4 (4 * (k / 4)) else k

variable {c : MClass} (hbad : ¬ BadRequest w) (hc : mclass (etyOf (field w 52 48)) (etyOf (field w 60 56)) = some c)
include hbad hc

/-- The grant of a request that has a class, by R254's three refusals. -/
theorem grantOf_of_class : grantOf w =
    if w.testBit 61 && c != .table then none
    else if capOf w c ≤ field w 43 32 then none
    else if c = .table ∧ field w 43 32 % 4 ≠ 0 then none
    else some (min (max (field w 7 0) 1) 128, min (max (field w 15 8) 1) 128, grantedK w c) := by
  simp only [BadRequest, not_or] at hbad
  obtain ⟨h1, h2, h3, h4, h5, h6, -⟩ := hbad
  simp only [grantOf, h1, h2, h3, h4, h5, h6, or_self, if_false, hc]
  rfl

theorem grantOf_of_refused (h : RefusedRequest w c) : grantOf w = none := by
  rw [grantOf_of_class hbad hc]
  obtain ⟨hplanes, htable⟩ | h | h := h
  · rw [if_pos (by simp [hplanes, htable])]
  · rw [if_pos h, ite_self]
  · rw [if_pos h, ite_self, ite_self]

theorem grantOf_of_allowed (h : ¬ RefusedRequest w c) :
    grantOf w = some (min (max (field w 7 0) 1) 128, min (max (field w 15 8) 1) 128, grantedK w c) := by
  simp only [RefusedRequest, not_or] at h
  obtain ⟨hplanes, hcap, halign⟩ := h
  rw [grantOf_of_class hbad hc, if_neg (by simpa using hplanes), if_neg hcap, if_neg halign]

end

theorem grantedK_le (w : Nat) (c : MClass) : grantedK w c ≤ 128 := by
  have hk : kcap c ≤ 128 := by cases c <;> decide
  simp only [grantedK]
  split <;> omega

/-- TSK of a grant (R251): the request with M and N cleared and K in its place. -/
def tskOf (w k : Nat) : Nat := w - field w 27 16 * 65536 - field w 15 0 + k * 65536

theorem field_tskOf {w k : Nat} (hw : w < 2 ^ 64) (hk : k < 4096) :
    field (tskOf w k) 15 0 = 0 ∧ field (tskOf w k) 27 16 = k ∧ field (tskOf w k) 63 28 = field w 63 28 := by
  simp only [field, tskOf]
  omega

section
variable (v : Env) (e : Entry) (d a : Nat)

theorem check_backTshape : ((backTshape d a).op v e).check () = if (grantOf (e.op 0)).isNone then some (.trap 17 0) else none := rfl

theorem issue_backTshape {m n k : Nat} (h : grantOf (e.op 0) = some (m, n, k)) : ((backTshape d a).op v e).issue () =
    ([landCsr v e (e.t v + 1) 0x047 m, landCsr v e (e.t v + 1) 0x048 n, landCsr v e (e.t v + 1) 0x049 (tskOf (e.op 0) k),
      landScalar v e (e.t v + 1) d (tskOf (e.op 0) k + m + 256 * n)], []) := by
  simp only [backTshape, h]
  rfl

end

end Sys2Proof.Machine

/-! PROOFS. The matrix words under the shape of their issue (R258, R262 to R267): what an entry keeps at its issue, and what a tile row
makes of it later. -/

namespace Sys2Proof.Machine

/-! ## What an issued entry keeps -/

/-- The entry once it has issued, with what its issue keeps. -/
def Entry.issuedWith (e : Entry) (v : Env) (acc : List Nat) : Entry := { e with issued := some (e.t v), acc := acc }

section
variable {v : Env} {e : Entry} {s : Shape} {c : Nat} {vals : List Nat}

theorem kept_issuedWith (p : Nat) : kept (e.issuedWith v (keepShape s c vals)) p = (vals[p]?).getD 0 := by
  rw [kept, Nat.add_comm 3 p]
  rfl

theorem keptC_of_unissued (h : e.acc = []) : keptC e c = c := by
  rw [keptC, h]
  rfl

end

/-- A grid of values kept row by row. -/
def gridOf (m n : Nat) (f : Nat → Nat → Nat) : List Nat := (List.range m).flatMap fun i => (List.range n).map (f i)

theorem length_gridOf (m n : Nat) (f : Nat → Nat → Nat) : (gridOf m n f).length = n * m := by
  induction m with
  | zero => rfl
  | succ m ih =>
    rw [gridOf, List.range_succ, List.flatMap_append, List.length_append, ← gridOf, ih]
    simp [Nat.mul_succ]

theorem getElem?_gridOf {m n i j : Nat} (f : Nat → Nat → Nat) (hi : i < m) (hj : j < n) : (gridOf m n f)[n * i + j]? = some (f i j) := by
  induction m with
  | zero => exact absurd hi (Nat.not_lt_zero i)
  | succ m ih =>
    rw [gridOf, List.range_succ, List.flatMap_append, ← gridOf, List.flatMap_singleton]
    obtain hi | rfl := Nat.lt_succ_iff_lt_or_eq.1 hi
    · have hlt : n * i + j < (gridOf m n f).length := by
        rw [length_gridOf]
        exact (Nat.add_lt_add_left hj _).trans_le (Nat.mul_succ n i ▸ Nat.mul_le_mul_left n hi)
      rw [List.getElem?_append_left hlt, ih hi]
    · rw [List.getElem?_append_right (by rw [length_gridOf]; exact Nat.le_add_right ..), length_gridOf, Nat.add_sub_cancel_left,
        List.getElem?_map, List.getElem?_range hj]
      rfl

section
variable {v : Env} {e : Entry} {s : Shape} {c m n i j : Nat}

theorem kept_grid (f : Nat → Nat → Nat) (hi : i < m) (hj : j < n) :
    kept (e.issuedWith v (keepShape s c (gridOf m n f))) (n * i + j) = f i j := by
  rw [kept_issuedWith, getElem?_gridOf f hi hj]
  rfl

/-- After one more value. -/
theorem kept_grid_cons (x : Nat) (f : Nat → Nat → Nat) (hi : i < m) (hj : j < n) :
    kept (e.issuedWith v (keepShape s c (x :: gridOf m n f))) (1 + n * i + j) = f i j := by
  rw [kept_issuedWith, Nat.add_assoc, Nat.add_comm 1, List.getElem?_cons_succ, getElem?_gridOf f hi hj]
  rfl

/-- After one value, a value for each row. -/
theorem kept_row (f : Nat → Nat) (x : Nat) (l : List Nat) (hi : i < m) :
    kept (e.issuedWith v (keepShape s c (x :: (List.range m).map f ++ l))) (1 + i) = f i := by
  rw [kept_issuedWith, Nat.add_comm 1, List.cons_append, List.getElem?_cons_succ,
    List.getElem?_append_left (by simpa using hi), List.getElem?_map, List.getElem?_range hi]
  rfl

/-- After those of the rows, a value for each column. -/
theorem kept_column (f g : Nat → Nat) (x : Nat) (hj : j < n) :
    kept (e.issuedWith v (keepShape s c (x :: (List.range m).map f ++ (List.range n).map g))) (1 + m + j) = g j := by
  rw [kept_issuedWith, Nat.add_assoc, Nat.add_comm 1, List.cons_append, List.getElem?_cons_succ]
  simp [hj]

end

/-! ## Instructions that keep values and sample tile rows -/

/-- How a row lands from the values of its elements: environment, entry, cycle, row, values. -/
abbrev RowLands := Env → Entry → Nat → Nat → (Nat → Nat) → List Landing

/-- Under M × N of its issue a word lands nothing at once; each of its M rows, sampled anywhere later, lands from cycle t + c + 8 on
the N values that f gives. -/
def SamplesRows (v : Env) (e : Entry) (m n : Nat) (i : Instr) (c : Nat) (row : RowLands) (f : Env → Nat → Nat → Nat) : Prop :=
  ∃ o, backOf i = some o ∧ ((o.op v e).issue ()).1 = [] ∧
    ∀ z : Env, (o.op z (e.issuedWith v ((o.op v e).issue ()).2)).rows = m ∧
      ∀ r < m, ∃ g, (o.op z (e.issuedWith v ((o.op v e).issue ()).2)).sample r =
        .ok (row z (e.issuedWith v ((o.op v e).issue ()).2) (e.t v + c + 8 + r) r g, []) ∧ ∀ j < n, g j = f z r j

/-- A word that keeps a list at its issue, from which its rows are sampled. -/
theorem samplesRows_of_issue {v : Env} {e : Entry} {m n : Nat} {i : Instr} {c : Nat} {row : RowLands} {f : Env → Nat → Nat → Nat}
    {o : Back} {acc : List Nat} (hback : backOf i = some o) (hissue : (o.op v e).issue () = ([], acc))
    (hrows : ∀ z, (o.op z (e.issuedWith v acc)).rows = m) (g : Env → Nat → Nat → Nat)
    (hsample : ∀ z r, (o.op z (e.issuedWith v acc)).sample r = .ok (row z (e.issuedWith v acc) (e.t v + c + 8 + r) r (g z r), []))
    (hg : ∀ z, ∀ r < m, ∀ j < n, g z r j = f z r j) : SamplesRows v e m n i c row f := by
  refine ⟨o, hback, congrArg Prod.fst hissue, ?_⟩
  rw [hissue]
  exact fun z => ⟨hrows z, fun r hr => ⟨g z r, hsample z r, hg z r hr⟩⟩

/-- One tile, or a pair, below N elements. -/
def tileLands (d n : Nat) : RowLands := fun z e due r g => landTileRow z e due d r n g
/-- A tile pair, below N elements. -/
def pairLands (d n : Nat) : RowLands := fun z e due r g => landPairRow z e due d r n g

/-! ## Blocks (R262) -/

/-- Product k of two vectors in units of the shape's binary point; none where a factor is not finite. -/
def blockTerm (s : Shape) (va vb k : Nat) : Option Int :=
  match unitsOf (fracOf s.ta) ((fmtOf s.ta).val (posOf s.ta va (s.koff + k))),
        unitsOf (fracOf s.tb) ((fmtOf s.tb).val (posOf s.tb vb (s.koff + k))) with
  | some x, some y => some (x * y)
  | _, _ => none

theorem blockPartial_eq (s : Shape) (va vb : Nat) : blockPartial s va vb =
    if ∃ k ∈ List.range s.k, blockTerm s va vb k = none then 2 ^ 63
    else (((List.range s.k).map fun k => (blockTerm s va vb k).getD 0).sum % 2 ^ 64).toNat := by
  have hpartial : blockPartial s va vb = if ((List.range s.k).map (blockTerm s va vb)).any Option.isNone then 2 ^ 63
      else wrap 64 ((((List.range s.k).map (blockTerm s va vb)).map fun t => t.getD 0).foldl (· + ·) 0) := rfl
  rw [hpartial, List.map_map, ← List.sum_eq_foldl, List.any_map]
  refine if_congr ?_ rfl rfl
  simp only [List.any_eq_true, Function.comp_apply, Option.isNone_iff_eq_none]

section
variable {v : Env} {e : Entry} {d a b : Nat} (hacc : e.acc = [])
include hacc

theorem issue_mmabOp_block (ordered : Bool) (h : v.shape.cls = some .block) : ((mmabOp ordered d a b v e).issue ()).1 =
    (List.range v.shape.m).flatMap fun i => landPairRow v e (e.t v + cyclesOf v.shape .block 0 + 8 + i) d i v.shape.n fun j =>
      if j < v.shape.n then blockPartial v.shape (v.c.slotVec a i) (v.c.slotVec b j) else 0 := by
  simp only [mmabOp, h, decide_true, if_true, keptC_of_unissued hacc]
  refine congrArg (List.flatMap · _) (funext fun i => congrArg _ (funext fun j => ?_))
  split
  · next hj => simp [hj]
  · next hj => simp [hj]

/-! ## FP products (R263) -/

theorem issue_mmabOp_fp (ordered : Bool) (h : v.shape.cls = some .fp) : (mmabOp ordered d a b v e).issue () =
    ([], keepShape v.shape v.shape.k (1 :: gridOf v.shape.m v.shape.n fun i j =>
      fpDot v.shape ordered e.mode.rm (tileDraw e i j) (v.c.slotVec a i) (v.c.slotVec b j))) := by
  simp only [mmabOp, h, keptC_of_unissued hacc]
  rw [if_neg (by decide)]
  refine congrArg (fun l => ([], keepShape v.shape v.shape.k (1 :: l))) ?_
  refine congrArg (List.flatMap · _) (funext fun i => List.map_congr_left fun j hj => ?_)
  rw [List.mem_range] at hj
  simp [hj]

end

/-- A value added to its tile's element, under f32. -/
def addToTile (e : Entry) (d : Nat) (z : Env) (i j x : Nat) : Nat :=
  roundTo (.ieee 8 23) e.mode.rm (tileDraw e i j)
    (((Fmt.ieee 8 23).val (z.c.tile d i j)).add e.mode.rm ((Fmt.ieee 8 23).val x))

section
variable {v : Env} {e : Entry} {d a b : Nat}

/-- Either form of mmab under an FP shape adds its sum of products to its tile. -/
theorem samplesRows_mmab {i : Instr} {o : Back} {ordered : Bool} (hback : backOf i = some o) (hop : o.op = mmabOp ordered d a b)
    (hacc : e.acc = []) (h : v.shape.cls = some .fp) {f : Nat → Nat → Nat}
    (hf : ∀ i j, fpDot v.shape ordered e.mode.rm (tileDraw e i j) (v.c.slotVec a i) (v.c.slotVec b j) = f i j) :
    SamplesRows v e v.shape.m v.shape.n i v.shape.k (tileLands d v.shape.n) fun z i j => addToTile e d z i j (f i j) := by
  refine samplesRows_of_issue hback (hop ▸ issue_mmabOp_fp hacc ordered h) (by rw [hop]; exact fun z => rfl) _
    (by rw [hop]; exact fun z r => rfl) fun z r hr j hj => ?_
  exact congrArg (addToTile e d z r j) ((kept_grid_cons _ _ hr hj).trans (hf r j))

theorem fpDot_ordered (s : Shape) (rm : RMode) (dr : Draw) (va vb : Nat) : fpDot s true rm dr va vb =
    (List.range s.k).foldl (fun acc k => roundTo (.ieee 8 23) rm dr (((Fmt.ieee 8 23).val acc).add rm
      (((fmtOf s.ta).val (posOf s.ta va (s.koff + k))).mul ((fmtOf s.tb).val (posOf s.tb vb (s.koff + k)))))) (2 ^ 31) :=
  List.foldl_map

/-- Unordered, the products after the first are added to it exactly and the sum is rounded once. -/
theorem fpDot_exact {s : Shape} (hk : s.k ≠ 0) (rm : RMode) (dr : Draw) (va vb : Nat) : fpDot s false rm dr va vb =
    roundTo (.ieee 8 23) rm dr (((List.range s.k).drop 1).foldl (fun acc k => acc.add rm
      (((fmtOf s.ta).val (posOf s.ta va (s.koff + k))).mul ((fmtOf s.tb).val (posOf s.tb vb (s.koff + k)))))
      (((fmtOf s.ta).val (posOf s.ta va (s.koff + 0))).mul ((fmtOf s.tb).val (posOf s.tb vb (s.koff + 0))))) := by
  obtain ⟨n, hn⟩ := Nat.exists_eq_succ_of_ne_zero hk
  rw [fpDot, fpProducts, hn, List.range_succ_eq_map]
  exact congrArg (roundTo _ rm dr) List.foldl_map

/-! ## Scales (R264) -/

/-- A partial in units of the shape's binary point, scaled by a row's and a column's factor and rounded. -/
def scaledPartial (s : Shape) (rm : RMode) (dr : Draw) (p sa sb : Nat) : Nat :=
  if p = 2 ^ 63 then Fmt.nan (.ieee 8 23)
  else roundTo (.ieee 8 23) rm dr
    (((Num.fin (decide (sx 64 p < 0)) (sx 64 p).natAbs (-(s.frac : Int)) false).mul (Fmt.sc12.val (sa % 4096))).mul
      (Fmt.sc12.val (sb % 4096)))

theorem samplesRows_xscacc (x : Nat) : SamplesRows v e v.shape.m v.shape.n (.xscacc d a b x) 0 (tileLands d v.shape.n) fun z i j =>
    addToTile e d z i j (scaledPartial v.shape e.mode.rm (tileDraw e i j) (z.c.pairElem x i j) (v.c.slotNat a (2 * i) 2)
      (v.c.slotNat b (2 * j) 2)) := by
  refine samplesRows_of_issue (o := backXscacc d a b x) rfl rfl (fun z => rfl) _ (fun z r => rfl) fun z r hr j hj => ?_
  have hrow := kept_row (v := v) (e := e) (s := v.shape) (c := v.shape.m) (fun i => v.c.slotNat a (2 * i) 2) v.shape.frac
    ((List.range v.shape.n).map fun j => v.c.slotNat b (2 * j) 2) hr
  have hcolumn := kept_column (v := v) (e := e) (s := v.shape) (c := v.shape.m) (fun i => v.c.slotNat a (2 * i) 2)
    (fun j => v.c.slotNat b (2 * j) 2) v.shape.frac (m := v.shape.m) hj
  exact congrArg₂ (fun p q => addToTile e d z r j (scaledPartial v.shape e.mode.rm (tileDraw e r j) (z.c.pairElem x r j) p q))
    hrow hcolumn

/-! ## Split-precision FP64 (R265) -/

/-- A split-precision product added to its pair's element, under f64; a NaN stays. -/
def addToPair (d : Nat) (z : Env) (i j x : Nat) : Nat :=
  if x = Fmt.nan (.ieee 11 52) then Fmt.nan (.ieee 11 52)
  else roundTo (.ieee 11 52) .rne .none (((Fmt.ieee 11 52).val (z.c.pairElem d i j)).add .rne ((Fmt.ieee 11 52).val x))

theorem samplesRows_mmad (hacc : e.acc = []) : SamplesRows v e v.shape.m v.shape.n (.mmad d a b)
    (cyclesOf v.shape .fp64 e.vtype) (pairLands d v.shape.n) fun z i j =>
      addToPair d z i j (splitDot e.vtype (vecVals v.shape .f64 (v.c.slotVec a i)) (vecVals v.shape .f64 (v.c.slotVec b j))) := by
  have hissue : ((backMmad d a b).op v e).issue () = ([], keepShape v.shape (cyclesOf v.shape .fp64 e.vtype)
      (gridOf v.shape.m v.shape.n fun i j =>
        splitDot e.vtype (vecVals v.shape .f64 (v.c.slotVec a i)) (vecVals v.shape .f64 (v.c.slotVec b j)))) := by
    simp only [backMmad, keptC_of_unissued hacc, List.map_map]
    rfl
  refine samplesRows_of_issue rfl hissue (fun z => rfl) _ (fun z r => rfl) fun z r hr j hj => ?_
  exact congrArg (addToPair d z r j) (kept_grid _ hr hj)

theorem mclass_eq_fp64 {s t : ETy} (h : mclass s t = some .fp64) : s = .f64 ∧ t = .f64 := by
  unfold mclass at h
  split at h
  · cases h
  split at h
  · cases h
  split at h
  · assumption
  split at h <;> cases h

/-! ## Tables (R266, R267) -/

theorem wrap_eq (w : Nat) (x : Int) : wrap w x = (x % 2 ^ w).toNat := by
  rw [wrap, Nat.cast_pow]
  rfl

theorem tableSum_eq (s : Shape) (vec g p : Nat) : tableSum s vec g p = ((List.range 4).map fun q =>
    if p.testBit q then intOf s.ta (posOf s.ta vec (s.koff + (4 * g + q)))
    else -intOf s.ta (posOf s.ta vec (s.koff + (4 * g + q)))).sum := by
  simp only [tableSum, ← List.sum_eq_foldl, Nat.add_assoc]

theorem issue_backMtbl (hacc : e.acc = []) : (((backMtbl a b).op v e).issue ()).1 = (List.range v.shape.m).map fun i =>
    landSlot v e (e.t v + ceilDiv v.shape.k 8 + 8) b i (2 ^ v.shape.k - 1) (tableWords v.shape (v.c.slotVec a i)) := by
  simp only [backMtbl, keptC_of_unissued hacc]

/-- The pattern of four weight bits from bit p of a weight vector. -/
def weightsAt (word p : Nat) : Nat := ((List.range 4).map fun q => if word.testBit (p + q) then 2 ^ q else 0).sum

/-- The entry that a pattern of four weights names (R267): without the highest of them, its complement's, negated. -/
def entryOf (tab g p : Nat) : Int :=
  if 8 ≤ p then sx 16 (tab / 2 ^ (128 * g + 16 * (p - 8))) else -sx 16 (tab / 2 ^ (128 * g + 16 * (7 - p)))

/-- The entries that plane h of a weight vector names. -/
def planeSum (s : Shape) (tab word h : Nat) : Int :=
  ((List.range (s.k / 4)).map fun g => entryOf tab g (weightsAt word (1024 * h + s.koff + 4 * g))).sum

theorem lookupSum_eq (s : Shape) (tab word : Nat) : lookupSum s tab word =
    wrap 32 (if s.planes = 1 then planeSum s tab word 0 else 2 * planeSum s tab word 1 + planeSum s tab word 0) := by
  have hbit : ∀ (p : Bool) (q : Nat), b01 p * 2 ^ q = if p then 2 ^ q else 0 := fun p q => by cases p <;> simp [b01]
  have hplace : ∀ g p : Nat, 8 * (16 * g + 2 * p) = 128 * g + 16 * p := fun g p => by omega
  simp only [lookupSum, ← List.sum_eq_foldl, hbit, hplace]
  rfl

theorem add_wrap_mod (w x : Nat) (y : Int) : (x + wrap w y) % 2 ^ w = (((x : Int) + y) % 2 ^ w).toNat := by
  have hcast : (((x + wrap w y) % 2 ^ w : Nat) : Int) = ((x : Int) + y) % 2 ^ w := by
    rw [Int.natCast_mod, Nat.cast_add, wrap_cast, Int.add_emod_emod, Nat.cast_pow]
    rfl
  rw [← hcast, Int.toNat_natCast]

theorem samplesRows_mmal (hacc : e.acc = []) : SamplesRows v e v.shape.m v.shape.n (.mmal d a b)
    (cyclesOf v.shape .table 0) (tileLands d v.shape.n) fun z i j =>
      (z.c.tile d i j + lookupSum v.shape (v.c.slotVec a i) (v.c.slotVec b j)) % 2 ^ 32 := by
  have hissue : ((backMmal d a b).op v e).issue () = ([], keepShape v.shape (cyclesOf v.shape .table 0)
      (gridOf v.shape.m v.shape.n fun i j => lookupSum v.shape (v.c.slotVec a i) (v.c.slotVec b j))) := by
    simp only [backMmal, keptC_of_unissued hacc, List.map_map]
    rfl
  refine samplesRows_of_issue rfl hissue (fun z => rfl) _ (fun z r => rfl) fun z r hr j hj => ?_
  exact congrArg (fun x => (z.c.tile d r j + x) % 2 ^ 32) (kept_grid _ hr hj)

end

end Sys2Proof.Machine

/-! PROOFS. Moves between the scratchpad and slots or tiles (R256, R268): the checks of their addresses, and what they land. -/

namespace Sys2Proof.Machine

/-- n bytes at the place o that address a names lie in this core's scratchpad. -/
def OwnPlace (v : Env) (a n o : Nat) : Prop := spAddr v.s.sys v.core a = some (v.core, o) ∧ o + n ≤ spadSize v.c.partN

/-- No byte of n at offset o lies in a poisoned granule. -/
def CleanBytes (v : Env) (n o : Nat) : Prop := ∀ j < n, v.c.poisoned (o + j) = false

section
variable {v : Env} {a n o : Nat}

theorem OwnPlace.offset_eq (h : OwnPlace v a n o) : o = field a 21 0 := (spAddr_eq_some h.1).2

theorem ownBytes_of_ownPlace (ha : a < 2 ^ 32) (h : OwnPlace v a n o) : v.ownBytes a n = .ok o := by
  have hsize : ¬ spadSize v.c.partN < o + n := not_lt.2 h.2
  rw [Env.ownBytes, if_neg (by omega), h.1]
  simp [hsize]

theorem ownBytes_of_big (ha : 2 ^ 32 ≤ a) : v.ownBytes a n = .error (.trap 10 0) := by
  rw [Env.ownBytes, if_pos (show 4294967296 ≤ a from ha)]
  rfl

theorem ownBytes_of_not_ownPlace (h : ∀ o, ¬ OwnPlace v a n o) : v.ownBytes a n = .error (.trap 10 0) := by
  rw [Env.ownBytes]
  split
  case h_1 t o hat =>
    refine if_pos ?_
    rw [Bool.or_eq_true, decide_eq_true_eq, decide_eq_true_eq, or_iff_not_imp_left, not_not]
    rintro rfl
    refine lt_of_not_ge fun hsize => h o ⟨?_, hsize⟩
    split at hat
    · cases hat
    · exact hat
  case h_2 => rfl

/-- The check of an address goes on to a check of the place that it names, or is SPADDR. -/
theorem check_ownBytes_eq_none_iff (ha : a < 2 ^ 32) (next : Nat → Option Stop) :
    (match v.ownBytes a n with | .error st => some st | .ok o => next o) = none ↔ ∃ o, OwnPlace v a n o ∧ next o = none := by
  by_cases h : ∃ o, OwnPlace v a n o
  · obtain ⟨o, ho⟩ := h
    rw [ownBytes_of_ownPlace ha ho]
    refine ⟨fun hnext => ⟨o, ho, hnext⟩, ?_⟩
    rintro ⟨p, hp, hnext⟩
    rw [ho.offset_eq, ← hp.offset_eq]
    exact hnext
  · rw [ownBytes_of_not_ownPlace (not_exists.1 h)]
    refine iff_of_false (by simp) ?_
    rintro ⟨o, ho, -⟩
    exact h ⟨o, ho⟩

/-- Words at multiples of four lie each in one granule, so that the first byte of each is enough. -/
theorem poisonAt_eq_none_iff (ho : o % 4 = 0) (hn : n % 4 = 0) : v.poisonAt o n = none ↔ CleanBytes v n o := by
  simp only [Env.poisonAt, Option.map_eq_none_iff, List.find?_eq_none, List.mem_range, Bool.not_eq_true]
  refine ⟨fun h j hj => ?_, fun h w hw => h (4 * w) (by omega)⟩
  have hword := h (j / 4) (by omega)
  have hbyte := poisoned_of_aligned v.c (w := 2) (o := o + 4 * (j / 4)) (j := j % 4) (by decide) (by omega) (Nat.mod_lt _ (by decide))
  rwa [show o + 4 * (j / 4) + j % 4 = o + j by omega, hword] at hbyte

end

/-! ## Operand slots (R256) -/

theorem field_low {w : Nat} (hw : w < 2 ^ 32) : field w 31 0 = w := by
  simp only [field]
  omega

theorem field_field_low (w : Nat) : field (field w 31 0) 21 0 = field w 21 0 := by
  simp only [field]
  omega

section
variable (v : Env) (e : Entry) (a d : Nat)

theorem check_backOload : ((backOload a d).op v e).check () = none ↔
    field (e.op 0) 63 47 = 0 ∧ 1 ≤ field (e.op 0) 39 32 ∧ field (e.op 0) 46 40 + field (e.op 0) 39 32 ≤ 128 ∧
      field (e.op 0) 21 0 % 256 = 0 ∧ v.c.claimed a = true ∧
      ∃ p, OwnPlace v (field (e.op 0) 31 0) (256 * field (e.op 0) 39 32) p ∧ CleanBytes v (256 * field (e.op 0) 39 32) p := by
  set w := e.op 0
  have halign : field w 31 0 % 256 = field w 21 0 % 256 := by
    simp only [field]
    omega
  have hcheck : ((backOload a d).op v e).check () =
      if field w 63 47 ≠ 0 ∨ field w 39 32 = 0 ∨ 128 < field w 46 40 + field w 39 32 ∨ field w 31 0 % 256 ≠ 0 then some (.trap 17 0)
      else if !v.c.claimed a then some (.trap 15 a)
      else match v.ownBytes (field w 31 0) (256 * field w 39 32) with
        | .error st => some st
        | .ok o => v.poisonAt o (256 * field w 39 32) := rfl
  have haddr : field w 31 0 < 2 ^ 32 := Nat.mod_lt _ (by decide)
  rw [hcheck]
  by_cases hword : field w 63 47 ≠ 0 ∨ field w 39 32 = 0 ∨ 128 < field w 46 40 + field w 39 32 ∨ field w 31 0 % 256 ≠ 0
  · rw [if_pos hword]
    exact iff_of_false (by simp) (by omega)
  · rw [if_neg hword]
    simp only [ne_eq, not_or, not_not] at hword
    obtain ⟨hhigh, hcount, hlast, haligned⟩ := hword
    by_cases hclaim : v.c.claimed a = true
    · rw [if_neg (by simp [hclaim]), check_ownBytes_eq_none_iff haddr]
      have hclean : ∀ p, OwnPlace v (field w 31 0) (256 * field w 39 32) p →
          (v.poisonAt p (256 * field w 39 32) = none ↔ CleanBytes v (256 * field w 39 32) p) := fun p hp => by
        have hoff := hp.offset_eq.trans (field_field_low w)
        exact poisonAt_eq_none_iff (by omega) (by omega)
      rw [exists_congr fun p => and_congr_right (hclean p)]
      exact ⟨fun h => ⟨hhigh, by omega, by omega, by omega, hclaim, h⟩, fun ⟨_, _, _, _, _, h⟩ => h⟩
    · rw [if_pos (by simpa using hclaim)]
      exact iff_of_false (by simp) fun ⟨_, _, _, _, h, _⟩ => hclaim h

theorem sample_backOload (q : Nat) : ((backOload a d).op v e).sample q =
    .ok ((List.range (min 4 (field (e.op 0) 39 32 - 4 * q))).map fun p =>
      landSlot v e (e.t v + 2 + q) a (field (e.op 0) 46 40 + 4 * q + p) (2 ^ 64 - 1)
        ((List.range 64).map fun c => v.c.snat (field (e.op 0) 21 0 + 1024 * q + 256 * p + 4 * c) 4), []) := by
  rw [← field_field_low]
  rfl

end

/-! ## Tiles (R268) -/

section
variable {v : Env} {a m : Nat}

theorem tileAddr_of_big (ha : 2 ^ 32 ≤ a) : tileAddr v a m = .error (.trap 10 0) := by
  rw [tileAddr, ownBytes_of_big ha]

/-- The checks of a tile's place: address, alignment, then what comes next. -/
theorem check_tileAddr_eq_none_iff (ha : a < 2 ^ 32) (next : Nat → Option Stop) :
    (match tileAddr v a m with | .error st => some st | .ok o => next o) = none ↔
      ∃ o, OwnPlace v a (512 * m) o ∧ o % 512 = 0 ∧ next o = none := by
  have htile : (match tileAddr v a m with | .error st => some st | .ok o => next o) =
      match v.ownBytes a (512 * m) with
        | .error st => some st
        | .ok o => if o % 512 ≠ 0 then some (.trap 9 0) else next o := by
    rw [tileAddr]
    cases v.ownBytes a (512 * m) with
    | error st => rfl
    | ok o =>
      by_cases ho : o % 512 ≠ 0
      · simp only [if_pos ho]
        rfl
      · simp only [if_neg ho]
  rw [htile, check_ownBytes_eq_none_iff ha]
  refine exists_congr fun o => and_congr_right fun _ => ?_
  by_cases ho : o % 512 = 0
  · rw [if_neg (not_not.2 ho), and_iff_right ho]
  · rw [if_pos ho]
    exact iff_of_false (by simp) fun h => ho h.1

variable {e : Entry}

theorem check_backAload_of_big (d b : Nat) (hw : 2 ^ 32 ≤ e.op 0) : ((backAload d b).op v e).check () = some (.trap 10 0) := by
  simp only [backAload, tileAddr_of_big hw]

theorem check_backAstore_of_big (d b : Nat) (hw : 2 ^ 32 ≤ e.op 0) : ((backAstore d b).op v e).check () = some (.trap 10 0) := by
  simp only [backAstore, tileAddr_of_big hw]

theorem check_backAload (d b : Nat) (hw : e.op 0 < 2 ^ 32) : ((backAload d b).op v { e with acc := [] }).check () = none ↔
    ∃ p, OwnPlace v (e.op 0) (512 * v.shape.m) p ∧ p % 512 = 0 ∧ CleanBytes v (512 * v.shape.m) p := by
  refine (check_tileAddr_eq_none_iff (m := v.shape.m) hw fun o => v.poisonAt o (512 * v.shape.m)).trans ?_
  refine exists_congr fun p => and_congr_right fun _ => and_congr_right fun hp => poisonAt_eq_none_iff ?_ ?_
  · omega
  · omega

theorem check_backAstore (d b : Nat) (hw : e.op 0 < 2 ^ 32) : ((backAstore d b).op v { e with acc := [] }).check () = none ↔
    ∃ p, OwnPlace v (e.op 0) (512 * v.shape.m) p ∧ p % 512 = 0 := by
  refine (check_tileAddr_eq_none_iff (m := v.shape.m) hw fun _ => none).trans ?_
  simp only [and_true]

end

end Sys2Proof.Machine

/-! PROOFS. The statement about operand slots, tiles and the matrix words. -/

namespace Sys2Proof.Machine

/-- Settles O25: claims and cleared tiles, grants of shapes, the matrix words under the shape of their issue, and the moves between the
scratchpad and slots or tiles. -/
theorem slotsAndTiles : Obligations.SlotsAndTiles := by
  unfold Obligations.SlotsAndTiles
  refine ⟨fun v e a d ha => ⟨⟨_, rfl, rfl, fun y n hn => claimed_fire_backOclaim v e a y hn⟩,
      ⟨_, rfl, check_backOrelease v e a, fun y n hn => claimed_fire_backOrelease v e a y hn⟩, ⟨_, rfl, rfl, ?cleared, ?rows⟩⟩,
    fun v e a d => ?shapes, fun v e d a b x hacc => ?products, fun v e a d k => ?moves⟩
  case cleared =>
    intro l hl
    obtain ⟨i, hi, h, hh, rfl⟩ := mem_issue_backAclear.1 hl
    refine ⟨rfl, rfl, fun x hx => ?_, i, hi, rfl, ?_⟩
    · obtain ⟨-, -, rfl⟩ := List.mem_map.1 hx
      rfl
    · exact (by omega : (2 * i + h) / 2 = i)
  case rows =>
    exact fun i hi h hh => ⟨_, mem_issue_backAclear.2 ⟨i, hi, h, hh, rfl⟩, rfl, rfl, enable_tileHalf hh⟩
  case shapes =>
    intro w ty cl koff bad cap refused
    refine ⟨_, rfl, fun hbad => ?_, fun c hbad hc => ⟨fun hrefused => ?_, fun hrefused hw => ?_⟩⟩
    · rw [check_backTshape, grantOf_of_bad hbad]
      rfl
    · rw [check_backTshape, grantOf_of_refused hbad hc hrefused]
      rfl
    · have hgrant := grantOf_of_allowed hbad hc hrefused
      refine ⟨tskOf w (grantedK w c), ?_, issue_backTshape v e d a hgrant, field_tskOf hw ((grantedK_le w c).trans_lt (by decide))⟩
      rw [check_backTshape, hgrant]
      rfl
  case products =>
    intro s m n t rm f32 f64 dr A B ks rows one pair
    refine ⟨fun hblock => ?block, fun hfp hk => ⟨?ordered, ?once⟩, fun _ => samplesRows_xscacc x, fun hdouble => ?double,
      fun _ => ⟨⟨_, rfl, ?table⟩, ?lookup⟩⟩
    case block =>
      refine forall_mem_two ⟨_, rfl, (issue_mmabOp_block hacc true hblock).trans ?_⟩
        ⟨_, rfl, (issue_mmabOp_block hacc false hblock).trans ?_⟩
      · simp only [blockPartial_eq]
        rfl
      · simp only [blockPartial_eq]
        rfl
    case ordered => exact samplesRows_mmab rfl rfl hacc hfp fun i j => fpDot_ordered ..
    case once => exact samplesRows_mmab rfl rfl hacc hfp fun i j => fpDot_exact hk ..
    case double =>
      obtain ⟨hta, htb⟩ := mclass_eq_fp64 hdouble
      have hrow : ∀ i, (ks.map fun k => f64.val (A i k)) = vecVals s .f64 (v.c.slotVec a i) := fun i => by
        simp only [A, hta]
        rfl
      have hcolumn : ∀ j, (ks.map fun k => f64.val (B j k)) = vecVals s .f64 (v.c.slotVec b j) := fun j => by
        simp only [B, htb]
        rfl
      simp only [hrow, hcolumn]
      exact samplesRows_mmad hacc
    case table =>
      refine (issue_backMtbl hacc).trans ?_
      simp only [tableWords, tableSum_eq, wrap_eq]
      rfl
    case lookup =>
      have hlookup := samplesRows_mmal (v := v) (e := e) (d := d) (a := a) (b := b) hacc
      simp only [lookupSum_eq, add_wrap_mod] at hlookup
      exact hlookup
  case moves =>
    intro w first count off own clean
    refine ⟨⟨_, rfl, check_backOload v e a d, rfl, sample_backOload v e a d⟩, ?_⟩
    intro m
    have hown : w < 2 ^ 32 → ∀ n p, OwnPlace v w n p ↔ own n p := fun hw n p => by
      simp only [own, field_low hw]
      rfl
    refine forall_mem_two ⟨_, rfl, fun hw => ?load, fun hw => ?loadBig, rfl, fun z => rfl, fun _ z => rfl, nofun⟩
      ⟨_, rfl, fun hw => ?store, fun hw => ?storeBig, rfl, fun z => rfl, nofun, fun _ z => rfl⟩
    case load =>
      refine (check_backAload d a hw).trans (exists_congr fun p => and_congr (hown hw ..) (and_congr_right fun _ => ?_))
      exact ⟨fun h _ => h, fun h => h rfl⟩
    case store =>
      exact (check_backAstore d a hw).trans (exists_congr fun p => and_congr (hown hw ..) (and_iff_left nofun).symm)
    case loadBig => exact check_backAload_of_big d a hw
    case storeBig => exact check_backAstore_of_big d a hw

end Sys2Proof.Machine

/-! PROOFS. How a generation stands to the open one (R280), and the events of barriers (R281 to R285). -/

namespace Sys2Proof.Machine

/-! ## Generations (R280) -/

/-- How many generations, modulo 2^32, one lies behind GEN. -/
def genBehind (gen g : Nat) : Nat := (gen + 2 ^ 32 - g % 2 ^ 32) % 2 ^ 32

theorem genClass_eq (gen resolved g : Nat) : genClass gen resolved g =
    if genBehind gen g = 0 then .opened
    else if genBehind gen g ≤ 2 && genBehind gen g ≤ resolved then .resolved (genBehind gen g)
    else if 2 ^ 31 < genBehind gen g then .ahead else .stale := rfl

section
variable {gen resolved g k : Nat}

theorem genClass_eq_opened_iff : genClass gen resolved g = .opened ↔ genBehind gen g = 0 := by
  rw [genClass_eq]
  split_ifs with hopen hdone hahead <;> simp [hopen]

theorem genClass_eq_resolved_iff :
    genClass gen resolved g = .resolved k ↔ (k = 1 ∨ k = 2) ∧ k ≤ resolved ∧ genBehind gen g = k := by
  rw [genClass_eq]
  split_ifs with hopen hdone hahead
  · simp only [false_iff]
    omega
  · simp only [Bool.and_eq_true, decide_eq_true_eq] at hdone
    simp only [GenClass.resolved.injEq]
    omega
  all_goals
    simp only [Bool.and_eq_true, decide_eq_true_eq] at hdone
    simp only [false_iff]
    omega

theorem genClass_eq_ahead_iff : genClass gen resolved g = .ahead ↔ 2 ^ 31 < genBehind gen g := by
  rw [genClass_eq]
  split_ifs with hopen hdone hahead
  · simp [hopen]
  · simp only [Bool.and_eq_true, decide_eq_true_eq] at hdone
    simp only [false_iff]
    omega
  · exact iff_of_true rfl hahead
  · exact iff_of_false nofun hahead

/-- The four classes are all there are. -/
theorem genClass_eq_stale_iff : genClass gen resolved g = .stale ↔ genClass gen resolved g ≠ .opened ∧
    (∀ k, genClass gen resolved g ≠ .resolved k) ∧ genClass gen resolved g ≠ .ahead := by
  cases genClass gen resolved g <;> simp

theorem genBehind_eq_zero_iff (hgen : gen < 2 ^ 32) (hg : g < 2 ^ 32) : genBehind gen g = 0 ↔ g = gen := by
  unfold genBehind
  omega

theorem genBehind_eq_iff (hgen : gen < 2 ^ 32) (hg : g < 2 ^ 32) (hk : k < 2 ^ 32) :
    genBehind gen g = k ↔ (g + k) % 2 ^ 32 = gen := by
  unfold genBehind
  omega

/-- Beyond the half way round a generation lies ahead by the rest of the way. -/
theorem half_lt_genBehind_iff (hgen : gen < 2 ^ 32) (hg : g < 2 ^ 32) :
    2 ^ 31 < genBehind gen g ↔ ∃ k, 1 ≤ k ∧ k ≤ 2 ^ 31 - 1 ∧ (gen + k) % 2 ^ 32 = g := by
  unfold genBehind
  constructor
  · intro h
    exact ⟨2 ^ 32 - (gen + 2 ^ 32 - g % 2 ^ 32) % 2 ^ 32, by omega, by omega, by omega⟩
  · rintro ⟨k, hk, hhalf, hsum⟩
    omega

end

/-- Settles O28: the class is read off how far the generation lies behind GEN, modulo 2^32. -/
theorem generations : Obligations.Generations := by
  intro gen resolved g hgen hg back beyond
  have hopen : genClass gen resolved g = .opened ↔ g = gen :=
    genClass_eq_opened_iff.trans (genBehind_eq_zero_iff hgen hg)
  have hback : ∀ k, genClass gen resolved g = .resolved k ↔ back k := fun k =>
    genClass_eq_resolved_iff.trans (and_congr_right fun hk => and_congr_right fun _ => genBehind_eq_iff hgen hg (by omega))
  have hahead : genClass gen resolved g = .ahead ↔ beyond :=
    genClass_eq_ahead_iff.trans (half_lt_genBehind_iff hgen hg)
  refine ⟨hopen, hback, hahead, genClass_eq_stale_iff.trans ?_⟩
  simp only [ne_eq, hopen, hback, hahead]

/-! ## Answers by the class of the generation

Each of these functions is compared with its definition before it is applied: a checker that unfolds the two at their arguments computes
with the numbers that genClass counts by. -/

section
variable {y : Sys} {r g : Nat} {m : HomeMsg} {o : Obj} {b : Barrier} {c : GenClass}

theorem arriveLate_eq : genClass o.gen o.resolved g = c → arriveLate o b g =
    match c with
    | .resolved k => (stLate, (b.absent k).toNat)
    | .ahead => (stAhead, 0)
    | _ => (stStale, 0) := by
  intro hkind
  have hdef : @arriveLate = @arriveLate := rfl
  conv at hdef => rhs; delta arriveLate
  rw [hdef]
  beta_reduce
  generalize genClass o.gen o.resolved g = kind at hkind ⊢
  cases hkind
  cases c <;> rfl

theorem bwaitAnswer_eq (p : Nat) : genClass o.gen o.resolved g = c → bwaitAnswer o b p g =
    match c with
    | .resolved k => (if (b.absent k).getLsbD p then stAbsent else if b.expect.getLsbD p then stOk else stNotmember, (b.absent k).toNat)
    | .stale => (stStale, 0)
    | _ => (stAhead, 0) := by
  intro hkind
  have hdef : @bwaitAnswer = @bwaitAnswer := rfl
  conv at hdef => rhs; delta bwaitAnswer
  rw [hdef]
  beta_reduce
  generalize genClass o.gen o.resolved g = kind at hkind ⊢
  cases hkind
  cases c with
  | resolved k =>
    by_cases habsent : (b.absent k).getLsbD p = true
    · simp [inSet, habsent]
    · by_cases hexpected : b.expect.getLsbD p = true <;> simp [inSet, habsent, hexpected]
  | _ => rfl

theorem serveBarshed_eq : genClass o.gen o.resolved m.gen = c → serveBarshed y r m o b =
    match c with
    | .resolved k => reply (setObj y { o with body := .barrier { b with
        expect := b.expect &&& ~~~(b.absent k &&& ~~~b.arrived) } }) r m (b.absent k &&& ~~~b.arrived).toNat stOk 255 o.gen
    | .stale => reply y r m 0 stStale 255 o.gen
    | _ => reply y r m 0 stAhead 255 o.gen := by
  intro hkind
  have hdef : @serveBarshed = @serveBarshed := rfl
  conv at hdef => rhs; delta serveBarshed
  rw [hdef]
  beta_reduce
  generalize genClass o.gen o.resolved m.gen = kind at hkind ⊢
  cases hkind
  cases c <;> rfl

end

/-! ## The event reaches the barrier that it names -/

section
variable {s : State} {o : Obj} {b : Barrier}

theorem withBarrier_eq (ho : objOf s.sys s.sys.msg.obj = some o) (hb : o.body = .barrier b)
    (f : Sys → Nat → HomeMsg → Obj → Barrier → Sys) : withBarrier s f = f s.sys s.gtc s.sys.msg o b := by
  simp [withBarrier, ho, hb]

/-- An event that the barrier serves with an answer. -/
theorem lift_withBarrier_eq {f : Sys → Nat → HomeMsg → Obj → Barrier → Sys} {y : Sys} {first status who value : Nat}
    (ho : objOf s.sys s.sys.msg.obj = some o) (hb : o.body = .barrier b)
    (h : f s.sys s.gtc s.sys.msg o b = reply y s.gtc s.sys.msg first status who value) :
    lift (fun s => withBarrier s f) s = .next (s.answering y first status who value) :=
  lift_of_eq ((withBarrier_eq ho hb f).trans h)

end

/-! ## arrive (R281, R283, R388) -/

section
variable {y : Sys} {r : Nat} {m : HomeMsg} {o : Obj} {b : Barrier}

theorem arrivedFrom_append (y : Sys) (m : HomeMsg) (l : List (Nat × Nat)) : arrivedFrom y m ++ l =
    if chipOf m.core = y.mgmt.chip then l else (m.party, chipOf m.core) :: l := by
  unfold arrivedFrom
  split <;> rfl

theorem serveArrive_of_not_member (h : b.expect.getLsbD m.party = false) :
    serveArrive y r m o b = reply y r m 0 stNotmember 255 o.gen := by
  simp [serveArrive, inSet, h]

/-- Of a member in a generation that is not open. -/
theorem serveArrive_of_not_open (hmem : b.expect.getLsbD m.party = true) (hkind : genClass o.gen o.resolved m.gen ≠ .opened) :
    serveArrive y r m o b = reply y r m (arriveLate o b m.gen).2 (arriveLate o b m.gen).1 255 o.gen := by
  unfold serveArrive
  rw [if_neg (by simp [inSet, hmem])]
  split
  · contradiction
  · rfl

theorem serveArrive_of_mismatch (hmem : b.expect.getLsbD m.party = true) (hkind : genClass o.gen o.resolved m.gen = .opened)
    (hset : b.deadline ≠ 0) (hother : b.deadline ≠ m.dl) : serveArrive y r m o b = reply y r m 0 stMismatch 255 o.gen := by
  simp [serveArrive, inSet, hmem, hkind, hset, hother]

/-- A deadline that is set stays. -/
theorem setDeadline_of_set {d : Nat} (h : b.deadline ≠ 0) : setDeadline y r d o b = (y, o) := if_pos h

/-- The first deadline of the open generation is kept, and its resolution is to come. -/
theorem setDeadline_of_first {d : Nat} (h : b.deadline = 0) (hd : r ≤ d) : setDeadline y r d o b =
    (schedule y d (.barrierResolution o.key) noMsg, { o with body := .barrier { b with deadline := d } }) := by
  unfold setDeadline
  dsimp only
  rw [if_neg (by simp [h]), if_neg (Nat.not_lt.2 hd)]

/-- Of a member in the open generation, whose deadline it names or sets: it counts in the barrier as that leaves it. -/
theorem serveArrive_of_open {z : Sys} {c : Barrier} (hmem : b.expect.getLsbD m.party = true)
    (hkind : genClass o.gen o.resolved m.gen = .opened) (hname : b.deadline = 0 ∨ b.deadline = m.dl)
    (hset : setDeadline y r m.dl o b = (z, { o with body := .barrier c })) :
    serveArrive y r m o b = reply (setObj z { o with body := .barrier { c with
      arrived := c.arrived ||| partyBit m.party, chips := arrivedFrom z m ++ c.chips } }) r m 0 stOk 255 o.gen := by
  unfold serveArrive
  rw [if_neg (by simp [inSet, hmem])]
  simp only [hkind]
  rw [if_neg (by simpa [or_iff_not_imp_left] using hname), hset]
  simp only [hkind, if_true]

end

/-! ## bwait (R283) -/

section
variable {y : Sys} {r : Nat} {m : HomeMsg} {o : Obj} {b : Barrier} {k : Nat}

theorem serveBwait_of_mismatch (hkind : genClass o.gen o.resolved m.gen = .opened) (hset : b.deadline ≠ 0)
    (hother : b.deadline ≠ m.dl) : serveBwait y r m o b = reply y r m 0 stMismatch 255 o.gen := by
  simp [serveBwait, hkind, hset, hother]

theorem serveBwait_of_named (hb : o.body = .barrier b) (hkind : genClass o.gen o.resolved m.gen = .opened) (hset : b.deadline ≠ 0)
    (hname : b.deadline = m.dl) : serveBwait y r m o b = reply (setObj y o) r m 0 stAhead 255 o.gen := by
  unfold serveBwait
  rw [if_neg (by simp [hname]), if_pos hkind, setDeadline_of_set hset]
  simp only [hb, bwaitAnswer_eq m.party hkind]

/-- After the resolution: the absentees, and whether the party is one of them, is expected now, or neither. -/
theorem serveBwait_of_resolved (hb : o.body = .barrier b) (hkind : genClass o.gen o.resolved m.gen = .resolved k) :
    serveBwait y r m o b = reply (setObj y o) r m (b.absent k).toNat
      (if (b.absent k).getLsbD m.party then stAbsent else if b.expect.getLsbD m.party then stOk else stNotmember) 255 o.gen := by
  have hclosed : genClass o.gen o.resolved m.gen ≠ .opened := by simp [hkind]
  unfold serveBwait
  rw [if_neg (by simp [hclosed]), if_neg hclosed]
  simp only [hb, bwaitAnswer_eq m.party hkind]

end

/-! ## The resolution (R282) -/

theorem exec_barrierResolution {s : State} {h : Nat} {o : Obj} {b : Barrier} (ho : objOf s.sys h = some o) (hb : o.body = .barrier b) :
    exec (.barrierResolution h) s = .next { s with sys :=
      if b.deadline ≠ 0 && b.deadline ≤ s.gtc then setObj s.sys (resolveBarrier o b) else s.sys } := by
  show execBarrierResolution h s = _
  exact lift_of_eq (by simp only [ho, hb])

/-- Settles O29: each event by the class of its generation and the barrier's deadline. -/
theorem barriers : Obligations.Barriers := by
  refine ⟨fun s o b ho hb => ?events, fun s h o b ho hb => ?resolution⟩
  case events =>
    intro m bit kind chips
    refine ⟨fun hmem => lift_withBarrier_eq ho hb (serveArrive_of_not_member hmem), fun hmem => ?member,
      fun k hkind => lift_withBarrier_eq ho hb (serveBwait_of_resolved hb hkind),
      fun hkind hset hother => lift_withBarrier_eq ho hb (serveBwait_of_mismatch hkind hset hother),
      fun hkind hset hname => lift_withBarrier_eq ho hb (serveBwait_of_named hb hkind hset hname),
      fun k hkind => lift_withBarrier_eq ho hb (serveBarshed_eq hkind),
      fun hkind => hkind.elim (fun hopen => lift_withBarrier_eq ho hb (serveBarshed_eq hopen))
        fun hahead => lift_withBarrier_eq ho hb (serveBarshed_eq hahead),
      lift_withBarrier_eq ho hb rfl⟩
    have hlate : ∀ {c}, kind = c → c ≠ .opened → exec .homeArrive s =
        .next (s.answering s.sys (arriveLate o b m.gen).2 (arriveLate o b m.gen).1 255 o.gen) := fun hkind hclosed =>
      lift_withBarrier_eq ho hb (serveArrive_of_not_open hmem (ne_of_eq_of_ne hkind hclosed))
    refine ⟨fun hkind hset hother => lift_withBarrier_eq ho hb (serveArrive_of_mismatch hmem hkind hset hother),
      fun hkind hset hname => ?named, fun hkind hset hdl => ?first, fun hkind => ?ahead, fun hkind => ?stale, fun k hkind => ?late⟩
    case named =>
      have hself : o = { o with body := .barrier b } := by rw [← hb]
      have hkeep : setDeadline s.sys s.gtc m.dl o b = (s.sys, { o with body := .barrier b }) :=
        (setDeadline_of_set hset).trans (congrArg (Prod.mk s.sys) hself)
      refine lift_withBarrier_eq ho hb ((serveArrive_of_open hmem hkind (.inr hname) hkeep).trans ?_)
      rw [arrivedFrom_append]
      rfl
    case first =>
      refine lift_withBarrier_eq ho hb ((serveArrive_of_open hmem hkind (.inl hset) (setDeadline_of_first hset hdl)).trans ?_)
      rw [arrivedFrom_append]
      rfl
    case ahead =>
      rw [hlate hkind nofun, arriveLate_eq hkind]
      rfl
    case stale =>
      rw [hlate hkind nofun, arriveLate_eq hkind]
      rfl
    case late =>
      rw [hlate hkind nofun, arriveLate_eq hkind]
      rfl
  case resolution =>
    rw [exec_barrierResolution ho hb]
    refine ⟨fun hset hdue => ?_, fun hwait => ?_⟩
    · rw [if_pos (by simpa using ⟨hset, hdue⟩)]
      rfl
    · rw [if_neg (by simpa [or_iff_not_imp_left] using hwait)]

end Sys2Proof.Machine

/-! PROOFS. Locks: acquisition, release and its effect (R186, R187, R286, R287), and the table of bound regions (R277, R304). -/

namespace Sys2Proof.Machine

/-! ## Regions (R186, R277) -/

theorem rangesMeet_iff {a n b k : Nat} : rangesMeet a n b k = true ↔ a < b + k ∧ b < a + n ∧ 0 < n ∧ 0 < k := by
  simp [rangesMeet, and_assoc]

/-- A range meets the regions of an object that is no window where it meets one of them. -/
theorem regionMeets_iff {s : State} {vk a n : Nat} {o : Obj} {l : List Region} (hw : o.window = false) :
    regionMeets s vk o l a n = true ↔ ∃ g ∈ l, rangesMeet g.base g.len a n = true := by
  simp [regionMeets, hw]

theorem exec_homeBind {s : State} {o : Obj} (ho : objOf s.sys s.sys.msg.obj = some o) : exec .homeBind s = .next { s with
    sys := setObj s.sys { o with
      regions := (List.range 4).map fun k =>
        if k = field s.sys.msg.aux 49 48 then ⟨s.sys.msg.dl, field s.sys.msg.aux 39 0, field s.sys.msg.aux 47 40⟩ else regionAt o k } } := by
  show execHomeBind s = _
  exact lift_of_eq (by simp only [ho])

/-- Settles O31: the new table lists the old entries but the one that the descriptor names. -/
theorem regionBinding : Obligations.RegionBinding := by
  intro s o ho m
  refine ⟨_, exec_homeBind ho, rfl, fun k hk => ?_⟩
  rw [List.getElem?_map, List.getElem?_range hk]
  simp [field, regionAt, m]

/-! ## Acquisition (R286, R287, R303) -/

section
variable {s : State} {o : Obj} {l : Lock}

theorem withLock_eq (ho : objOf s.sys s.sys.msg.obj = some o) (hb : o.body = .lock l) (f : Obj → Lock → Sys) :
    withLock s f = f o l := by
  simp [withLock, ho, hb]

theorem exec_homeAcq (ho : objOf s.sys s.sys.msg.obj = some o) (hb : o.body = .lock l) :
    exec .homeAcq s = .next { s with sys := serveAcq s s.sys.msg o l } := by
  show execHomeAcq s = _
  exact lift_of_eq (withLock_eq ho hb _)

theorem exec_homeRel (ho : objOf s.sys s.sys.msg.obj = some o) (hb : o.body = .lock l) :
    exec .homeRel s = .next { s with sys := serveRel s s.sys.msg o l } := by
  show execHomeRel s = _
  exact lift_of_eq (withLock_eq ho hb _)

/-- The acquisition of an object that is no window publishes nothing. -/
theorem acquired_of_not_window (y : Sys) (core : Nat) (hw : o.window = false) : acquired y o core = y := by
  simp [acquired, hw]

variable {m : HomeMsg}

theorem serveAcq_of_not_member (h : l.parties.getLsbD m.party = false) :
    serveAcq s m o l = reply s.sys s.gtc m 0 stNotmember 255 o.gen := by
  simp [serveAcq, inSet, h]

theorem serveAcq_of_free (hw : o.window = false) (hmem : l.parties.getLsbD m.party = true) (hfree : l.holder = 255)
    (hrel : l.reltick = 0) : serveAcq s m o l =
      reply (setObj s.sys (grantLock o l s.gtc m)) s.gtc m 0 stOk 255 ((o.gen + 1) % 2 ^ 32) := by
  simp [serveAcq, inSet, hmem, hfree, hrel, acquired_of_not_window _ _ hw, grantLock]

theorem serveAcq_of_releasing (hmem : l.parties.getLsbD m.party = true) (hfree : l.holder = 255) (hrel : l.reltick ≠ 0) :
    serveAcq s m o l = reply s.sys s.gtc m 0 stBusy 255 o.gen := by
  simp [serveAcq, inSet, hmem, hfree, hrel]

/-- The holder renews its lease. -/
theorem serveAcq_of_holder (hw : o.window = false) (hmem : l.parties.getLsbD m.party = true) (hheld : l.holder ≠ 255)
    (hown : l.holder = m.party) : serveAcq s m o l =
      reply (setObj s.sys { o with body := .lock { l with
        acqtick := s.gtc, expiry := expiryOf s.gtc m.aux, hcore := m.core, hrole := m.role } }) s.gtc m 0 stOk 255 o.gen := by
  unfold serveAcq
  dsimp only
  rw [if_neg (by simp [inSet, hmem]), if_neg hheld, if_pos hown, acquired_of_not_window _ _ hw]

theorem serveAcq_of_busy (hmem : l.parties.getLsbD m.party = true) (hheld : l.holder ≠ 255) (hother : l.holder ≠ m.party)
    (hkeep : s.gtc < l.expiry ∨ m.dl = 0) :
    serveAcq s m o l = reply s.sys s.gtc m (2 ^ (l.holder % 64)) stBusy l.holder o.gen := by
  unfold serveAcq
  dsimp only
  rw [if_neg (by simp [inSet, hmem]), if_neg hheld, if_neg hother, if_pos (by simpa using hkeep)]

/-- An acq.m after the lease takes the lock over. -/
theorem serveAcq_of_mended (hw : o.window = false) (hmem : l.parties.getLsbD m.party = true) (hheld : l.holder ≠ 255)
    (hother : l.holder ≠ m.party) (hover : l.expiry ≤ s.gtc) (hmend : m.dl ≠ 0) : serveAcq s m o l =
      reply (tearUnits s (setObj s.sys (grantLock { o with torn := true } { l with
        prev := l.holder, pcore := l.hcore, psince := l.since, mended := o.regions } s.gtc m)) o l.hcore m.core s.gtc)
        s.gtc m (2 ^ (l.holder % 64)) stMended l.holder ((o.gen + 1) % 2 ^ 32) := by
  unfold serveAcq
  dsimp only
  rw [if_neg (by simp [inSet, hmem]), if_neg hheld, if_neg hother, if_neg (by simp [hover, hmend]), acquired_of_not_window _ _ hw]
  rfl

end

/-! ## Torn units (R187) -/

/-- A unit is torn for the new holder: one written in the tenure that lies in a region bound now, or one torn before. -/
def TearsUnit (o : Obj) (t : TornUnit) : Prop :=
  t.reader.isSome ∨ ∃ a ∈ t.vas, ∃ g ∈ o.regions, 0 < g.len ∧ g.base < a + 8 ∧ a < g.base + g.len

/-- The units noted under a lock after it was taken over are those torn for the new holder's core; other locks' stay. -/
theorem mem_tearUnits {s : State} {y : Sys} {o : Obj} {hcore core r : Nat} {u : TornUnit} (hw : o.window = false) :
    u ∈ (tearUnits s y o hcore core r).torn ↔
      ∃ t ∈ y.torn, if t.obj ≠ o.key then t = u else TearsUnit o t ∧ { t with reader := some (core, r) } = u := by
  have hmeets : ∀ t : TornUnit, (t.vas.any fun a => regionMeets s (vdKeyOf y hcore) o o.regions a 8) = true ↔
      ∃ a ∈ t.vas, ∃ g ∈ o.regions, 0 < g.len ∧ g.base < a + 8 ∧ a < g.base + g.len := fun t => by
    simp only [List.any_eq_true, regionMeets_iff hw, rangesMeet_iff]
    refine exists_congr fun a => and_congr_right fun _ => exists_congr fun g => and_congr_right fun _ => ?_
    omega
  unfold tearUnits
  rw [List.mem_filterMap]
  refine exists_congr fun t => and_congr_right fun _ => ?_
  by_cases hkey : t.obj = o.key
  · simp only [hkey, ne_eq, not_true_eq_false, if_false, TearsUnit, ← hmeets]
    cases t.reader <;> simp
  · simp [hkey]

theorem mem_tearUnits_other {s : State} {y : Sys} {o : Obj} {hcore core r : Nat} {u : TornUnit} (hw : o.window = false)
    (hu : u.obj ≠ o.key) : u ∈ (tearUnits s y o hcore core r).torn ↔ u ∈ y.torn := by
  rw [mem_tearUnits hw]
  constructor
  · rintro ⟨t, ht, h⟩
    split at h
    · exact h ▸ ht
    · obtain ⟨_, rfl⟩ := h
      contradiction
  · exact fun h => ⟨u, h, by simp [hu]⟩

theorem mem_tearUnits_own {s : State} {y : Sys} {o : Obj} {hcore core r : Nat} {u : TornUnit} (hw : o.window = false)
    (hu : u.obj = o.key) : u ∈ (tearUnits s y o hcore core r).torn ↔
      ∃ t ∈ y.torn, u = { t with reader := some (core, r) } ∧ TearsUnit o t := by
  rw [mem_tearUnits hw]
  refine exists_congr fun t => and_congr_right fun _ => ?_
  by_cases hkey : t.obj = o.key
  · simp [hkey, and_comm, eq_comm]
  · simp only [ne_eq, hkey, not_false_eq_true, if_true]
    constructor
    · rintro rfl
      contradiction
    · rintro ⟨rfl, _⟩
      contradiction

/-! ## Release (R186, R287, R303) -/

/-- The largest of some numbers and a first one. -/
theorem le_foldl_max {α : Type} (f : α → Nat) (l : List α) (r : Nat) :
    r ≤ l.foldl (fun t x => max t (f x)) r ∧ (∀ x ∈ l, f x ≤ l.foldl (fun t x => max t (f x)) r) ∧
      (l.foldl (fun t x => max t (f x)) r = r ∨ ∃ x ∈ l, f x = l.foldl (fun t x => max t (f x)) r) := by
  induction l generalizing r with
  | nil => simp
  | cons a l ih =>
    obtain ⟨hr, hall, hreached⟩ := ih (max r (f a))
    rw [List.foldl_cons]
    refine ⟨le_trans (le_max_left ..) hr, List.forall_mem_cons.2 ⟨le_trans (le_max_right ..) hr, hall⟩, ?_⟩
    obtain h | ⟨x, hx, h⟩ := hreached
    · obtain hm | hm := max_choice r (f a)
      · exact .inl (h.trans hm)
      · exact .inr ⟨a, List.mem_cons_self .., by rw [h, hm]⟩
    · exact .inr ⟨x, List.mem_cons_of_mem _ hx, h⟩

/-- A release covers a transfer: it is of the releasing core, issued before the release and not visible yet, and it writes to a region
bound for the party or for all. -/
def Covered (s : State) (m : HomeMsg) (o : Obj) (x : Xfer) : Prop :=
  x ∈ s.sys.xfers ∧ x.core = m.core ∧ x.stage < 3 ∧ x.issue < m.gen ∧
    ∃ q ∈ destRanges s.sys x, ∃ g ∈ o.regions, (g.party = m.party ∨ g.party = 255) ∧ 0 < g.len ∧ 0 < q.2 ∧
      g.base < q.1 + q.2 ∧ q.1 < g.base + g.len

theorem mem_coveredXfers {s : State} {m : HomeMsg} {o : Obj} {x : Xfer} (hw : o.window = false) :
    x ∈ coveredXfers s m o ↔ Covered s m o x := by
  have hmeets : ∀ q : Nat × Nat, regionCovers s (vdKeyOf s.sys m.core) o m.party q.1 q.2 = true ↔
      ∃ g ∈ o.regions, (g.party = m.party ∨ g.party = 255) ∧ 0 < g.len ∧ 0 < q.2 ∧ g.base < q.1 + q.2 ∧ q.1 < g.base + g.len :=
    fun q => by
      simp only [regionCovers, regionMeets_iff hw, rangesMeet_iff, List.mem_filter, Bool.or_eq_true, beq_iff_eq, and_assoc]
      refine exists_congr fun g => and_congr_right fun _ => and_congr_right fun _ => ?_
      omega
  simp only [coveredXfers, List.mem_filter, Bool.and_eq_true, beq_iff_eq, decide_eq_true_eq, List.any_eq_true, hmeets, Covered,
    and_assoc]

section
variable {s : State} {o : Obj} {l : Lock}

theorem serveRel_of_other {m : HomeMsg} (h : l.holder = 255 ∨ l.hcore ≠ m.core ∨ l.hrole ≠ m.role) : serveRel s m o l = s.sys :=
  if_pos (by simpa [or_assoc] using h)

theorem serveRel_of_holder {m : HomeMsg} (hheld : l.holder ≠ 255) (hcore : l.hcore = m.core) (hrole : l.hrole = m.role) :
    serveRel s m o l = schedule (setObj s.sys { o with torn := false, body := .lock { l with
      holder := 255, reltick := coveredTick s { m with party := l.holder } o s.gtc
      covers := (coveredXfers s { m with party := l.holder } o).map Xfer.xid, relat := m.gen } })
      s.gtc (.lockReleaseEffect o.key) noMsg :=
  if_neg (by simp [hheld, hcore, hrole])

/-! ## The effect of a release (R186, R187, R287) -/

/-- Some covered transfer is still under way. -/
def Covering (s : State) (l : Lock) : Prop := ∃ n ∈ l.covers, ∃ x ∈ s.sys.xfers, x.xid = n ∧ x.stage < 3

variable {h : Nat}

theorem exec_lockReleaseEffect (ho : objOf s.sys h = some o) (hb : o.body = .lock l) (hw : o.window = false) [Decidable (Covering s l)] :
    exec (.lockReleaseEffect h) s = .next { s with
      sys := if l.reltick = 0 then s.sys
        else if Covering s l then schedule s.sys (s.gtc + 1) (.lockReleaseEffect h) noMsg
        else if l.covers ≠ [] then
          schedule (setObj s.sys { o with body := .lock { l with reltick := s.gtc, covers := [] } }) s.gtc (.lockReleaseEffect h) noMsg
        else if s.gtc < l.reltick then schedule s.sys l.reltick (.lockReleaseEffect h) noMsg
        else publishUnits (setObj s.sys { o with body := .lock { l with reltick := 0 } }) h } := by
  have hcov : (l.covers.any fun n => s.sys.xfers.any fun x => x.xid == n && decide (x.stage < 3)) = true ↔ Covering s l := by
    simp [Covering]
  show execLockReleaseEffect h s = _
  refine lift_of_eq ?_
  simp only [ho, hb, hcov, hw, Bool.false_eq_true, if_false]

theorem publishUnits_eq (y : Sys) (h : Nat) :
    publishUnits y h = { y with torn := y.torn.filter fun u => decide (u.obj ≠ h) || u.reader.isSome } := by
  simp [publishUnits, bne, Bool.beq_eq_decide_eq]

end

/-- Settles O30: an acquisition by who holds the lock and whether the lease is over; a release by who makes it; its effect by what it
still waits for. -/
theorem locks : Obligations.Locks := by
  classical
  refine ⟨fun s o l ho hb hw => ?acquire, fun s o l hb hw => ⟨fun ho => ?release, fun h ho => ?effect⟩⟩
  case acquire =>
    intro m expiry held next
    simp only [exec_homeAcq ho hb]
    refine ⟨fun hmem => by rw [serveAcq_of_not_member hmem]; rfl, fun hmem => ⟨fun hfree hrel => ?_, fun hfree hrel => ?_,
      fun hheld hown => ?_, fun hheld hother hkeep => ?_, fun hheld hother hover hmend => ?_⟩⟩
    · rw [serveAcq_of_free hw hmem hfree hrel]
      rfl
    · rw [serveAcq_of_releasing hmem hfree hrel]
      rfl
    · rw [serveAcq_of_holder hw hmem hheld hown]
      rfl
    · rw [serveAcq_of_busy hmem hheld hother hkeep]
      rfl
    · refine ⟨(tearUnits s s.sys o l.hcore m.core s.gtc).torn, ?_,
        fun u => ⟨fun hu => mem_tearUnits_other hw hu, fun hu => mem_tearUnits_own hw hu⟩⟩
      rw [serveAcq_of_mended hw hmem hheld hother hover hmend]
      rfl
  case release =>
    intro m covered
    have hmem : ∀ x, x ∈ coveredXfers s { m with party := l.holder } o ↔ covered x := fun x => mem_coveredXfers hw
    rw [exec_homeRel ho hb]
    refine ⟨fun hother => by rw [serveRel_of_other hother], fun hheld hcore hrole => ?_⟩
    obtain ⟨hnow, hall, hreached⟩ := le_foldl_max Xfer.due (coveredXfers s { m with party := l.holder } o) s.gtc
    refine ⟨_, _, fun n => ?_, hnow, fun x hx => hall x ((hmem x).2 hx), ?_, by rw [serveRel_of_holder hheld hcore hrole]; rfl⟩
    · simp only [List.mem_map, hmem]
    · simpa only [hmem] using hreached
  case effect =>
    intro under again
    rw [exec_lockReleaseEffect ho hb hw]
    refine ⟨fun hfree => by rw [if_pos hfree], fun hrel (hunder : Covering s l) => ?_,
      fun hrel (hclear : ¬ Covering s l) hcovers => ?_, fun hcovers hwait => ?_, fun hrel hcovers hdue => ?_⟩
    · rw [if_neg hrel, if_pos hunder]
      rfl
    · rw [if_neg hrel, if_neg hclear, if_pos hcovers]
      rfl
    · rw [if_neg (by omega), if_neg (by simp [Covering, hcovers]), if_neg (by simp [hcovers]), if_pos hwait]
      rfl
    · rw [if_neg hrel, if_neg (by simp [Covering, hcovers]), if_neg (by simp [hcovers]), if_neg (Nat.not_lt.2 hdue), publishUnits_eq]
      rfl

end Sys2Proof.Machine

/-! PROOFS. Queues: push, receive and abandonment (R289, R290). -/

namespace Sys2Proof.Machine

/-! ## The commit of a producer's open entries -/

/-- An open entry of a producer. -/
abbrev OpenOf (p : Nat) (x : QSlot) : Prop := x.st = 1 ∧ x.prod = p

/-- One more entry passed by a closing push of a producer: an open one of its own takes the next commit order. -/
def commitNext (p : Nat) (a : List QSlot × Nat) (x : QSlot) : List QSlot × Nat :=
  if x.st == 1 && x.prod == p then (a.1 ++ [{ x with st := 2, order := a.2 }], a.2 + 1) else (a.1 ++ [x], a.2)

/-- The entries after a closing push whose first commit order is n, and the commit order after them. -/
def commits (p n : Nat) (l : List QSlot) : List QSlot × Nat := l.foldl (commitNext p) ([], n)

section
variable {p n : Nat}

theorem commits_concat (l : List QSlot) (x : QSlot) : commits p n (l ++ [x]) = commitNext p (commits p n l) x := by
  simp [commits]

theorem commitNext_open {x : QSlot} (a : List QSlot × Nat) (h : OpenOf p x) :
    commitNext p a x = (a.1 ++ [{ x with st := 2, order := a.2 }], a.2 + 1) :=
  if_pos (by simpa using h)

theorem commitNext_other {x : QSlot} (a : List QSlot × Nat) (h : ¬ OpenOf p x) : commitNext p a x = (a.1 ++ [x], a.2) :=
  if_neg (by simpa using h)

theorem commits_order (l : List QSlot) : (commits p n l).2 = n + l.countP fun x => decide (OpenOf p x) := by
  induction l using List.reverseRecOn with
  | nil => rfl
  | append_singleton l x ih =>
    rw [commits_concat]
    by_cases h : OpenOf p x
    · rw [commitNext_open _ h, ih, List.countP_append, List.countP_singleton, if_pos (decide_eq_true h), Nat.add_assoc]
    · rw [commitNext_other _ h, ih, List.countP_append, List.countP_singleton, if_neg (by simpa using h), Nat.add_zero]

theorem commits_length (l : List QSlot) : (commits p n l).1.length = l.length := by
  induction l using List.reverseRecOn with
  | nil => rfl
  | append_singleton l x ih =>
    rw [commits_concat]
    by_cases h : OpenOf p x
    · simp [commitNext_open _ h, ih]
    · simp [commitNext_other _ h, ih]

/-- An entry after a closing push: of the producer's open ones the k-th is committed as the k-th, every other is as before. -/
theorem commits_getElem? {l : List QSlot} {k : Nat} {x : QSlot} (hx : l[k]? = some x) : (commits p n l).1[k]? =
    some (if OpenOf p x then { x with st := 2, order := n + (l.take k).countP fun z => decide (OpenOf p z) } else x) := by
  induction l using List.reverseRecOn with
  | nil => simp at hx
  | append_singleton l z ih =>
    have hlen := commits_length (p := p) (n := n) l
    have hk : k < l.length + 1 := by simpa using (List.getElem?_eq_some_iff.1 hx).1
    rw [commits_concat]
    obtain hlast | hold : k = l.length ∨ k < l.length := by omega
    · obtain rfl : z = x := by simpa [hlast] using hx
      by_cases h : OpenOf p z
      · simp [commitNext_open _ h, h, hlast, ← hlen, commits_order]
      · simp [commitNext_other _ h, h, hlast, ← hlen]
    · rw [List.getElem?_append_left hold] at hx
      have hbefore := ih hx
      have hkeep : (commitNext p (commits p n l) z).1[k]? = (commits p n l).1[k]? := by
        by_cases h : OpenOf p z
        · simp [commitNext_open _ h, List.getElem?_append_left (hlen ▸ hold)]
        · simp [commitNext_other _ h, List.getElem?_append_left (hlen ▸ hold)]
      rw [hkeep, hbefore, List.take_append_of_le_length hold.le]

end

/-! ## Push (R290) -/

section
variable {o : Obj} {q : Queue} {core p payload launch : Nat} {close : Bool}

theorem pushQueue_of_not_member (h : q.producers.getLsbD p = false) :
    pushQueue o q core p payload launch close = (o, stNotmember) := by
  simp [pushQueue, inSet, h]

theorem pushQueue_of_full (hmem : q.producers.getLsbD p = true) (hfull : q.cap ≤ q.slots.length) :
    pushQueue o q core p payload launch close = (o, stFull) := by
  simp [pushQueue, inSet, hmem, hfull]

/-- The entry that a push opens. -/
abbrev openedSlot (core p payload launch : Nat) : QSlot :=
  { core := core, payload := payload, prod := p, st := 1, order := 0, launch := launch }

theorem pushQueue_of_open (hmem : q.producers.getLsbD p = true) (hroom : q.slots.length < q.cap) :
    pushQueue o q core p payload launch false =
      ({ o with body := .queue { q with slots := q.slots ++ [openedSlot core p payload launch] } }, stOk) := by
  simp [pushQueue, inSet, hmem, hroom]

theorem pushQueue_of_close (hmem : q.producers.getLsbD p = true) (hroom : q.slots.length < q.cap) :
    pushQueue o q core p payload launch true =
      ({ o with
          gen := (o.gen + 1) % 2 ^ 32
          body := .queue { q with
            slots := (commits p q.nextOrder (q.slots ++ [openedSlot core p payload launch])).1
            nextOrder := (commits p q.nextOrder (q.slots ++ [openedSlot core p payload launch])).2
            since := q.since.map fun w => w ||| partyBit p } }, stOk) := by
  unfold pushQueue
  rw [if_neg (by simp [inSet, hmem]), if_neg (Nat.not_le.2 hroom)]
  rfl

theorem queueOf_eq {y : Sys} {h : Nat} (ho : objOf y h = some o) (hb : o.body = .queue q) : queueOf y h = some (o, q) := by
  simp [queueOf, ho, hb]

/-- A push of a core's own is answered with GEN if it was done. -/
theorem exec_homeQpush {s : State} (ho : objOf s.sys s.sys.msg.obj = some o) (hb : o.body = .queue q)
    (hrole : s.sys.msg.role ∉ [3, 4]) {o' : Obj} {st : Nat}
    (hpush : pushQueue o q s.sys.msg.core s.sys.msg.party s.sys.msg.dl s.sys.msg.launch (s.sys.msg.aux == 1) = (o', st)) :
    exec .homeQpush s = .next (s.answering (setObj s.sys o') 0 st 255 (if st = stOk then o'.gen else 0)) := by
  obtain ⟨hhost, hproxy⟩ : s.sys.msg.role ≠ 3 ∧ s.sys.msg.role ≠ 4 := by simpa using hrole
  show execHomeQpush s = _
  exact lift_of_eq (by simp [queueOf_eq ho hb, hpush, hhost, hproxy])

end

/-! ## Receive (R290) -/

/-- The one of two committed entries that goes first: the later looked at only if its order is lower. -/
def firstOf (best : Option QSlot) (x : QSlot) : Option QSlot :=
  match best with
  | some b => if x.order < b.order then some x else some b
  | none => some x

theorem recvQueue_eq (o : Obj) (q : Queue) (c : Nat) : recvQueue o q c =
    if q.consumers ≤ c then (o, stNotmember, 0, 255)
    else match q.committed.foldl firstOf none with
    | some x => ({ o with body := .queue { q with since := q.since.set c 0, slots := q.slots.erase x } }, stOk, x.payload, x.prod)
    | none => ({ o with body := .queue { q with since := q.since.set c 0 } }, stEmpty,
        (q.producers &&& ~~~((q.since[c]?).getD 0)).toNat, 255) := by
  unfold recvQueue
  rfl

/-- An entry whose order is below every other's goes first, if it is the best so far or comes later than a best that it is below. -/
theorem foldl_firstOf_some {l : List QSlot} {x b : QSlot} (hb : b = x ∨ x ∈ l ∧ x.order < b.order)
    (hmin : ∀ z ∈ l, z ≠ x → x.order < z.order) : l.foldl firstOf (some b) = some x := by
  induction l generalizing b with
  | nil =>
    obtain rfl | ⟨hx, _⟩ := hb
    · rfl
    · simp at hx
  | cons a l ih =>
    obtain ⟨ha, hl⟩ := List.forall_mem_cons.1 hmin
    rw [List.foldl_cons, firstOf]
    obtain rfl | ⟨hx, hlt⟩ := hb
    · have hkeep : ¬ a.order < b.order := fun h => by
        by_cases hab : a = b
        · exact absurd (hab ▸ h) (lt_irrefl _)
        · exact absurd (ha hab) (not_lt.2 h.le)
      rw [if_neg hkeep]
      exact ih (.inl rfl) hl
    · obtain rfl | hx := List.mem_cons.1 hx
      · rw [if_pos hlt]
        exact ih (.inl rfl) hl
      · split
        · by_cases hax : a = x
          · exact ih (.inl hax) hl
          · exact ih (.inr ⟨hx, ha hax⟩) hl
        · exact ih (.inr ⟨hx, hlt⟩) hl

/-- The entry that goes first is the one whose order is below every other's. -/
theorem foldl_firstOf {l : List QSlot} {x : QSlot} (hx : x ∈ l) (hmin : ∀ z ∈ l, z ≠ x → x.order < z.order) :
    l.foldl firstOf none = some x := by
  cases l with
  | nil => simp at hx
  | cons a l =>
    obtain ⟨ha, hl⟩ := List.forall_mem_cons.1 hmin
    refine foldl_firstOf_some ?_ hl
    by_cases hax : a = x
    · exact .inl hax
    · exact .inr ⟨(List.mem_cons.1 hx).resolve_left (Ne.symm hax), ha hax⟩

section
variable {o : Obj} {q : Queue} {c : Nat}

theorem mem_committed {x : QSlot} : x ∈ q.committed ↔ x ∈ q.slots ∧ x.st = 2 := by
  simp [Queue.committed]

theorem recvQueue_of_not_member (h : q.consumers ≤ c) : recvQueue o q c = (o, stNotmember, 0, 255) := by
  rw [recvQueue_eq, if_pos h]

theorem recvQueue_of_empty (hmem : c < q.consumers) (hnone : ∀ x ∈ q.slots, x.st ≠ 2) : recvQueue o q c =
    ({ o with body := .queue { q with since := q.since.set c 0 } }, stEmpty,
      (q.producers &&& ~~~((q.since[c]?).getD 0)).toNat, 255) := by
  have hempty : q.committed = [] := List.eq_nil_iff_forall_not_mem.2 fun x hx => hnone x (mem_committed.1 hx).1 (mem_committed.1 hx).2
  rw [recvQueue_eq, if_neg (Nat.not_le.2 hmem), hempty]
  rfl

theorem recvQueue_of_first {x : QSlot} (hmem : c < q.consumers) (hx : x ∈ q.slots) (hst : x.st = 2)
    (hmin : ∀ z ∈ q.slots, z.st = 2 → z ≠ x → x.order < z.order) : recvQueue o q c =
    ({ o with body := .queue { q with since := q.since.set c 0, slots := q.slots.erase x } }, stOk, x.payload, x.prod) := by
  have hfirst : q.committed.foldl firstOf none = some x :=
    foldl_firstOf (mem_committed.2 ⟨hx, hst⟩) fun z hz => hmin z (mem_committed.1 hz).1 (mem_committed.1 hz).2
  rw [recvQueue_eq, if_neg (Nat.not_le.2 hmem), hfirst]

theorem exec_homeQrecv {s : State} (ho : objOf s.sys s.sys.msg.obj = some o) (hb : o.body = .queue q) {o' : Obj} {st first who : Nat}
    (hrecv : recvQueue o q s.sys.msg.party = (o', st, first, who)) :
    exec .homeQrecv s = .next (s.answering (setObj s.sys o') first st who 0) := by
  show execHomeQrecv s = _
  exact lift_of_eq (by simp only [queueOf_eq ho hb, hrecv])

theorem exec_queueAbandonment {s : State} {h launch : Nat} (ho : objOf s.sys h = some o) (hb : o.body = .queue q) :
    exec (.queueAbandonment h launch) s = .next { s with sys := setObj s.sys { o with
      body := .queue { q with slots := q.slots.filter fun x => x.st != 1 || x.launch != launch } } } := by
  show execQueueAbandonment h launch s = _
  exact lift_of_eq (by simp only [queueOf_eq ho hb])

end

/-- Settles O32: a push by whether the party is a producer, whether there is room and whether it closes; a receive by whether the party
is a consumer and which committed entry goes first. -/
theorem queues : Obligations.Queues := by
  refine ⟨fun s o q ho hb hrole => ?push,
    fun s o q hb => ⟨fun ho => ?receive, fun h launch ho => exec_queueAbandonment ho hb⟩⟩
  case push =>
    intro m slot slots mine
    refine ⟨fun hmem => exec_homeQpush ho hb hrole (pushQueue_of_not_member hmem),
      fun hmem hfull => exec_homeQpush ho hb hrole (pushQueue_of_full hmem hfull),
      fun hmem hroom hopen => ?_, fun hmem hroom hclose => ?_⟩
    · refine exec_homeQpush ho hb hrole ?_
      rw [beq_false_of_ne hopen]
      exact pushQueue_of_open hmem hroom
    · have hpush := pushQueue_of_close (o := o) (core := m.core) (payload := m.dl) (launch := m.launch) hmem hroom
      rw [commits_order] at hpush
      refine ⟨_, exec_homeQpush ho hb hrole ?_, commits_length _, fun k x hx => commits_getElem? hx⟩
      rw [beq_iff_eq.2 hclose]
      exact hpush
  case receive =>
    intro m
    exact ⟨fun hmem => exec_homeQrecv ho hb (recvQueue_of_not_member hmem),
      fun hmem hnone => exec_homeQrecv ho hb (recvQueue_of_empty hmem hnone),
      fun hmem x hx hst hmin => exec_homeQrecv ho hb (recvQueue_of_first hmem hx hst hmin)⟩

end Sys2Proof.Machine

/-! PROOFS. What the posts, the vectors and the ends of launches that follow on a counter's completion add to the machine, and what they
leave as it is (R291, R311, R363). -/

namespace Sys2Proof.Machine

/-! ## What is only added -/

/-- A machine to which posts and events have been added and whose vectors may have become pending: its objects, and whether its host is
there, are as before. -/
structure AddsTo (y z : Sys) : Prop where
  objs : z.objs = y.objs
  host : z.mgmt.hostGone = y.mgmt.hostGone
  posts : y.posts ⊆ z.posts
  sched : y.sched ⊆ z.sched
  vectors : ∀ fn vec, msixAt z fn vec = msixAt y fn vec ∨ msixAt z fn vec = { msixAt y fn vec with pend := true }

theorem AddsTo.refl (y : Sys) : AddsTo y y := ⟨rfl, rfl, List.Subset.refl _, List.Subset.refl _, fun _ _ => .inl rfl⟩

theorem AddsTo.trans {x y z : Sys} (h : AddsTo x y) (h' : AddsTo y z) : AddsTo x z where
  objs := h'.objs.trans h.objs
  host := h'.host.trans h.host
  posts := List.Subset.trans h.posts h'.posts
  sched := List.Subset.trans h.sched h'.sched
  vectors fn vec := by
    obtain e | e := h.vectors fn vec <;> obtain e' | e' := h'.vectors fn vec <;> simp [e, e']

theorem AddsTo.foldl {α : Type} {f : Sys → α → Sys} (hf : ∀ y a, AddsTo y (f y a)) (y : Sys) (l : List α) :
    AddsTo y (l.foldl f y) :=
  List.foldlRecOn (motive := AddsTo y) l f (.refl y) fun z hz a _ => hz.trans (hf z a)

/-- Whatever one step of a fold adds is there at its end. -/
theorem AddsTo.foldl_of_mem {α : Type} {f : Sys → α → Sys} (hf : ∀ y a, AddsTo y (f y a)) {P : Sys → Prop}
    (hkeep : ∀ y z, AddsTo y z → P y → P z) {y : Sys} {l : List α} {a : α} (ha : a ∈ l) (hadd : ∀ z, AddsTo y z → P (f z a)) :
    P (l.foldl f y) := by
  obtain ⟨before, behind, rfl⟩ := List.append_of_mem ha
  rw [List.foldl_append, List.foldl_cons]
  exact hkeep _ _ (.foldl hf ..) (hadd _ (.foldl hf ..))

/-- Only the posts, the schedule and what no counter looks at have changed. -/
theorem AddsTo.of_mgmt {y z : Sys} (hobjs : z.objs = y.objs) (hmgmt : z.mgmt = y.mgmt) (hposts : y.posts ⊆ z.posts)
    (hsched : y.sched ⊆ z.sched) : AddsTo y z :=
  ⟨hobjs, by rw [hmgmt], hposts, hsched, fun _ _ => .inl (by rw [msixAt, msixAt, hmgmt])⟩

theorem Noted.addsTo {y z : Sys} (h : Noted y z) : AddsTo y z := by
  obtain ⟨_, _, _, _, rfl⟩ := h
  exact .of_mgmt rfl rfl (List.Subset.refl _) (List.Subset.refl _)

theorem schedule_addsTo (y : Sys) (g : Nat) (i : Instr) (m : HomeMsg) : AddsTo y (schedule y g i m) :=
  .of_mgmt rfl rfl (List.Subset.refl _) (List.subset_append_left ..)

theorem setDom_addsTo (y : Sys) (d : Domain) : AddsTo y (setDom y d) :=
  .of_mgmt rfl rfl (List.Subset.refl _) (List.Subset.refl _)

theorem addPosts_addsTo (y : Sys) (ps : List Post) : AddsTo y { y with posts := y.posts ++ ps } :=
  .of_mgmt rfl rfl (List.subset_append_left ..) (List.Subset.refl _)

/-! ## Vectors (R363) -/

@[simp] theorem msixAt_key (y : Sys) (fn vec : Nat) : (msixAt y fn vec).key = 64 * fn + vec := by
  unfold msixAt
  cases h : getBy Msix.key (64 * fn + vec) y.mgmt.vectors with
  | none => rfl
  | some e => exact getBy_key _ _ _ _ h

theorem msixAt_setMsix (y : Sys) (e : Msix) (fn vec : Nat) :
    msixAt (setMsix y e) fn vec = if 64 * fn + vec = e.key then e else msixAt y fn vec := by
  unfold msixAt setMsix
  split
  case isTrue h => simp [h, getBy_putBy_same]
  case isFalse h => simp [getBy_putBy_other _ _ _ _ h]

theorem msixAt_of_key_eq (y : Sys) {fn vec fn' vec' : Nat} (h : 64 * fn + vec = 64 * fn' + vec') : msixAt y fn vec = msixAt y fn' vec' := by
  rw [msixAt, msixAt, h]

theorem raiseMsix_of_unmasked {y : Sys} {fn vec : Nat} (hhost : y.mgmt.hostGone = false) (hmask : (msixAt y fn vec).mask = false) :
    raiseMsix y fn vec = sendOut y (.msix fn vec (msixAt y fn vec).addr (msixAt y fn vec).data) := by
  simp [raiseMsix, hhost, hmask]

theorem raiseMsix_of_masked {y : Sys} {fn vec : Nat} (hhost : y.mgmt.hostGone = false) (hmask : (msixAt y fn vec).mask = true) :
    raiseMsix y fn vec = setMsix y { msixAt y fn vec with pend := true } := by
  simp [raiseMsix, hhost, hmask]

theorem raiseMsix_addsTo (y : Sys) (fn vec : Nat) : AddsTo y (raiseMsix y fn vec) := by
  unfold raiseMsix
  dsimp only
  split
  · exact .refl y
  · split
    · refine ⟨rfl, rfl, List.Subset.refl _, List.Subset.refl _, fun fn' vec' => ?_⟩
      rw [msixAt_setMsix]
      split
      case isTrue hkey =>
        rw [msixAt_of_key_eq y (hkey.trans (msixAt_key ..))]
        exact .inr rfl
      case isFalse => exact .inl rfl
    · exact addPosts_addsTo ..

/-! ## Posts -/

theorem writeEvent_addsTo (y : Sys) (g cls vd source detail addr value : Nat) :
    AddsTo y (writeEvent y g cls vd source detail addr value) := by
  unfold writeEvent
  dsimp only
  split
  · split
    · refine AddsTo.trans ?_ (raiseMsix_addsTo ..)
      exact ⟨rfl, rfl, List.subset_append_left .., List.Subset.refl _, fun _ _ => .inl rfl⟩
    · exact ⟨rfl, rfl, List.subset_append_left .., List.Subset.refl _, fun _ _ => .inl rfl⟩
  · exact ⟨rfl, rfl, List.Subset.refl _, List.Subset.refl _, fun _ _ => .inl rfl⟩

theorem noteTables_addsTo (s : State) (y : Sys) (vk va n : Nat) : AddsTo y (noteTables s y vk va n) :=
  .foldl (fun _ _ => writeEvent_addsTo ..) _ _

/-- The posts of a write of plain bytes at a virtual address (R146). -/
def plainPosts (s : State) (vk va : Nat) (data : List Byte) : List Post := (writeVa s vk va (data.map fun b => ⟨b, false, 0⟩)).1

/-- A post adds its writes behind what its accesses note. -/
theorem postVa_adds (s : State) (y : Sys) (vk va : Nat) (data : List Byte) :
    AddsTo y (postVa s y vk va data) ∧ plainPosts s vk va data ⊆ (postVa s y vk va data).posts := by
  have hnotes := (((noteTables_addsTo s y vk va data.length).trans
    (noteWindow_noted s _ vk none s.gtc (plainPosts s vk va data)).addsTo)).trans (noteXlat_noted s _ vk va data.length).addsTo
  have hdirty := fun z => (noteDirty_noted z (dirtyGranules s vk va data.length)).addsTo
  exact ⟨(hnotes.trans (addPosts_addsTo ..)).trans (hdirty _), fun p hp => (hdirty _).posts (List.mem_append_right _ hp)⟩

/-! ## The end of a launch (R309, R311) -/

/-- STATUS and ENDTICK are posted at their places in the descriptor. -/
theorem writeStatus_adds (s : State) (y : Sys) (vk desc status reason : Nat) :
    AddsTo y (writeStatus s y vk desc status reason) ∧
      plainPosts s vk (desc + 0x30) (toBytes 4 (status + 256 * reason)) ⊆ (writeStatus s y vk desc status reason).posts ∧
      plainPosts s vk (desc + 0x38) (toBytes 8 s.gtc) ⊆ (writeStatus s y vk desc status reason).posts := by
  let z := postVa s y vk (desc + 0x30) (toBytes 4 (status + 256 * reason))
  obtain ⟨hfirst, hstatus⟩ := postVa_adds s y vk (desc + 0x30) (toBytes 4 (status + 256 * reason))
  obtain ⟨hsecond, htick⟩ := postVa_adds s z vk (desc + 0x38) (toBytes 8 s.gtc)
  exact ⟨hfirst.trans hsecond, List.Subset.trans hstatus hsecond.posts, htick⟩

/-- A domain of a launch that has ended. -/
def Domain.ended (d : Domain) (g status : Nat) : Domain := { d with st := .ended, endStatus := status, f := d.ttc g }

theorem endDomain_of_ended {s : State} {y : Sys} {d : Domain} {status : Nat} (h : d.st = .ended) : endDomain s y d status = y := if_pos h

theorem endDomain_of_launch {s : State} {y : Sys} {d : Domain} {status : Nat} (h : d.st ≠ .ended) (hc : d.control = false) :
    endDomain s y d status = launchEnd s (setDom y (d.ended s.gtc status)) d.vd d.launch status 0 := by
  simp [endDomain, h, hc, Domain.ended]

theorem endDomain_of_control {s : State} {y : Sys} {d : Domain} {status : Nat} (h : d.st ≠ .ended) (hc : d.control = true) :
    endDomain s y d status = setDom y (d.ended s.gtc status) := by
  simp [endDomain, h, hc, Domain.ended]

theorem launchEnd_completed (s : State) (y : Sys) (vk : Nat) (l : Launch) (reason : Nat) :
    launchEnd s y vk l statusCompleted reason = writeStatus s y vk l.desc statusCompleted reason := by
  unfold launchEnd
  exact if_pos rfl

/-- A launch that completes cancels nothing. -/
theorem endDomain_completed_addsTo (s : State) (y : Sys) (d : Domain) : AddsTo y (endDomain s y d statusCompleted) := by
  by_cases h : d.st = .ended
  · rw [endDomain_of_ended h]
    exact .refl y
  · cases hc : d.control with
    | true =>
      rw [endDomain_of_control h hc]
      exact setDom_addsTo ..
    | false =>
      rw [endDomain_of_launch h hc, launchEnd_completed]
      exact (setDom_addsTo ..).trans (writeStatus_adds ..).1

theorem domAt_endDomain_same {s : State} {y : Sys} {d : Domain} {status : Nat} (h : d.st ≠ .ended) :
    domAt (endDomain s y d status) d.id = some (d.ended s.gtc status) := by
  have hput : domAt (setDom y (d.ended s.gtc status)) d.id = some (d.ended s.gtc status) := domAt_setDom_same ..
  cases hc : d.control with
  | true => rw [endDomain_of_control h hc, hput]
  | false => rw [endDomain_of_launch h hc, domAt_of_sameRun (launchEnd_sameRun ..), hput]

theorem domAt_endDomain_other {s : State} {y : Sys} {d : Domain} {status n : Nat} (hn : n ≠ d.id) :
    domAt (endDomain s y d status) n = domAt y n := by
  have hput : domAt (setDom y (d.ended s.gtc status)) n = domAt y n := domAt_setDom_other _ _ _ hn
  by_cases h : d.st = .ended
  · rw [endDomain_of_ended h]
  · cases hc : d.control with
    | true => rw [endDomain_of_control h hc, hput]
    | false => rw [endDomain_of_launch h hc, domAt_of_sameRun (launchEnd_sameRun ..), hput]

/-- Of domains with different numbers that all end each is found ended. -/
theorem domAt_foldl_endDomain {s : State} {y : Sys} {l : List Domain} {d : Domain} {status : Nat} (hl : (l.map Domain.id).Nodup)
    (hd : d ∈ l) (h : d.st ≠ .ended) :
    domAt (l.foldl (fun y d => endDomain s y d status) y) d.id = some (d.ended s.gtc status) := by
  obtain ⟨before, behind, rfl⟩ := List.append_of_mem hd
  have hbehind : ∀ e ∈ behind, d.id ≠ e.id := by
    rw [List.map_append, List.map_cons, List.nodup_append] at hl
    obtain ⟨_, hcons, _⟩ := hl
    exact fun e he hid => (List.nodup_cons.1 hcons).1 (List.mem_map.2 ⟨e, he, hid.symm⟩)
  rw [List.foldl_append, List.foldl_cons]
  refine List.foldlRecOn behind _ (motive := fun z => domAt z d.id = _) (domAt_endDomain_same h) fun z hz e he => ?_
  rw [domAt_endDomain_other (hbehind e he), hz]

end Sys2Proof.Machine

/-! PROOFS. Counters: completions, cwait and cancel (R291, R311 to R313), and the statement about them. -/

namespace Sys2Proof.Machine

/-! ## A counter that is DONE (R291, R311, R363) -/

section
variable {s : State} {y : Sys} {h : Nat} {c : Counter}

/-- The launches that count in the counter have ended. -/
def launchesEnded (s : State) (y : Sys) (h : Nat) : Sys := (countersLaunches y h).foldl (fun y d => endDomain s y d statusCompleted) y

/-- Then the vectors are raised. -/
def vectorsRaised (s : State) (y : Sys) (h : Nat) (c : Counter) : Sys :=
  (doneVectors (countersLaunches y h) c).foldl (fun y v => raiseMsix y (c.vd % 32) v) (launchesEnded s y h)

theorem counterDone_eq (s : State) (y : Sys) (h : Nat) (c : Counter) : counterDone s y h c =
    (doneParents (countersLaunches y h) c).foldl (fun y p => schedule y s.gtc (.counterCompletion p.1 p.2) noMsg)
      (vectorsRaised s y h c) := rfl

theorem launchesEnded_addsTo (s : State) (y : Sys) (h : Nat) : AddsTo y (launchesEnded s y h) :=
  .foldl (fun _ _ => endDomain_completed_addsTo ..) _ _

theorem launchesEnded_addsTo_vectorsRaised (s : State) (y : Sys) (h : Nat) (c : Counter) :
    AddsTo (launchesEnded s y h) (vectorsRaised s y h c) :=
  .foldl (fun _ _ => raiseMsix_addsTo ..) _ _

theorem vectorsRaised_addsTo_counterDone (s : State) (y : Sys) (h : Nat) (c : Counter) :
    AddsTo (vectorsRaised s y h c) (counterDone s y h c) :=
  .foldl (fun _ _ => schedule_addsTo ..) _ _

theorem counterDone_addsTo (s : State) (y : Sys) (h : Nat) (c : Counter) : AddsTo y (counterDone s y h c) :=
  ((launchesEnded_addsTo ..).trans (launchesEnded_addsTo_vectorsRaised ..)).trans (vectorsRaised_addsTo_counterDone ..)

theorem mem_countersLaunches {d : Domain} :
    d ∈ countersLaunches y h ↔ d ∈ y.doms ∧ d.control = false ∧ d.launch.counter = h ∧ d.st ≠ .ended := by
  simp [countersLaunches, and_assoc]

theorem mem_doneVectors {ds : List Domain} {v : Nat} :
    v ∈ doneVectors ds c ↔ v < 64 ∧ (v = c.msix ∨ ∃ d ∈ ds, v = d.launch.msix) := by
  simp [doneVectors, and_comm, eq_comm]

theorem mem_doneParents {ds : List Domain} {p : Nat × Nat} : p ∈ doneParents ds c ↔
    (c.hasParent = true ∧ p = (c.parent, c.ppos)) ∨ ∃ d ∈ ds, d.launch.hasParent = true ∧ p = (d.launch.parent, d.launch.ppos) := by
  cases hp : c.hasParent <;> simp [doneParents, hp, and_assoc, @eq_comm _ p]

/-- A counter in which no launch counts, without vector and parent, is DONE and nothing follows. -/
theorem counterDone_of_none (hds : countersLaunches y h = []) (hv : 64 ≤ c.msix) (hp : c.hasParent = false) :
    counterDone s y h c = y := by
  have hvectors : doneVectors [] c = [] := by simp [doneVectors, Nat.not_lt.2 hv]
  have hparents : doneParents [] c = [] := by simp [doneParents, hp]
  rw [counterDone_eq, vectorsRaised, launchesEnded, hds, hvectors, hparents]
  rfl

/-- The domains of a machine stay as they are when vectors are raised and events scheduled. -/
theorem domAt_counterDone (n : Nat) : domAt (counterDone s y h c) n = domAt (launchesEnded s y h) n := by
  have hraised : (vectorsRaised s y h c).doms = (launchesEnded s y h).doms :=
    List.foldlRecOn _ _ (motive := fun z : Sys => z.doms = (launchesEnded s y h).doms) rfl fun z hz v _ => by
      obtain ⟨_, _, e⟩ := raiseMsix_frame z (c.vd % 32) v
      rw [e, ← hz]
  have hdone : (counterDone s y h c).doms = (vectorsRaised s y h c).doms :=
    List.foldlRecOn _ _ (motive := fun z : Sys => z.doms = (vectorsRaised s y h c).doms) rfl fun z hz p _ => hz
  rw [domAt, domAt, hdone, hraised]

theorem domAt_counterDone_of_mem (hy : (y.doms.map Domain.id).Nodup) {d : Domain} (hd : d ∈ countersLaunches y h) :
    domAt (counterDone s y h c) d.id = some (d.ended s.gtc statusCompleted) := by
  obtain ⟨_, _, _, hst⟩ := mem_countersLaunches.1 hd
  rw [domAt_counterDone]
  exact domAt_foldl_endDomain (hy.sublist (List.filter_sublist.map _)) hd hst

/-- The STATUS and ENDTICK of each of its launches are posted. -/
theorem counterDone_posts {d : Domain} (hd : d ∈ countersLaunches y h) :
    plainPosts s d.vd (d.launch.desc + 0x30) (toBytes 4 statusCompleted) ⊆ (counterDone s y h c).posts ∧
      plainPosts s d.vd (d.launch.desc + 0x38) (toBytes 8 s.gtc) ⊆ (counterDone s y h c).posts := by
  obtain ⟨_, hcontrol, _, hst⟩ := mem_countersLaunches.1 hd
  have hended : plainPosts s d.vd (d.launch.desc + 0x30) (toBytes 4 statusCompleted) ⊆ (launchesEnded s y h).posts ∧
      plainPosts s d.vd (d.launch.desc + 0x38) (toBytes 8 s.gtc) ⊆ (launchesEnded s y h).posts := by
    unfold launchesEnded
    refine AddsTo.foldl_of_mem (fun _ _ => endDomain_completed_addsTo ..)
      (P := fun z => plainPosts s d.vd (d.launch.desc + 0x30) (toBytes 4 statusCompleted) ⊆ z.posts ∧
        plainPosts s d.vd (d.launch.desc + 0x38) (toBytes 8 s.gtc) ⊆ z.posts)
      (fun _ _ hadd hp => ⟨List.Subset.trans hp.1 hadd.posts, List.Subset.trans hp.2 hadd.posts⟩) hd fun z _ => ?_
    rw [endDomain_of_launch hst hcontrol, launchEnd_completed]
    obtain ⟨_, hstatus, htick⟩ := writeStatus_adds s (setDom z (d.ended s.gtc statusCompleted)) d.vd d.launch.desc statusCompleted 0
    rw [Nat.mul_zero, Nat.add_zero] at hstatus
    exact ⟨hstatus, htick⟩
  have hadd : AddsTo (launchesEnded s y h) (counterDone s y h c) :=
    (launchesEnded_addsTo_vectorsRaised s y h c).trans (vectorsRaised_addsTo_counterDone s y h c)
  exact ⟨List.Subset.trans hended.1 hadd.posts, List.Subset.trans hended.2 hadd.posts⟩

/-- Each of its vectors is raised: sent, or pending while it is masked. -/
theorem counterDone_vectors {v : Nat} (hv : v ∈ doneVectors (countersLaunches y h) c) (hhost : y.mgmt.hostGone = false) :
    ((msixAt y (c.vd % 32) v).mask = false →
      .send (.msix (c.vd % 32) v (msixAt y (c.vd % 32) v).addr (msixAt y (c.vd % 32) v).data) ∈ (counterDone s y h c).posts) ∧
    ((msixAt y (c.vd % 32) v).mask = true →
      msixAt (counterDone s y h c) (c.vd % 32) v = { msixAt y (c.vd % 32) v with pend := true }) := by
  have hbefore := launchesEnded_addsTo s y h
  have hbehind := vectorsRaised_addsTo_counterDone s y h c
  refine ⟨fun hmask => hbehind.posts ?_, fun hmask => ?_⟩
  · refine AddsTo.foldl_of_mem (fun _ _ => raiseMsix_addsTo ..)
      (P := fun z => Post.send (.msix (c.vd % 32) v (msixAt y (c.vd % 32) v).addr (msixAt y (c.vd % 32) v).data) ∈ z.posts)
      (fun _ _ hadd hp => hadd.posts hp) hv fun z hz => ?_
    have hz := hbefore.trans hz
    obtain hsame | hpend := hz.vectors (c.vd % 32) v
    · rw [raiseMsix_of_unmasked (hz.host.trans hhost) (by rw [hsame, hmask]), hsame]
      simp [sendOut]
    · rw [raiseMsix_of_unmasked (hz.host.trans hhost) (by rw [hpend]; exact hmask), hpend]
      simp [sendOut]
  · have hraised : msixAt (vectorsRaised s y h c) (c.vd % 32) v = { msixAt y (c.vd % 32) v with pend := true } := by
      refine AddsTo.foldl_of_mem (fun _ _ => raiseMsix_addsTo ..)
        (P := fun z => msixAt z (c.vd % 32) v = { msixAt y (c.vd % 32) v with pend := true })
        (fun x z hadd hp => ?_) hv fun z hz => ?_
      · obtain e | e := hadd.vectors (c.vd % 32) v <;> rw [e, hp]
      · have hz := hbefore.trans hz
        have hmaskz : (msixAt z (c.vd % 32) v).mask = true := by
          obtain e | e := hz.vectors (c.vd % 32) v <;> rw [e] <;> exact hmask
        rw [raiseMsix_of_masked (hz.host.trans hhost) hmaskz, msixAt_setMsix, if_pos (msixAt_key z (c.vd % 32) v).symm]
        obtain e | e := hz.vectors (c.vd % 32) v <;> rw [e]
    obtain e | e := hbehind.vectors (c.vd % 32) v <;> rw [e, hraised]

/-- Each of its parents registers the completion in the same tick. -/
theorem counterDone_sched {p : Nat × Nat} (hp : p ∈ doneParents (countersLaunches y h) c) :
    (s.gtc, .counterCompletion p.1 p.2, noMsg) ∈ (counterDone s y h c).sched :=
  AddsTo.foldl_of_mem (P := fun z => (s.gtc, Instr.counterCompletion p.1 p.2, noMsg) ∈ z.sched) (fun _ _ => schedule_addsTo ..)
    (fun _ _ hadd hmem => hadd.sched hmem) hp fun _ _ => by simp [schedule]

end

/-! ## The event of a completion (R291) -/

section
variable {s : State} {h c : Nat} {o : Obj} {k : Counter}

theorem counterOf_eq {y : Sys} (ho : objOf y h = some o) (hb : o.body = .counter k) : counterOf y h = some (o, k) := by
  simp [counterOf, ho, hb]

/-- A counter in which a contributor has counted. -/
def Counter.counted (k : Counter) (c : Nat) : Counter := { k with count := k.count + 1, bitmap := k.bitmap ||| 1 <<< c }

/-- A counter whose last contributor has counted at a tick. -/
def Counter.doneAt (k : Counter) (c g : Nat) : Counter := { k.counted c with state := 1, donetick := g }

theorem exec_counterCompletion (ho : objOf s.sys h = some o) (hb : o.body = .counter k) :
    exec (.counterCompletion h c) s = .next { s with
      sys := if k.state ≠ 0 || k.target ≤ c || k.bitmap.testBit c then s.sys
        else if k.count + 1 = k.target then
          counterDone s (setObj s.sys { o with body := .counter (k.doneAt c s.gtc) }) h (k.doneAt c s.gtc)
        else setObj s.sys { o with body := .counter (k.counted c) } } := by
  show execCounterCompletion h c s = _
  refine lift_of_eq ?_
  simp only [counterOf_eq ho hb]
  rfl

end

/-! ## Cancel (R313) -/

/-- A counter that was RUNNING, CANCELLED at a tick. -/
def cancelledAt (g : Nat) (o : Obj) (k : Counter) : Obj := { o with body := .counter { k with state := 2, donetick := g } }

/-- A counter is as it was or CANCELLED at a tick. -/
def MayCancel (g : Nat) (o : Obj) (k : Counter) (y : Sys) : Prop := objOf y o.key = some o ∨ objOf y o.key = some (cancelledAt g o k)

section
variable {g : Nat} {o : Obj} {k : Counter} {y z : Sys}

theorem MayCancel.of_objs (h : MayCancel g o k y) (hz : z.objs = y.objs) : MayCancel g o k z := by
  simpa only [MayCancel, objOf, hz] using h

/-- An object that is not a running counter is left alone. -/
theorem cancelCounter_of_not_running {h : Nat} {o' : Obj} (ho : objOf y h = some o') (hb : ∀ c, o'.body = .counter c → c.state ≠ 0) :
    cancelCounter y g h = y := by
  unfold cancelCounter
  rw [ho]
  dsimp only
  split
  case h_1 c hc => exact if_neg (hb c hc)
  case h_2 => rfl

theorem cancelCounter_of_running {h : Nat} {o' : Obj} {c : Counter} (ho : objOf y h = some o') (hb : o'.body = .counter c)
    (hst : c.state = 0) :
    cancelCounter y g h = setObj y (cancelledAt g o' c) := by
  simp [cancelCounter, ho, hb, hst, cancelledAt]

/-- A counter's cancel leaves the other objects alone. -/
theorem objOf_cancelCounter_other {h n : Nat} (hn : n ≠ h) : objOf (cancelCounter y g h) n = objOf y n := by
  unfold cancelCounter
  split
  case h_1 o' ho =>
    split
    · split
      · exact objOf_setObj_other _ _ _ (by rw [show o'.key = h from objOf_key ho]; exact hn)
      · rfl
    · rfl
  case h_2 => rfl

variable (hb : o.body = .counter k)
include hb

/-- Its own cancel makes it CANCELLED, or leaves it so. -/
theorem objOf_cancelCounter_same (hst : k.state = 0) (h : MayCancel g o k y) :
    objOf (cancelCounter y g o.key) o.key = some (cancelledAt g o k) := by
  obtain h | h := h
  · rw [cancelCounter_of_running h hb hst]
    exact objOf_setObj_same y (cancelledAt g o k)
  · rw [cancelCounter_of_not_running h (by rintro c hc; cases hc; exact Nat.succ_ne_zero 1), h]

theorem MayCancel.cancelCounter (hst : k.state = 0) (h : MayCancel g o k y) (n : Nat) : MayCancel g o k (cancelCounter y g n) := by
  by_cases hn : o.key = n
  · subst hn
    exact .inr (objOf_cancelCounter_same hb hst h)
  · simpa only [MayCancel, objOf_cancelCounter_other hn] using h

end

theorem abandonLaunch_objs (y : Sys) (g vk seq : Nat) : (abandonLaunch y g vk seq).objs = y.objs :=
  List.foldlRecOn _ _ (motive := fun z : Sys => z.objs = y.objs) rfl fun z hz o _ => by
    split
    · exact hz
    · exact hz

theorem dropQueued_objs (y : Sys) (g vk seq : Nat) : (dropQueued y g vk seq).objs = y.objs := by
  unfold dropQueued
  dsimp only
  split <;> rfl

section
variable {s : State} {o : Obj} {k : Counter} {y : Sys} (hb : o.body = .counter k) (hst : k.state = 0)
include hb hst

theorem MayCancel.launchEnd (h : MayCancel s.gtc o k y) (vk : Nat) (l : Launch) (status reason : Nat) :
    MayCancel s.gtc o k (launchEnd s y vk l status reason) := by
  have hstatus : MayCancel s.gtc o k (writeStatus s y vk l.desc status reason) := h.of_objs (writeStatus_adds ..).1.objs
  unfold Machine.launchEnd
  dsimp only
  split
  · exact hstatus
  · exact (hstatus.cancelCounter hb hst l.counter).of_objs (abandonLaunch_objs ..)

theorem MayCancel.endDomain (h : MayCancel s.gtc o k y) (d : Domain) (status : Nat) : MayCancel s.gtc o k (endDomain s y d status) := by
  by_cases hend : d.st = .ended
  · rwa [endDomain_of_ended hend]
  · have hput : MayCancel s.gtc o k (setDom y (d.ended s.gtc status)) := h.of_objs rfl
    cases hc : d.control with
    | true => rwa [endDomain_of_control hend hc]
    | false =>
      rw [endDomain_of_launch hend hc]
      exact hput.launchEnd hb hst ..

/-- Cancelling what lies below a level cancels the counter of the level. -/
theorem objOf_cancelBelow (ho : objOf y o.key = some o) : objOf (cancelBelow s y o.key) o.key = some (cancelledAt s.gtc o k) := by
  have hself : below y o.key y.objs.length o.key = true := by
    cases y.objs.length <;> simp [below]
  have hmem : o ∈ y.objs := List.mem_of_find?_eq_some ho
  unfold cancelBelow
  dsimp only
  generalize hc : List.filter _ y.objs = counters
  have hcounter : o ∈ counters := by
    rw [← hc, List.mem_filter]
    exact ⟨hmem, by simp [hb, hself]⟩
  obtain ⟨before, behind, rfl⟩ := List.append_of_mem hcounter
  rw [List.foldl_append, List.foldl_cons]
  refine List.foldlRecOn behind _ (motive := fun z => objOf z o.key = some (cancelledAt s.gtc o k)) ?_ fun z hz p _ => ?_
  · refine objOf_cancelCounter_same hb hst ?_
    refine List.foldlRecOn before _ (motive := MayCancel s.gtc o k) ?_ fun z hz p _ => hz.cancelCounter hb hst _
    refine List.foldlRecOn _ _ (motive := MayCancel s.gtc o k) ?_ fun z hz p _ => (hz.of_objs (dropQueued_objs ..)).launchEnd hb hst ..
    exact List.foldlRecOn _ _ (motive := MayCancel s.gtc o k) (.inl ho) fun z hz d _ => hz.endDomain hb hst ..
  · by_cases hp : o.key = p.key
    · rw [← hp]
      exact objOf_cancelCounter_same hb hst (.inr hz)
    · rw [objOf_cancelCounter_other hp, hz]

end

section
variable {s : State} {o : Obj} {k : Counter}

theorem exec_homeCwait (ho : objOf s.sys s.sys.msg.obj = some o) (hb : o.body = .counter k) : exec .homeCwait s =
    .next (s.answering s.sys k.pendmap (if k.state = 0 then 11 else if k.state = 1 then 0 else 12) 255 k.count) := by
  show execHomeCwait s = _
  refine lift_of_eq ?_
  simp only [counterOf_eq ho hb]
  rfl

theorem exec_homeCancel (ho : objOf s.sys s.sys.msg.obj = some o) (hb : o.body = .counter k) : exec .homeCancel s =
    .next (s.answering (if k.state = 0 then cancelBelow s s.sys s.sys.msg.obj else s.sys) k.state 0 255 k.count) := by
  show execHomeCancel s = _
  refine lift_of_eq ?_
  simp only [counterOf_eq ho hb]
  rfl

theorem objOf_reply (y : Sys) (g : Nat) (m : HomeMsg) (first status who value h : Nat) :
    objOf (reply y g m first status who value) h = objOf y h := by
  obtain ⟨_, _, e⟩ := reply_frame y g m first status who value
  rw [e]
  rfl

end

/-- Settles O34: a completion by whether it counts and whether it is the last; what follows on the last one is only added to the machine,
so that all of it is there at the end. -/
theorem counterEvents : Obligations.CounterEvents := by
  intro s o k hb
  refine ⟨fun h c ho => ?completion, fun ho => ⟨exec_homeCwait ho hb, fun hst => ?_, fun hst hkey => ⟨_, exec_homeCancel ho hb, ?_⟩⟩⟩
  case completion =>
    intro counted done ds
    have hkey : o.key = h := objOf_key ho
    rw [exec_counterCompletion ho hb]
    refine ⟨fun hno => ?_, fun hst hc hbit hmore => ?_, fun hst hc hbit hlast => ?_⟩
    · rw [if_pos (by simpa [or_assoc] using hno)]
    · rw [if_neg (by simp [hst, hbit, hc]), if_neg hmore]
      rfl
    rw [if_neg (by simp [hst, hbit, hc]), if_pos hlast]
    have hadds := counterDone_addsTo s (setObj s.sys done) h (k.doneAt c s.gtc)
    have hended := fun hids d hd => domAt_counterDone_of_mem (s := s) (y := setObj s.sys done) (h := h) (c := k.doneAt c s.gtc) hids (d := d) hd
    refine ⟨fun hds hv hp => ?_, _, rfl, ?_, fun hids d hd => ⟨hended hids d hd, ?_⟩, fun v hlt hv hhost => ?_,
      fun hp => counterDone_sched (p := (k.parent, k.ppos)) (mem_doneParents.2 (.inl ⟨hp, rfl⟩)),
      fun d hd hp => counterDone_sched (p := (d.launch.parent, d.launch.ppos)) (mem_doneParents.2 (.inr ⟨d, hd, hp, rfl⟩))⟩
    · exact congrArg (fun y => Host.Outcome.next { s with sys := y })
        (counterDone_of_none (y := setObj s.sys done) (c := k.doneAt c s.gtc) hds hv hp)
    · show objOf (counterDone ..) h = _
      refine (congrArg (getBy Obj.key h) hadds.objs).trans ?_
      rw [← hkey]
      exact objOf_setObj_same s.sys done
    · obtain ⟨hstatus, htick⟩ := counterDone_posts (s := s) (y := setObj s.sys done) (c := k.doneAt c s.gtc) hd
      exact forall_mem_two (fun w hw => hstatus hw) fun w hw => htick hw
    · exact counterDone_vectors (y := setObj s.sys done) (c := k.doneAt c s.gtc) (mem_doneVectors.2 ⟨hlt, hv⟩) hhost
  · rw [exec_homeCancel ho hb, if_neg hst]
  · rw [if_pos hst, ← hkey]
    exact (objOf_reply ..).trans (objOf_cancelBelow hb hst (hkey ▸ ho))

end Sys2Proof.Machine

/-! PROOFS. How an event reaches its home and its answer comes back (R275, R298), and the links that they cross (R382, R383, R392). -/

namespace Sys2Proof.Machine

/-! ## The fields of a handle and a status word -/

theorem isRemote_iff {core h : Nat} : isRemote core h = true ↔ homeField h = 4 ∧ chipField h ≠ chipOf core % 524288 := by
  simp [isRemote]

theorem not_isRemote_of_own {core h : Nat} (hc : chipField h = chipOf core % 524288) : isRemote core h = false := by
  simp [isRemote, hc]

theorem statusWord_eq {status who value : Nat} (hv : value < 2 ^ 32) :
    statusWord status who value = status + 256 * who + 2 ^ 32 * value := by
  unfold statusWord
  omega

/-! ## The way there (R275) -/

section
variable {y : Sys} {g : Nat} {i : Instr} {m : HomeMsg}

theorem sendHome_of_gone (hhome : homeField m.obj = 4) (hgone : chipRemoved y (vdKeyOf y m.core) (chipField m.obj) = true) :
    sendHome y g i m = y := by
  simp [sendHome, hhome, hgone]

theorem sendHome_eq_schedule (h : homeField m.obj = 4 → chipRemoved y (vdKeyOf y m.core) (chipField m.obj) = false) :
    sendHome y g i m = schedule (regTick y g m.core m.obj).2 (regTick y g m.core m.obj).1 i m :=
  if_neg (by simpa using h)

theorem regTick_of_die (h : homeField m.obj < 4) :
    regTick y g m.core m.obj = (g + (if homeField m.obj = dieOf m.core then 6 else 30), y) := if_pos h

theorem regTick_of_tulle (hhome : homeField m.obj = 4) (hown : isRemote m.core m.obj = false) :
    regTick y g m.core m.obj = (g + 20, y) := by
  simp [regTick, hhome, hown]

/-- At another chip's Tulle no event of a core overtakes an earlier one. -/
theorem regTick_of_remote (hhome : homeField m.obj = 4) (hother : isRemote m.core m.obj = true) : regTick y g m.core m.obj =
    (max (g + 4 + Config.regDelay y.free % (33 + (vdOf y (vdKeyOf y m.core)).rlat)) (lastReg y m.core m.obj),
      { y with free := y.free + 1 }) := by
  unfold regTick
  rw [if_neg (by simp [hhome]), if_pos hother]
  rfl

theorem lambdaOf_of_die (h : homeField m.obj < 4) :
    lambdaOf y m.core m.obj = if homeField m.obj = dieOf m.core then 8 else 56 := if_pos h

theorem lambdaOf_of_tulle (hhome : homeField m.obj = 4) : lambdaOf y m.core m.obj =
    if isRemote m.core m.obj then 40 + 2 * (vdOf y (vdKeyOf y m.core)).rlat else 40 :=
  if_neg (by simp [hhome])

/-- An event of the core under way to the same home. -/
def OnTheWay (y : Sys) (core h : Nat) (e : Nat × Instr × HomeMsg) : Prop :=
  e ∈ y.sched ∧ e.2.2 ≠ noMsg ∧ e.2.2.core = core ∧ e.2.2.obj / 2 ^ 14 = h / 2 ^ 14

/-- The latest of them. -/
theorem lastReg_eq (y : Sys) (core h : Nat) : lastReg y core h =
    (y.sched.filter fun e => e.2.2.core = core && e.2.2.obj / 2 ^ 14 = h / 2 ^ 14 && e.2.2 != noMsg).foldl (fun t e => max t e.1) 0 := by
  rw [List.foldl_filter]
  rfl

theorem mem_onTheWay {core h : Nat} {e : Nat × Instr × HomeMsg} :
    e ∈ y.sched.filter (fun e => e.2.2.core = core && e.2.2.obj / 2 ^ 14 = h / 2 ^ 14 && e.2.2 != noMsg) ↔ OnTheWay y core h e := by
  simp only [List.mem_filter, Bool.and_eq_true, decide_eq_true_eq, bne_iff_ne, OnTheWay]
  tauto

theorem le_lastReg {core h : Nat} {e : Nat × Instr × HomeMsg} (he : OnTheWay y core h e) : e.1 ≤ lastReg y core h := by
  rw [lastReg_eq]
  exact (le_foldl_max Prod.fst _ 0).2.1 e (mem_onTheWay.2 he)

theorem lastReg_le {core h n : Nat} (hall : ∀ e, OnTheWay y core h e → e.1 ≤ n) : lastReg y core h ≤ n := by
  rw [lastReg_eq]
  obtain ⟨_, _, hzero | ⟨e, he, hlast⟩⟩ := le_foldl_max Prod.fst
    (y.sched.filter fun e => e.2.2.core = core && e.2.2.obj / 2 ^ 14 = h / 2 ^ 14 && e.2.2 != noMsg) 0
  · rw [hzero]
    exact Nat.zero_le n
  · rw [← hlast]
    exact hall e (mem_onTheWay.1 he)

end

/-! ## Links (R382, R383, R392) -/

section
variable {y : Sys} {g far : Nat}

/-- A port that is up, or stalls, is one of the chip's. -/
theorem portAt_mem {p : Nat} (h : p < 24) : portAt y p ∈ y.mgmt.ports.toList := by
  rw [portAt, Vector.getElem?_eq_getElem h]
  simp

/-- The port that traffic takes is one of the chip's. -/
theorem viaPort_lt (y : Sys) (chip : Nat) : viaPort y chip < 24 := by
  unfold viaPort
  dsimp only
  split
  case isTrue h =>
    obtain ⟨_, hup⟩ := Bool.and_eq_true_iff.1 h
    by_contra hout
    simp [portAt, Vector.getElem?_eq_none (Nat.not_lt.1 hout)] at hup
  case isFalse => exact Nat.mod_lt _ (by decide)

/-- Where the link to a far end is down, some link of the chip does not carry its traffic. -/
theorem anyStall_of_farDown (h : farDown y g far = true) : anyStall y g = true := by
  have hvia := portAt_mem (y := y) (viaPort_lt y far)
  have hroute := portAt_mem (y := y) (Nat.mod_lt (Config.routePort far) (show 24 > 0 by decide))
  rw [farDown_iff] at h
  simp only [anyStall, Bool.or_eq_true, decide_eq_true_eq, Bool.not_eq_true', List.any_eq_true]
  split at h
  · exact .inl (.inl h)
  · obtain hready | hdown | hstall | hstall := h
    · exact .inl (.inr hready)
    · exact .inr ⟨_, hvia, .inl hdown⟩
    · exact .inr ⟨_, hvia, .inr hstall⟩
    · exact .inr ⟨_, hroute, .inr hstall⟩

/-- An event due that is to cross a link which is down in the next tick comes a tick later; one whose link carries traffic stays. -/
theorem mem_ticked_sched {s : State} {e : Nat × Instr × HomeMsg} (he : e ∈ s.sys.sched) (hfar : eventFar s.sys e.2.1 e.2.2 = some far) :
    (e.1 ≤ s.gtc + 1 → farDown s.sys (s.gtc + 1) far = true → (s.gtc + 2, e.2) ∈ (ticked s).sys.sched) ∧
      (farDown s.sys (s.gtc + 1) far = false → e ∈ (ticked s).sys.sched) := by
  have hsched : (ticked s).sys.sched = (tickStalled s).sched := tickRecorded_sched s
  rw [hsched]
  refine ⟨fun hdue hdown => (mem_tickStalled_sched (anyStall_of_farDown hdown) he).1 ⟨hdue, far, hfar, hdown⟩, fun hup => ?_⟩
  cases hstall : anyStall s.sys (s.gtc + 1) with
  | false =>
    rw [tickStalled_of_clear hstall]
    exact he
  | true =>
    refine (mem_tickStalled_sched hstall he).2 ?_
    rintro ⟨_, far', hfar', hdown⟩
    obtain rfl : far = far' := Option.some.inj (hfar.symm.trans hfar')
    rw [hup] at hdown
    contradiction

/-- A core's event to another chip's Tulle has to cross the link to that chip. -/
theorem eventFar_of_remote {i : Instr} {m : HomeMsg} (hi : isHomeEvent i = true) (hown : i ∉ [.homeLaunch, .shadowQproxy])
    (hrole : m.role < 3) (hhome : homeField m.obj = 4) (hcore : chipOf m.core = y.mgmt.chip)
    (hother : chipField m.obj ≠ y.mgmt.chip % 524288) : eventFar y i m = some (chipField m.obj) := by
  have hserved : servedAt i m = (4, chipField m.obj) := by
    unfold servedAt
    split <;> simp_all
  have hlink : linkBetween y (chipOf m.core % 524288) (chipField m.obj) = some (chipField m.obj) := by
    simp [linkBetween, hcore, hother.symm]
  unfold eventFar
  split
  · simp [isHomeEvent] at hi
  · rw [if_neg (by simp [isHostPush, Nat.ne_of_lt hrole]), hi, hserved, hlink]
    rfl

/-- While GTCSYNC reads 0 no link to another chip carries traffic (log entry 68). -/
theorem farDown_of_not_ready (hchip : far < 2 ^ 19) (hready : y.mgmt.ready.getLsbD 6 = false) : farDown y g far = true := by
  have hend : far ≠ hostEnd := by
    unfold hostEnd
    omega
  rw [farDown_iff, if_neg hend]
  exact .inl hready

end

/-! ## The way back (R275, R298) -/

section
variable {y : Sys} {g : Nat} {m : HomeMsg} {first status who value : Nat}

theorem reply_of_no_ticket (h : m.ticket = 0) : reply y g m first status who value = y := if_pos h

theorem reply_of_chip (h : m.ticket ≠ 0) (hown : isRemote m.core m.obj = false) : reply y g m first status who value =
    { y with answers := y.answers ++ [⟨m.ticket, g, first, statusWord status who value, none⟩] } := by
  simp [reply, h, hown]

theorem reply_of_remote (h : m.ticket ≠ 0) (hother : isRemote m.core m.obj = true) : reply y g m first status who value =
    { y with free := y.free + 1, answers := y.answers ++ [⟨m.ticket,
      g + 4 + Config.regDelay y.free % ((vdOf y (vdKeyOf y m.core)).rlat + 1), first, statusWord status who value,
      some (farChip y m.core m.obj)⟩] } := by
  unfold reply
  rw [if_neg h, if_pos hother]
  rfl

end

/-- Settles O27: the routes by the home of the handle, the tick by whether the event's link is down, the answer by whether its home is of
the core's chip. -/
theorem homeRoutesAndAnswers : Obligations.HomeRoutesAndAnswers := by
  refine ⟨?there, fun s => ⟨ticked s, exec_gtcTick s, fun g i m far he hfar => mem_ticked_sched he hfar, ?link⟩, ?back⟩
  case there =>
    intro y g i m home chip
    refine ⟨fun hdie => ?die, ?tulle⟩
    case' tulle =>
      intro gone
      refine ⟨fun hhome hgone => sendHome_of_gone hhome hgone, fun hhome hgone hown => ?own, fun hhome hgone hother => ?remote⟩
    case die =>
      refine ⟨?_, lambdaOf_of_die hdie⟩
      rw [sendHome_eq_schedule (fun h => absurd h (Nat.ne_of_lt hdie)), regTick_of_die hdie]
      rfl
    case own =>
      have htulle := not_isRemote_of_own (core := m.core) (h := m.obj) hown
      refine ⟨?_, by rw [lambdaOf_of_tulle hhome, htulle]; rfl⟩
      rw [sendHome_eq_schedule (fun _ => Bool.eq_false_iff.2 hgone), regTick_of_tulle hhome htulle]
      rfl
    case remote =>
      have hremote : isRemote m.core m.obj = true := isRemote_iff.2 ⟨hhome, hother⟩
      let travel := Config.regDelay y.free % (33 + (vdOf y (vdKeyOf y m.core)).rlat)
      have htravel : travel < 33 + (vdOf y (vdKeyOf y m.core)).rlat := Nat.mod_lt _ (by omega)
      refine ⟨by rw [lambdaOf_of_tulle hhome, hremote]; rfl, max (g + 4 + travel) (lastReg y m.core m.obj), by omega, ?_,
        fun e he hmsg hcore hobj => (le_lastReg ⟨he, hmsg, hcore, hobj⟩).trans (le_max_right ..), fun hall => ?_⟩
      · rw [sendHome_eq_schedule (fun _ => Bool.eq_false_iff.2 hgone), regTick_of_remote hhome hremote]
        rfl
      · have hlast : lastReg y m.core m.obj ≤ g + 4 := lastReg_le fun e ⟨he, _, hcore, hobj⟩ => hall e he hcore hobj
        omega
  case link =>
    rintro i m far hi hown hrole hhome rfl hcore hother
    exact ⟨eventFar_of_remote hi hown hrole hhome hcore hother, farDown_of_not_ready (Nat.mod_lt _ (by decide))⟩
  case back =>
    intro y g m first status who value _ _ hvalue word
    refine ⟨reply_of_no_ticket, fun ht hown => by rw [reply_of_chip ht hown, statusWord_eq hvalue], fun ht hother => ?_⟩
    have htravel := Nat.mod_lt (Config.regDelay y.free) (show (vdOf y (vdKeyOf y m.core)).rlat + 1 > 0 by omega)
    refine ⟨_, Nat.le_add_right .., ?_, by rw [reply_of_remote ht hother, statusWord_eq hvalue]⟩
    omega

end Sys2Proof.Machine

/-! PROOFS. The checks and the issue of the sync instructions (R275, R296 to R308). -/

namespace Sys2Proof.Machine

/-! ## Operands (R297, R304, R308) -/

/-- An operand word whose fields that the instruction does not use are zero, with a party below a bound (R297). -/
def OperandFits (w : Nat) (gen close count : Bool) (party : Nat) : Prop :=
  (gen = false → w / 2 ^ 32 % 2 ^ 32 = 0) ∧ w / 2 ^ 17 % 2 ^ 15 = 0 ∧ (close = false → w / 2 ^ 16 % 2 = 0) ∧
  (count = false → w / 2 ^ 8 % 2 ^ 8 = 0) ∧ w % 256 < party

theorem operandOk_iff {w : Nat} {gen close count : Bool} {party : Nat} :
    operandOk w gen close count party = true ↔ OperandFits w gen close count party := by
  have himp : ∀ (b : Bool) (p : Prop), (b = true ∨ p) ↔ (b = false → p) := fun b p => by cases b <;> simp
  simp only [operandOk, OperandFits, Bool.and_eq_true, Bool.or_eq_true, beq_iff_eq, decide_eq_true_eq, himp, and_assoc]
  simp [field]

/-- Of arrive, bwait and coll: a second operand that is not zero, too. -/
theorem operandOk_and_iff {w dl : Nat} {gen close count : Bool} {party : Nat} :
    (operandOk w gen close count party && dl != 0) = true ↔ OperandFits w gen close count party ∧ dl ≠ 0 := by
  simp [operandOk_iff]

theorem launchOk_iff {w dl : Nat} : launchOk w dl = true ↔ OperandFits w false false true 256 ∧
    (w / 256 % 256 ∈ (List.range 193).drop 1 ∧ w % 256 + w / 256 % 256 ≤ 192 ∧ dl % 64 = 0 ∧ dl / 2 ^ 57 % 2 ^ 7 = 0) := by
  have hcount : ∀ n, n ∈ (List.range 193).drop 1 ↔ 1 ≤ n ∧ n ≤ 192 := fun n => by
    rw [List.range_eq_range', List.drop_range', List.mem_range'_1]
    omega
  simp only [launchOk, Bool.and_eq_true, operandOk_iff, beq_iff_eq, decide_eq_true_eq, hcount, and_assoc]
  simp [field]

/-- A region descriptor whose range lies in the address space, for a party or for all (R304). -/
def RegionFits (a b : Nat) : Prop :=
  a / 2 ^ 57 % 2 ^ 7 = 0 ∧ a % 8 = 0 ∧ b / 2 ^ 50 % 2 ^ 14 = 0 ∧ b % 2 ^ 40 % 8 = 0 ∧ a + b % 2 ^ 40 ≤ 2 ^ 57 ∧
    (b / 2 ^ 40 % 2 ^ 8 < 64 ∨ b / 2 ^ 40 % 2 ^ 8 = 255)

theorem regionOk_iff {a b : Nat} : regionOk a b = true ↔ RegionFits a b := by
  simp only [regionOk, RegionFits, Bool.and_eq_true, Bool.or_eq_true, beq_iff_eq, decide_eq_true_eq, and_assoc]
  simp [field]

/-- The S7 rule asks for the fence of the objects that are marked (R192). -/
theorem s7Ok_iff {y : Sys} {h : Nat} {e : Entry} : s7Ok y h e = true ↔
    ∀ x, objOf y h = some x → x.s7 = true → e.afterSf = true := by
  unfold s7Ok
  cases objOf y h with
  | none => simp
  | some x => cases hx : x.s7 <;> simp [hx]

/-! ## The order of the checks (R300) -/

/-- A check stops with OBJECT for another type, then with OPERAND for a bad operand, then with OBJECT for the S7 rule. -/
def ChecksInOrder (stop : Option Stop) (y : Sys) (obj : Nat) (types : List Nat) (ok s7 : Prop) : Prop :=
  (typeOf y obj ∉ types → stop = some (.trap 16 0)) ∧ (typeOf y obj ∈ types → ¬ ok → stop = some (.trap 17 0)) ∧
  (typeOf y obj ∈ types → ok → ¬ s7 → stop = some (.trap 16 0)) ∧ (typeOf y obj ∈ types → ok → s7 → stop = none)

theorem syncCheck_inOrder {y : Sys} {obj : Nat} {types : List Nat} {okB s7B : Bool} {ok s7 : Prop} (hok : okB = true ↔ ok)
    (hs7 : s7B = true ↔ s7) : ChecksInOrder (syncCheck y obj types okB s7B) y obj types ok s7 := by
  obtain rfl : (okB = true) = ok := propext hok
  obtain rfl : (s7B = true) = s7 := propext hs7
  refine ⟨fun hty => ?_, fun hty hok => ?_, fun hty hok hs7 => ?_, fun hty hok hs7 => ?_⟩
  · simp [syncCheck, hty]
    rfl
  · simp [syncCheck, hty, hok]
    rfl
  · simp [syncCheck, hty, hok, hs7]
    rfl
  · simp [syncCheck, hty, hok, hs7]

/-! ## coll (R329, R331) -/

/-- A coll keeps its generation last among its core's and touches nothing but its core. -/
theorem collFire_spec (v : Env) (h g p : Nat) (y : Sys) : collFire v h g p y = { y with cores := (collFire v h g p y).cores } ∧
    ((coreOf (collFire v h g p y) v.core).colls.map CollRef.key).getLast? = some (h, g, p) := by
  refine ⟨rfl, ?_⟩
  unfold collFire
  dsimp only
  rw [coreOf_setCore, if_pos (by simp)]
  simp

/-! ## bind (R304) -/

theorem isWindow_iff {y : Sys} {h : Nat} : isWindow y h = true ↔ ∃ x, objOf y h = some x ∧ x.window = true := by
  unfold isWindow
  cases objOf y h <;> simp

section
variable {v : Env} {e : Entry} (o l : Nat)

theorem check_backBind_of_window (h : isWindow v.s.sys (e.op 0) = true) :
    ((backBind o l).op v e).check () = some (.trap 16 0) := if_pos h

theorem check_backBind_inOrder (h : ¬ isWindow v.s.sys (e.op 0) = true) :
    ChecksInOrder (((backBind o l).op v e).check ()) v.s.sys (e.op 0) [1, 2] (RegionFits (e.op 1) (e.op 2)) True := by
  have hcheck : ((backBind o l).op v e).check () = syncCheck v.s.sys (e.op 0) [1, 2] (regionOk (e.op 1) (e.op 2)) true := if_neg h
  rw [hcheck]
  exact syncCheck_inOrder regionOk_iff (by simp)

end

/-! ## The event that an instruction sends (R275, R299) -/

theorem field_from_zero (w hi : Nat) : field w hi 0 = w % 2 ^ (hi + 1) := by
  simp [field]

section
variable {v : Env} {e : Entry} {y : Sys} {d deadline dl aux : Nat} {types : List Nat} {ok s7 wgen : Bool} {ev : Instr}

/-- The message of an instruction whose answer is awaited. -/
def sentMsg (v : Env) (e : Entry) (dl aux : Nat) : HomeMsg := {
  obj := e.op 1, party := e.op 0 % 256, gen := e.op 0 / 2 ^ 32 % 2 ^ 32, dl := dl, aux := aux, core := v.core, role := v.role
  launch := launchOf v.s.sys v.core, ticket := v.s.sys.nextTicket }

theorem syncMsg_eq : syncMsg v (e.op 1) (e.op 0) dl aux v.s.sys.nextTicket = sentMsg v e dl aux := by
  rw [syncMsg, field_from_zero]
  rfl

/-- The pair of answers, of bwait also WGEN, λ after the issue. -/
abbrev answerLandings (v : Env) (e : Entry) (d lam : Nat) (wgen : Bool) : List Landing :=
  [landAnswer v e (e.t v + lam) d 0 v.s.sys.nextTicket (v.s.gtc + lam),
    landAnswer v e (e.t v + lam) (d + 1) 1 v.s.sys.nextTicket (v.s.gtc + lam)] ++
    if wgen then [{ landAnswer v e (e.t v + lam) 0x008 2 v.s.sys.nextTicket (v.s.gtc + lam) with tgt := .csr }] else []

/-- What the pair form is: its deadline, no rows, its checks in their order, and its answers. -/
theorem syncOp_spec {h ty : Nat} {tulle : Bool} {pre : Sys → Sys} {okP s7P : Prop} (hok : ok = true ↔ okP) (hs7 : s7 = true ↔ s7P) :
    (syncOp d v e h [ty] deadline ok s7 tulle ev dl aux wgen pre).deadline = deadline ∧
    (syncOp d v e h [ty] deadline ok s7 tulle ev dl aux wgen pre).rows = 0 ∧
    ChecksInOrder ((syncOp d v e h [ty] deadline ok s7 tulle ev dl aux wgen pre).check ()) v.s.sys h [ty] okP s7P ∧
    ((syncOp d v e h [ty] deadline ok s7 tulle ev dl aux wgen pre).issue ()).1 =
      answerLandings v e d (if tulle then 40 else lambdaOf v.s.sys v.core h) wgen :=
  ⟨rfl, rfl, syncCheck_inOrder hok hs7, rfl⟩

/-- To the home of the object. -/
theorem fire_syncOp_home {pre : Sys → Sys} :
    (syncOp d v e (e.op 1) types deadline ok s7 false ev dl aux wgen pre).fire y =
      sendHome (pre { y with nextTicket := v.s.sys.nextTicket + 1 }) v.s.gtc ev (sentMsg v e dl aux) := by
  rw [← syncMsg_eq]
  rfl

/-- To the own chip's Tulle. -/
theorem fire_syncOp_tulle :
    (syncOp d v e (e.op 1) types deadline ok s7 true ev dl aux wgen id).fire y = { y with
      nextTicket := v.s.sys.nextTicket + 1, sched := y.sched ++ [(v.s.gtc + 20, ev, sentMsg v e dl aux)] } := by
  rw [← syncMsg_eq]
  rfl

/-- collwait sends its event like the others, and its answer OK makes a check of its own (R330). -/
theorem fire_backCollwait (d o l : Nat) : ((backCollwait d o l).op v e).fire y =
    sendHome { y with nextTicket := v.s.sys.nextTicket + 1 } v.s.gtc .homeCollwait (sentMsg v e (e.op 2) 0) :=
  fire_syncOp_home (d := d) (types := [5]) (deadline := e.op 2) (ok := operandOk (e.op 0) true false false 64) (s7 := true)
    (wgen := false) (pre := id)

end

/-- Settles O26: every instruction of the pair form is one operation with its type, its operand's form, its deadline and its event; rel
and bind have no pair. -/
theorem syncIssue : Obligations.SyncIssue := by
  intro v e d o l y w h msg fits checks s7 pair sends tulle home dl plain range
  have hno : ((true : Bool) = true) ↔ True := by simp
  refine ⟨forall_mem_two ⟨_, rfl, syncOp_spec operandOk_and_iff hno⟩ ⟨_, rfl, syncOp_spec operandOk_and_iff hno⟩,
    ⟨_, rfl, syncOp_spec operandOk_and_iff hno⟩,
    forall_mem_two ⟨_, rfl, syncOp_spec operandOk_iff hno⟩
      ⟨_, rfl, syncOp_spec (deadline := dl) (ev := .homeCollwait) (dl := dl) (aux := 0) (pre := id) operandOk_iff hno⟩,
    forall_mem_four ⟨_, rfl, syncOp_spec operandOk_iff hno⟩ ⟨_, rfl, syncOp_spec operandOk_iff hno⟩
      ⟨_, rfl, syncOp_spec operandOk_iff hno⟩ ⟨_, rfl, syncOp_spec operandOk_iff hno⟩,
    ⟨_, rfl, syncOp_spec operandOk_iff hno⟩, ⟨_, rfl, syncOp_spec operandOk_iff hno⟩, ⟨_, rfl, syncOp_spec operandOk_iff hno⟩,
    ⟨_, rfl, syncOp_spec operandOk_iff s7Ok_iff⟩, ⟨_, rfl, syncOp_spec operandOk_iff hno⟩, ⟨_, rfl, syncOp_spec launchOk_iff hno⟩,
    ⟨_, rfl, fire_syncOp_home⟩, ⟨_, rfl, fire_syncOp_home⟩, ⟨_, rfl, fire_syncOp_home⟩, ⟨_, rfl, fire_syncOp_home⟩,
    ⟨_, rfl, fire_syncOp_home⟩, ⟨_, rfl, fire_syncOp_home⟩, ⟨_, rfl, fire_syncOp_home⟩, ⟨_, rfl, fire_syncOp_home⟩,
    ⟨_, rfl, fire_syncOp_home⟩, ⟨_, rfl, fire_syncOp_home⟩, ⟨_, rfl, fire_backCollwait d o l⟩, ⟨_, rfl, fire_syncOp_home⟩,
    ⟨_, rfl, fire_syncOp_tulle⟩, ⟨_, rfl, fire_syncOp_tulle⟩, ?coll, ⟨_, rfl, syncCheck_inOrder (by simp) hno, rfl, rfl⟩, ?bind⟩
  case coll =>
    obtain ⟨hcore, hlast⟩ := collFire_spec v h (w / 2 ^ 32 % 2 ^ 32) (w % 256) { y with nextTicket := y.nextTicket + 1 }
    refine ⟨_, _, rfl, fire_syncOp_home.trans ?_, hcore, hlast⟩
    rw [field_from_zero]
    rfl
  case bind =>
    refine ⟨_, rfl, rfl, fun hwin => check_backBind_of_window o l (isWindow_iff.2 hwin),
      fun hplain => check_backBind_inOrder o l fun hwin => ?_, rfl⟩
    obtain ⟨x, hx, hxw⟩ := isWindow_iff.1 hwin
    rw [hplain x hx] at hxw
    contradiction

end Sys2Proof.Machine
